-- ==== Sys2Proof/Word.lean ====
section
/-! DEFINITION. The word types of the Kovik: a byte of memory, a 64-bit register word, a 48-bit unit name or address (R10, R11, R20, R196). -/

namespace Sys2Proof

/-- One byte of device memory. -/
abbrev Byte := BitVec 8

/-- One register, one word of a descriptor (R200). -/
abbrev W64 := BitVec 64

/-- One cue (R89) or one handle (R175). -/
abbrev W128 := BitVec 128

/-- A unit name (R20): device number in bits [47:32], unit reference in bits [31:0]. -/
abbrev UnitName := BitVec 48

/-- Indexes of the physical units (R2, R17, R193, R325). -/
abbrev CoreNo := Fin 512
abbrev TroupeNo := Fin 32
abbrev StageNo := Fin 4
abbrev ConsNo := Fin 64
abbrev PortNo := Fin 4
abbrev QueueNo := Fin 64
abbrev AssocNo := Fin 16384

end Sys2Proof
end

