-- ==== Sys2Proof/Syntax.lean ====
section
/-! DEFINITION. The commands and events of the block: `Instr` has one constructor per row of spec/opcode_table.json.
A row of a cue names the Core whose Prompter takes it; the cue itself is the one its cue store holds at the cue pointer (R96).
A row of an event names the unit it happens on and carries what comes from outside the model (a reading, an error found, a packet). -/

namespace Sys2Proof

/-- Status codes (R371). -/
inductive Status where
  | ok | notReady | gone | busy | denied | badParam | reset | deadlineMiss | singular | numeric
  | versionGone | rearmReject | dark | noSession | integrity
deriving DecidableEq, Repr, Inhabited

/-- The interface a command packet arrived by (R359, R395, R421). -/
inductive Lane where
  | management | main
deriving DecidableEq, Repr

/-- What a parsed command packet brings besides its parameters (R360): session 0 outside a session. -/
structure Hdr where
  session : BitVec 32
  tag     : BitVec 32
  lane    : Lane
deriving DecidableEq, Repr

/-- The two matrix arrays of a Core. -/
inductive ArrayId where
  | arrA | arrB
deriving DecidableEq, Repr

/-- A physical upset of one accumulator before its check (R73): the cell and the bits that flipped. -/
structure Upset where
  row  : Fin 64
  col  : Fin 64
  bits : W64
deriving DecidableEq, Repr

/-- What the SECDED code of Wings found on a transfer (R201): words corrected, or a double error at an offset of a Core's Wings. -/
inductive WingsEcc where
  | clean
  | corrected (words : Nat)
  | double (core : Fin 512) (off : Nat)
deriving DecidableEq, Repr

/-- What the code of a Gallery line found (R204). -/
inductive GalleryEcc where
  | clean | correctable | uncorrectable
deriving DecidableEq, Repr

/-- What Reed-Solomon decoding of a Vault line meets (R210, R214): nothing, or the symbols in error that a retry does not take
away, each by its codeword and its channel. -/
inductive VaultErr where
  | clean
  | symbols (l : List (Fin 64 × Fin 18))
deriving DecidableEq, Repr

/-- An access to a line: a read, or a write of bytes from an offset in the line. -/
inductive LineAcc where
  | read
  | write (off : Nat) (data : List Byte)
deriving DecidableEq, Repr

/-- Who released a handle that arrives (R179): an endpoint of a Core of this device, a remote endpoint, by association and request. -/
inductive HandleSrc where
  | localCore (c : CoreNo) (ep : Fin 16)
  | remote (assoc : Nat) (reqId : BitVec 32)
deriving DecidableEq, Repr

/-- The frame a Mioder packet arrives in (R303, R307): its port, whether it was marked CE, and what the port counted since the frame
before: codewords corrected, codewords lost, pause frames. -/
structure RxFrame where
  port   : Fin 4 := 0
  ce     : Bool := false
  fecCorrected : Nat := 0
  fecLost : Nat := 0
  pauses : Nat := 0
deriving DecidableEq, Repr

/-- An authenticated Mioder request (R306, R308, R355). -/
structure MioReq where
  assoc   : Nat
  counter : W64
  phase   : Bool
  psn     : BitVec 32
  path    : Nat
  reqId   : BitVec 32
  fwd     : Bool
  target  : W64
  version : BitVec 32
  gen     : BitVec 32
  length  : Nat
  aux     : BitVec 48
  data    : List Byte
  frame   : RxFrame := {}
deriving DecidableEq, Repr

/-- An authenticated Mioder response (R308). -/
structure MioResp where
  assoc   : Nat
  counter : W64
  phase   : Bool
  psn     : BitVec 32
  path    : Nat
  reqId   : BitVec 32
  status  : Status
  gen     : BitVec 32
  data    : List Byte
  frame   : RxFrame := {}
deriving DecidableEq, Repr

/-- An authenticated ACK (R307, R314); `rtt` is the sender's timer less `ECHO_STAMP`, in ns. -/
structure MioAck where
  assoc   : Nat
  counter : W64
  phase   : Bool
  cumPsn  : BitVec 32
  sack    : W64
  ce      : Nat
  path    : Nat
  rtt     : Nat
  frame   : RxFrame := {}
deriving DecidableEq, Repr

/-- Why a Mioder packet is dropped, or answered with BAD_PARAM (R307, R308, R326). -/
inductive MioDrop where
  | authentication
  | notUp
  | replay
  | reservedOp (op : BitVec 8) (r : MioReq)
deriving DecidableEq, Repr

/-- A HANDSHAKE message of an association, whole (R397, R399): the sender's index, HS_ID, the content; ABORT has a status. -/
inductive AssocHs where
  | init (src : BitVec 14) (hsId : BitVec 32) (content : List Byte)
  | resp (src : BitVec 14) (hsId : BitVec 32) (content : List Byte)
  | finish (src : BitVec 14) (hsId : BitVec 32) (signature : List Byte)
  | abort (hsId : BitVec 32) (status : Status)
deriving DecidableEq, Repr

/-- What the outside world answered an asynchronous service (R382): nothing, or a storage transfer's status and bytes. -/
inductive ServiceOutcome where
  | internal
  | storage (status : Status) (data : List Byte)
deriving DecidableEq, Repr

/-- A reply that arrives late (R433, R435): its kind 0 to 5, the unit that formed it, the generation it carries, and the
request of the Core it answers (a message sequence, a transfer, a handle endpoint or a job, by kind). -/
structure LateReply where
  kind    : Fin 6
  peer    : UnitName
  gen     : BitVec 32
  request : Nat
deriving DecidableEq, Repr

/-- A defect found by the first checks of a command packet (R362, R364, R367). -/
inductive PacketDefect where
  | short | magic | version | noSession | trailer | reservedOpcode | parameters
deriving DecidableEq, Repr

/-- How a power-on phase ends (R420, R422): it succeeds, with what its tests found, or bring-up fails. -/
structure PhaseEnd where
  fatal        : Option Status
  galleryFails : List (Fin 8 × Nat × Nat)
  trained      : Bool
deriving DecidableEq, Repr

/-- A Core fault (R428, R437): a suspect verdict, a Wings double error at a bank and row, a watchdog, a failed logic check. -/
inductive CoreFault where
  | suspect
  | wingsDouble (off : Nat)
  | watchdog
  | logic
deriving DecidableEq, Repr

/-- One governor sample (R385, R386): input and junctions, in the telemetry's units, and the averaged input power. -/
structure PowerSample where
  vinMv   : BitVec 16
  iin     : BitVec 16
  pinW    : BitVec 16
  tj      : List Int
  tInlet  : BitVec 16
  pace    : List (BitVec 16)
deriving DecidableEq, Repr

/-- A cue of a Core as it issues, with what the ECC of Wings found where it reads them (R201). -/
structure CueEcc where
  core : CoreNo
  ecc  : WingsEcc
deriving DecidableEq, Repr

/-- A cue of a Core as it issues; `storeError` where the table store has an uncorrectable error as the cue evaluates its slot (R127). -/
structure CueStore where
  core : CoreNo
  storeError : Bool
deriving DecidableEq, Repr

/-- A ROOT cue of a Core as it issues; `waits` where the router has not taken the submission when the next cue is tried (R97). -/
structure CueWait where
  core  : CoreNo
  waits : Bool
deriving DecidableEq, Repr

/-- A table slot as it is written or loaded; `storeError` where its store then has an uncorrectable error (R127). -/
structure SlotLoad where
  slot : Fin 32
  storeError : Bool
deriving DecidableEq, Repr

/-- A boundary of the job on a Troupe's engine; `scratchError` where its scratch SRAM had an uncorrectable error (R266). -/
structure JobPoint where
  troupe : TroupeNo
  scratchError : Bool
deriving DecidableEq, Repr

/-- An association, with the frame in which a packet for it arrived (R303, R307). -/
structure RxAssoc where
  assoc : AssocNo
  frame : RxFrame := {}
deriving DecidableEq, Repr

/-- A COLL_READY, with the digest of the collective that the first of a device brings, else none (R338). -/
structure CollReady where
  req    : MioReq
  digest : List Byte
deriving DecidableEq, Repr

/-- The rows of spec/opcode_table.json; the rows of a Core's cues stand last. -/
inductive Instr where
  /-- The vector engine writes a cue's last result and its destinations become RESIDENT. (R163) -/
  | vecCueComplete (c : CoreNo)
  /-- A START cue begins one transfer on its stream descriptor once its handle queue and the engine have room. (R168) -/
  | strStart (c : CoreNo) (ecc : WingsEcc)
  /-- A REARM cue reads and checks a 64-byte arming and places it in the descriptor or its shadow, or refuses it. (R182) -/
  | strRearm (c : CoreNo)
  /-- A RELEASE cue waits for the oldest held handle's transfers and sends it to the next endpoint. (R176) -/
  | strRelease (c : CoreNo)
  /-- A stream TAKE cue waits for a waiting handle and moves it to the held list. (R176) -/
  | strTake (c : CoreNo)
  /-- A tile of a GET becomes RESIDENT as its last element is written, or a PUT tile is freed once read. (R171) -/
  | streamTileResident (c : CoreNo) (x : Nat)
  /-- A stream transfer ends with a status, setting flag 9 and raising notices on failure. (R173) -/
  | streamTransferComplete (c : CoreNo) (x : Nat)
  /-- The last earlier transfer of a descriptor completes and the shadow arming replaces the descriptor. (R182) -/
  | shadowInEffect (c : CoreNo) (d : Fin 32)
  /-- A handle arrives at an endpoint and is appended, or refused with GONE or BUSY. (R179) -/
  | handleArrival (c : CoreNo) (ep : Fin 16) (handle : BitVec 128) (src : HandleSrc)
  /-- The next endpoint's acceptance or refusal of a released handle completes the RELEASE or breaks the endpoint. (R179) -/
  | handleReleaseAnswer (c : CoreNo) (ep : Fin 16) (status : Status)
  /-- A SEND cue sends a message request to each receiver of its destination. (R108) -/
  | send (c : CueEcc)
  /-- A RECV cue copies the oldest complete message of its channel into Wings and frees its granules. (R110) -/
  | recv (c : CoreNo)
  /-- A COMPL cue copies the oldest completion record into Wings and frees it. (R111) -/
  | compl (c : CoreNo)
  /-- A receiver's channel ring gains room and grants credit to the oldest waiting message request. (R108) -/
  | msgCreditGrant (c : CoreNo) (ch : Fin 4)
  /-- A message's payload is complete in the ring and RTOKEN rises at the receiver. (R110) -/
  | msgCompleteInRing (c : CoreNo) (ch : Fin 4)
  /-- The copy of a RECV or COMPL into Wings is written and the cue completes. (R90) -/
  | recvCopyDone (c : CoreNo)
  /-- Every leaf and branch has answered and the SEND completes with its status and counts. (R29) -/
  | sendComplete (c : CoreNo) (seq : BitVec 16)
  /-- A token signal from outside the Core raises a token and is logged. (R244) -/
  | tokenSignalArrival (c : CoreNo) (token : Fin 64)
  /-- RAMP_STEPS steps pass and an array's activity level rises or falls by one. (R100) -/
  | rampLevelStep (c : CoreNo) (a : ArrayId)
  /-- FILL_HOLD steps pass after work and the array starts to ramp down. (R100) -/
  | holdFillEnd (c : CoreNo) (a : ArrayId)
  /-- FILL_USED reaches FILL_BUDGET, hold fill ends and ramp down begins. (R101) -/
  | fillBudgetExhausted (c : CoreNo)
  /-- A window of 65,536 steps ends and FILL_USED returns to 0. (R101) -/
  | fillWindowReset (c : CoreNo)
  /-- The shadow holds the complete copy and the marker commits as the restart point. (R102) -/
  | sceneCommit (c : CoreNo)
  /-- A rounding stream reaches 2^24 draws and is reseeded from the entropy source. (R53) -/
  | rngReseed (c : CoreNo) (k : Fin 3)
  /-- The entropy health tests start failing; stochastic rounding falls back unless FIXED_SEED is set. (R53) -/
  | entropyHealthFail (t : TroupeNo)
  /-- The entropy health tests pass again and fallback ends. (R53) -/
  | entropyHealthOk (t : TroupeNo)
  /-- A write to a word of a table slot sets the slot BUSY. (R127) -/
  | tableSlotWrite (c : CoreNo) (slot : SlotLoad) (off : Nat) (value : BitVec 64)
  /-- The write of the CRC word ends loading and sets the slot VALID or FAILED. (R127) -/
  | tableSlotCrcWrite (c : CoreNo) (slot : SlotLoad) (value : BitVec 64)
  /-- Every 2^24 steps the Core re-reads a VALID slot and sets it FAILED on a mismatch. (R127) -/
  | tableReread (c : CoreNo) (slot : Fin 32) (storeError : Bool)
  /-- The Curator reloads a FAILED slot from firmware or the Production. (R127) -/
  | tableSlotReload (c : CoreNo) (slot : SlotLoad)
  /-- A ROOT cue submits a job descriptor to its Troupe's engine or gang. (R268) -/
  | rootCue (c : CueWait)
  /-- The matrix unit is free and the engine starts or resumes its highest-ranked startable job. (R285) -/
  | rootJobStart (t : TroupeNo)
  /-- A running job reaches a panel or iteration boundary, writes its iterate and may be preempted. (R286) -/
  | rootJobBoundary (t : JobPoint)
  /-- A job ends by convergence, completion, MAX_ITERS or an error, and writes OUT, its slot and its result record. (R288) -/
  | rootJobEnd (t : TroupeNo)
  /-- A job's deadline passes on the Troupe timer and it ends with DEADLINE_MISS. (R287) -/
  | rootDeadlineMiss (t : TroupeNo) (jobSeq : BitVec 32)
  /-- The arrival word reaches EXPECT and the Assembly stage begins building the job's matrix. (R282) -/
  | rootAssemblyStart (t : TroupeNo)
  /-- The Assembly stage finishes a job's assembly and the job becomes startable. (R279) -/
  | rootAssemblyComplete (t : TroupeNo)
  /-- A write of 1 to a SLOT_CLEAR bit clears a warm-start slot at once. (R284) -/
  | slotClear (t : TroupeNo) (mask : BitVec 64)
  /-- A line adder performs an FP32 add on a Gallery line. (R206) -/
  | galleryLineAdd (addr : Nat) (value : BitVec 32) (ecc : GalleryEcc)
  /-- A read or write reaches a Gallery line and is corrected or poisoned by its code. (R204) -/
  | galleryLineAccess (addr : Nat) (acc : LineAcc) (ecc : GalleryEcc)
  /-- Patrol scrub reads and corrects a Gallery line in its 2^32-step pass. (R205) -/
  | galleryPatrolScrub (addr : Nat) (ecc : GalleryEcc)
  /-- A read or write reaches a Vault line and is decoded, reconstructed, stored or refused by the group's erasures. (R214) -/
  | vaultLineAccess (addr : Nat) (acc : LineAcc) (err : VaultErr)
  /-- A channel reaches CH_ERR_LIMIT corrections in the window, or its PHY faults, and is held. (R215) -/
  | chHeld (g : Fin 8) (ch : Fin 18)
  /-- A channel's die temperature has moved 10 °C and it enters RETRAINING. (R215) -/
  | driftRetrain (g : Fin 8) (ch : Fin 18)
  /-- A HELD channel enters RETRAINING once no other channel of its group retrains. (R215) -/
  | retrainStart (g : Fin 8) (ch : Fin 18)
  /-- A retraining attempt ends; success makes the channel REBUILDING or ACTIVE, a third failure makes it FAILED. (R215) -/
  | retrainAttemptEnd (g : Fin 8) (ok : Bool)
  /-- The controller rebuilds a STALE page and clears its mark; the last one makes the channels ACTIVE. (R216) -/
  | pageRebuilt (g : Fin 8)
  /-- Four corrections in one LPDDR5X row set ERASED_CH and start a row repair. (R217) -/
  | rowRepairStart (g : Fin 8) (ch : Fin 18) (addr : Nat) (repairLeft : Bool)
  /-- A repaired row's share is rebuilt, ERASED_CH is cleared and ROW_REPAIRED is raised. (R217) -/
  | rowRepaired (g : Fin 8) (addr : Nat)
  /-- An uncorrectable page-state SRAM error poisons the lines of eight pages. (R218) -/
  | pageStateError (g : Fin 8) (word : Nat)
  /-- A conversion sweep re-encrypts one page under the new key and flips EPOCH_SEL. (R221) -/
  | pageConverted (g : Fin 8)
  /-- A notice is offered to a queue and written, dropped into a gap, or dropped for a disabled queue. (R190) -/
  | noticeOffer
  /-- A write of a queue's base word configures, enables or disables the queue. (R192) -/
  | nqConfigWrite (q : QueueNo) (value : BitVec 64)
  /-- A write of NQ_HEAD advances the consumer count and may close an open gap. (R192) -/
  | nqHeadWrite (q : QueueNo) (value : BitVec 64)
  /-- A write of 1 to NQ_FLUSH discards the queue's contents by class. (R191) -/
  | nqFlush (q : QueueNo)
  /-- A pending flush writes its CAUSE 1 GAP once the record being written is published. (R191) -/
  | flushGapPublish (q : QueueNo)
  /-- At most once per µs the Kovik writes NQ_TAIL to the announce address. (R194) -/
  | nqAnnounceWrite (q : QueueNo)
  /-- A write of 1 to RUN starts the Prompter at ENTRY. (R87) -/
  | runStart (c : CoreNo)
  /-- A write of 0 to RUN stops issue at the next cue boundary and leaves the Core IDLE. (R87) -/
  | runStop (c : CoreNo)
  /-- A write of HQ_ENABLE makes an endpoint LIVE or OFF. (R179) -/
  | hqEnableWrite (c : CoreNo) (ep : Fin 16) (v : Bool)
  /-- A write of HQ_INJECT_HI appends a handle to an endpoint's waiting list. (R181) -/
  | hqInjectWrite (c : CoreNo) (value : BitVec 64)
  /-- A write of PRIORITY recomputes the handle queues' shares at once. (R178) -/
  | hqPriorityWrite (c : CoreNo) (ep : Fin 16) (p : Fin 8)
  /-- A register write to a field without behaviour of its own takes effect or is ignored. (R200) -/
  | registerWrite (addr : BitVec 48) (value : BitVec 64)
  /-- A read of an RC field returns its value and clears it. (R12) -/
  | registerReadClear (addr : BitVec 48)
  /-- A write of CRED_GO installs or empties a credential entry in flash. (R396) -/
  | credGo (session : BitVec 32) (value : BitVec 64)
  /-- A write of OWNER_RELEASE empties every credential and closes every session. (R396) -/
  | ownerRelease (session : BitVec 32)
  /-- ARRIVED reaches EXPECT with a held buffer free and the close copies ACC to it. (R237) -/
  | gradientClose (n : ConsNo) (i : Fin 64)
  /-- The copy of ACC completes, CLOSES rises and ACC zeroing begins. (R237) -/
  | closeCopyDone (n : ConsNo)
  /-- ACC is zeroed, the close returns to OPEN and raises CLOSED or an overrun. (R237) -/
  | closeZeroDone (n : ConsNo)
  /-- A Conservator takes a ready shard, reads its rule record and waits on the overwritten buffer's hold. (R246) -/
  | sweepStart (n : ConsNo) (i : Fin 64)
  /-- The hold word reaches zero, the selector drops PREV_VALID and the pass begins. (R246) -/
  | sweepPassStart (n : ConsNo)
  /-- The pass finishes one block's reads, update and writes. (R247) -/
  | sweepBlockDone (n : ConsNo)
  /-- A skip copy of slot S and working copy completes and commits unchanged state. (R260) -/
  | skipCopyDone (n : ConsNo)
  /-- Every write of the pass completes and the selector commits the new version, installing staged roots and signalling. (R246) -/
  | sweepCommit (n : ConsNo)
  /-- A queued compare finishes and writes MAX_DEV with a COMPARE notice. (R259) -/
  | compareDone (n : ConsNo)
  /-- A Mioder PUT request is resolved and performed, then answered. (R308) -/
  | mioderPut (r : MioReq)
  /-- A Mioder GET request is resolved and answered with data, versioned where it names a working buffer. (R308) -/
  | mioderGet (r : MioReq)
  /-- A Mioder ATOMIC request performs one atomic on its line and returns the previous value. (R308) -/
  | mioderAtomic (r : MioReq)
  /-- A Mioder ADD request adds FP32 elements into a Gallery. (R308) -/
  | mioderAdd (r : MioReq)
  /-- A Mioder MSG part arrives, is assembled and delivered to the landing store or refused with BUSY. (R310) -/
  | mioderMsg (r : MioReq)
  /-- A Mioder TOKEN request raises a token at the leaves of a unit. (R308) -/
  | mioderToken (r : MioReq)
  /-- A Mioder HANDLE request delivers a handle to a Core's endpoint. (R308) -/
  | mioderHandle (r : MioReq)
  /-- A Mioder UNIT request resets a unit or expands an Ensemble reset. (R308) -/
  | mioderUnitReset (r : MioReq)
  /-- A Mioder UNIT request returns a unit's descriptor. (R308) -/
  | mioderUnitDescribe (r : MioReq)
  /-- A Mioder REG_READ request returns one register. (R308) -/
  | mioderRegRead (r : MioReq)
  /-- A Mioder REG_WRITE request writes one register. (R308) -/
  | mioderRegWrite (r : MioReq)
  /-- A response arrives and completes its request, or is discarded after a reset. (R308) -/
  | mioderResponse (r : MioResp)
  /-- An ACK arrives, frees acknowledged packets and updates its path's window. (R314) -/
  | mioderAck (k : MioAck)
  /-- A PROBE arrives and is acknowledged. (R307) -/
  | mioderProbe (a : RxAssoc) (path : Nat) (counter : BitVec 64) (phase : Bool)
  /-- A packet's retransmission timer expires; it is resent and its path becomes suspect. (R312) -/
  | retransmitTimeout (a : AssocNo) (psn : BitVec 32)
  /-- Every RTO_MIN_US a suspect path is probed. (R315) -/
  | pathProbeTimer (a : AssocNo) (path : Nat)
  /-- A path idle for PROBE_US sends a PROBE. (R328) -/
  | idleProbe (a : AssocNo) (path : Nat)
  /-- After RTO_MIN_US the sender's engine resends a MSG answered BUSY. (R317) -/
  | msgBusyRetry (a : AssocNo) (reqId : BitVec 32)
  /-- A sub-port loses lock or reports a fault; its paths stop and their packets are queued for retransmission. (R316) -/
  | subPortDown (p : PortNo) (sub : Fin 8) (lane : Option (Fin 8))
  /-- A sub-port comes up and rejoins the path set, raising PORT_UP. (R316) -/
  | subPortUp (p : PortNo) (sub : Fin 8) (inv : BitVec 8) (order : BitVec 24)
  /-- A sub-port retraining attempt ends; after three failures it retries once a second. (R436) -/
  | subportRetrainEnd (p : PortNo) (sub : Fin 8) (ok : Bool)
  /-- A second passes and a down sub-port retries training. (R436) -/
  | subportRetryTimer (p : PortNo) (sub : Fin 8)
  /-- A HANDSHAKE packet of an association key exchange arrives and is verified and answered. (R399) -/
  | assocHandshake (a : AssocNo) (m : AssocHs) (reduced : Bool)
  /-- A peer has not answered an association open within 1 s and the open ends with GONE. (R325) -/
  | assocOpenTimeout (a : AssocNo)
  /-- Nothing is authenticated for ASSOC_TIMEOUT_MS; the association goes DOWN and its requests end with RESET. (R328) -/
  | assocTimeout (a : AssocNo)
  /-- A direction's counter reaches 2^40 and the direction rekeys. (R327) -/
  | counterRekey (a : AssocNo)
  /-- 1 ms or 4,096 packets under the new phase pass and the old receive key is dropped. (R327) -/
  | rxOldKeyExpire (a : AssocNo)
  /-- A migration copy pass ends and the next pass or the final hold begins. (R323) -/
  | migratePassDone (fail : Option Status)
  /-- In-flight requests drain, the last granules are copied and the entry is switched to the new target. (R323) -/
  | migrateComplete (fail : Option Status)
  /-- A ready word reaches EXPECT, or the previous run completes, and a collective run reaches order 1 on the device. (R341) -/
  | collRunStart (k : Fin 256)
  /-- Every DST element on a device is written and it signals, notifies and sends COLL_DONE. (R341) -/
  | collDeviceDone (k : Fin 256)
  /-- COLL_DATA elements arrive and are combined or written at their destination. (R340) -/
  | mioderCollData (r : MioReq)
  /-- A COLL_READY arrives and marks a participating device ready for the run. (R341) -/
  | mioderCollReady (r : CollReady)
  /-- A COLL_DONE arrives and, when it is the last, completes the run. (R341) -/
  | mioderCollDone (r : MioReq)
  /-- A COLL_ABORT arrives and ends the run on this device with its status. (R353) -/
  | mioderCollAbort (r : MioReq)
  /-- A COLL_GNS arrives with partial noise sums for the root's device. (R344) -/
  | mioderCollGns (r : MioReq)
  /-- TIMEOUT_MS passes without completion and the run ends with DEADLINE_MISS everywhere. (R353) -/
  | collTimeout (k : Fin 256)
  /-- A mapping's phase word reaches EXPECT and the transition runs its listed collectives. (R347) -/
  | phaseTransitionStart (m : Fin 16)
  /-- A device wholly receives a broadcast chunk, writes it and forwards it down the chain. (R351) -/
  | chainChunkReceived (k : Fin 256)
  /-- A chunk's digest check ends; a mismatch refetches it or ends the run with INTEGRITY. (R352) -/
  | chunkVerified (k : Fin 256) (chunk : Nat)
  /-- DISCOVER returns the device number and identity record. (R376) -/
  | discover (h : Hdr)
  /-- INVENTORY returns the Device descriptor and port status words. (R376) -/
  | inventory (h : Hdr)
  /-- UNIT_DESCRIBE returns a unit's descriptor, aggregating an Ensemble's members. (R27) -/
  | unitDescribe (h : Hdr) (unit : BitVec 48)
  /-- ENSEMBLE_DEFINE creates an Ensemble from a member list. (R34) -/
  | ensembleDefine (h : Hdr) (members : List (BitVec 48)) (tagValue : Option (BitVec 64))
  /-- ENSEMBLE_EDIT adds and removes members in one atomic change. (R34) -/
  | ensembleEdit (h : Hdr) (unit : BitVec 48) (members : List (BitVec 48)) (remove : List (BitVec 48))
  /-- ENSEMBLE_DELETE frees an Ensemble entry and its member slots. (R34) -/
  | ensembleDelete (h : Hdr) (unit : BitVec 48)
  /-- PRODUCTION_LOAD checks, claims Cores for and writes a signed Production. (R380) -/
  | productionLoad (h : Hdr) (addr : BitVec 64) (bytes : BitVec 64) (nq : Option QueueNo)
  /-- PRODUCTION_RUN writes 1 to RUN on the Production's IDLE or HALTED Cores. (R381) -/
  | productionRun (h : Hdr) (index : BitVec 32) (unit : Option (BitVec 48))
  /-- PRODUCTION_STOP writes 0 to RUN on the Production's running Cores. (R381) -/
  | productionStop (h : Hdr) (index : BitVec 32) (unit : Option (BitVec 48))
  /-- PRODUCTION_UNLOAD removes a Production's shards, Ensembles and collectives and releases its Cores. (R381) -/
  | productionUnload (h : Hdr) (index : BitVec 32)
  /-- PRODUCTION_LIST returns the loaded Productions. (R376) -/
  | productionList (h : Hdr)
  /-- SHARD_LOAD registers a shard record with a Conservator and its working buffers. (R234) -/
  | shardLoad (h : Hdr) (unitNo : BitVec 32) (addr : BitVec 64)
  /-- SHARD_RESUME with RETRY clears HALTED and sweeps the held gradient again. (R261) -/
  | shardResumeRetry (h : Hdr) (unitNo : BitVec 32) (index : BitVec 32)
  /-- SHARD_RESUME with DISCARD clears HALTED and applies the held gradient as a skip. (R261) -/
  | shardResumeDiscard (h : Hdr) (unitNo : BitVec 32) (index : BitVec 32)
  /-- SHARD_UNLOAD empties a shard entry and its window. (R234) -/
  | shardUnload (h : Hdr) (unitNo : BitVec 32) (index : BitVec 32)
  /-- SHARD_COMPARE queues a compare of master and working copy. (R234) -/
  | shardCompare (h : Hdr) (unitNo : BitVec 32) (index : BitVec 32)
  /-- ROOT_SUBMIT submits a job descriptor to a Troupe or gang. (R268) -/
  | rootSubmit (h : Hdr) (addr : BitVec 64) (priority : BitVec 8) (nq : Option QueueNo)
  /-- ROOT_CANCEL ends a queued job at once or a running job at its next boundary. (R288) -/
  | rootCancel (h : Hdr) (value : BitVec 64)
  /-- COLLECTIVE_POST copies a collective descriptor and its tables into the collective table. (R338) -/
  | collectivePost (h : Hdr) (addr : BitVec 64)
  /-- COLLECTIVE_RUN performs order 1 on this device. (R341) -/
  | collectiveRun (h : Hdr) (index : BitVec 32)
  /-- COLLECTIVE_CANCEL ends the running run with GONE. (R353) -/
  | collectiveCancel (h : Hdr) (index : BitVec 32)
  /-- COLLECTIVE_RELEASE frees a collective entry. (R356) -/
  | collectiveRelease (h : Hdr) (index : BitVec 32)
  /-- MAPPING_POST installs a mapping record in FORWARD. (R346) -/
  | mappingPost (h : Hdr) (index : BitVec 32) (addr : BitVec 64)
  /-- MAPPING_RELEASE frees a mapping outside a transition. (R356) -/
  | mappingRelease (h : Hdr) (index : BitVec 32)
  /-- MEM_READ returns up to 1,024 bytes of memory. (R377) -/
  | memRead (h : Hdr) (addr : BitVec 64) (bytes : BitVec 64)
  /-- MEM_WRITE writes up to 1,024 bytes of memory. (R377) -/
  | memWrite (h : Hdr) (addr : BitVec 64) (data : List Byte)
  /-- MEM_FILL fills a region with an 8-byte pattern through a result slot. (R377) -/
  | memFill (h : Hdr) (addr : BitVec 64) (bytes : BitVec 64) (value : BitVec 64) (nq : Option QueueNo)
  /-- REG_READ returns one register. (R377) -/
  | regRead (h : Hdr) (addr : BitVec 64)
  /-- REG_WRITE writes one register. (R377) -/
  | regWrite (h : Hdr) (addr : BitVec 64) (value : BitVec 64)
  /-- FABRIC_SET_ID sets the device number. (R324) -/
  | fabricSetId (h : Hdr) (device : BitVec 16)
  /-- PORT_CONFIGURE sets a port's mode and media settings and retrains it. (R300) -/
  | portConfigure (h : Hdr) (index : BitVec 32) (value : BitVec 64)
  /-- PORT_ADDRESS sets a sub-port's or the management lane's IP address. (R329) -/
  | portAddress (h : Hdr) (index : BitVec 32) (ip : List (BitVec 128))
  /-- ASSOC_OPEN opens an association with a peer device. (R325) -/
  | assocOpen (h : Hdr) (device : BitVec 16) (ip : List (BitVec 128)) (keyClass : BitVec 64) (nq : Option QueueNo)
  /-- ASSOC_CLOSE frees an association and ends its requests with RESET. (R329) -/
  | assocClose (h : Hdr) (index : BitVec 32)
  /-- ASSOC_REKEY rekeys an association's sending direction. (R327) -/
  | assocRekey (h : Hdr) (index : BitVec 32)
  /-- ASSOC_DESCRIBE returns an association entry, addresses and paths. (R329) -/
  | assocDescribe (h : Hdr) (index : BitVec 32)
  /-- ACCESSION_SET writes one Accession entry. (R321) -/
  | accessionSet (h : Hdr) (index : BitVec 32) (data : List Byte)
  /-- ACCESSION_CLEAR empties one Accession entry. (R329) -/
  | accessionClear (h : Hdr) (index : BitVec 32)
  /-- SEGMENT_MIGRATE starts moving a segment to a new device. (R323) -/
  | segmentMigrate (h : Hdr) (index : BitVec 32) (device : BitVec 16) (addr : BitVec 64) (nq : Option QueueNo)
  /-- ACCESSION_READ returns one Accession entry. (R329) -/
  | accessionRead (h : Hdr) (index : BitVec 32)
  /-- ATTEST returns a signed attestation report for the caller's nonce. (R401) -/
  | attest (h : Hdr) (nonce : List Byte) (options : BitVec 32)
  /-- SESSION_OPEN with INIT starts a session handshake and returns the signed RESP. (R398) -/
  | sessionOpenInit (h : Hdr) (init : List Byte)
  /-- SESSION_OPEN with FINISH verifies the client and opens the session. (R398) -/
  | sessionOpenFinish (h : Hdr) (hsId : BitVec 32) (signature : List Byte)
  /-- SESSION_CLOSE closes the session. (R366) -/
  | sessionClose (h : Hdr)
  /-- FOLIO_KEY checks a broker's wrap record and installs a Folio's content key. (R410) -/
  | folioKey (h : Hdr) (index : BitVec 32) (record : List Byte)
  /-- VAULT_ROTATE loads the next epoch key and starts the conversion sweep. (R414) -/
  | vaultRotate (h : Hdr)
  /-- HOST_MODE with ACTION 1 enters confidential host mode. (R415) -/
  | hostModeEnter (h : Hdr) (devices : List (BitVec 16))
  /-- HOST_MODE with ACTION 0 returns to normal host mode. (R415) -/
  | hostModeLeave (h : Hdr)
  /-- STORE_ATTACH connects to an NVMe-oF controller. (R382) -/
  | storeAttach (h : Hdr) (ip : BitVec 128) (l4Port : Option (BitVec 16)) (nqn : List Byte) (action : BitVec 8) (nq : Option QueueNo)
  /-- STORE_DETACH removes an attachment. (R382) -/
  | storeDetach (h : Hdr) (index : BitVec 32)
  /-- STORE_READ reads logical blocks into the Vault. (R382) -/
  | storeRead (h : Hdr) (index : BitVec 32) (nsid : BitVec 32) (lba : BitVec 64) (blocks : BitVec 32) (addr : BitVec 64) (nq : Option QueueNo)
  /-- STORE_WRITE writes Vault bytes to logical blocks. (R382) -/
  | storeWrite (h : Hdr) (index : BitVec 32) (nsid : BitVec 32) (lba : BitVec 64) (addr : BitVec 64) (bytes : BitVec 64) (nq : Option QueueNo)
  /-- A storage connection stays lost for 1 s and its commands end with GONE. (R382) -/
  | storeConnectionLost (attachment : Fin 16)
  /-- FOLIO_LOAD reads and verifies a Folio into the Vault. (R383) -/
  | folioLoad (h : Hdr) (index : BitVec 32) (nsid : BitVec 32) (lba : BitVec 64) (addr : BitVec 64) (options : BitVec 32) (nq : Option QueueNo)
  /-- FOLIO_UNLOAD zeroes a Folio's region and frees it. (R411) -/
  | folioUnload (h : Hdr) (index : BitVec 32)
  /-- Decryption of a Folio ends; it becomes OPEN and its key is erased. (R411) -/
  | folioDecryptDone (f : Fin 32)
  /-- CHECKPOINT_WRITE writes regions and shards as encrypted, signed chunks. (R384) -/
  | checkpointWrite (h : Hdr) (index : BitVec 32) (nsid : BitVec 32) (lba : BitVec 64) (addr : BitVec 64) (nq : Option QueueNo)
  /-- CHECKPOINT_RESTORE verifies a checkpoint and writes it back. (R384) -/
  | checkpointRestore (h : Hdr) (index : BitVec 32) (nsid : BitVec 32) (lba : BitVec 64) (nq : Option QueueNo)
  /-- NQ_CONFIGURE acts as a write of a queue's base word. (R377) -/
  | nqConfigure (h : Hdr) (index : BitVec 32) (value : BitVec 64)
  /-- NQ_READ returns NQ_TAIL and records from NQ_HEAD. (R376) -/
  | nqRead (h : Hdr) (index : BitVec 32) (bytes : BitVec 64)
  /-- NQ_ADVANCE acts as a write of NQ_HEAD. (R377) -/
  | nqAdvance (h : Hdr) (index : BitVec 32) (value : BitVec 64)
  /-- The NQ_FLUSH command acts as a write of 1 to NQ_FLUSH. (R377) -/
  | nqFlushCmd (h : Hdr) (index : BitVec 32)
  /-- NQ_ANNOUNCE sets a queue's announce address. (R377) -/
  | nqAnnounce (h : Hdr) (index : BitVec 32) (addr : BitVec 64)
  /-- RESULT_READ returns a result slot's state or outcome. (R373) -/
  | resultRead (h : Hdr) (slot : BitVec 16) (seq : BitVec 32)
  /-- RESULT_RELEASE frees a READY slot or abandons a PENDING one. (R374) -/
  | resultRelease (h : Hdr) (slot : BitVec 16) (seq : BitVec 32)
  /-- An asynchronous command ends and its slot becomes READY with a RESULT notice. (R372) -/
  | asyncCommandEnd (slot : Fin 1024) (env : ServiceOutcome)
  /-- A slot left READY for 600 s is freed. (R374) -/
  | resultSlotExpire (slot : Fin 1024)
  /-- POWER_CAP_SET sets the power cap. (R385) -/
  | powerCapSet (h : Hdr) (value : BitVec 64)
  /-- RAIL_LIMITS sets a Stage's rail voltage limits. (R385) -/
  | railLimits (h : Hdr) (unitNo : BitVec 32) (value : BitVec 64)
  /-- TELEMETRY_READ returns the telemetry record. (R386) -/
  | telemetryRead (h : Hdr)
  /-- TELEMETRY_STREAM starts or stops periodic telemetry writes. (R386) -/
  | telemetryStream (h : Hdr) (addr : BitVec 64) (value : BitVec 64)
  /-- A telemetry period expires and the record is written to its fabric address. (R386) -/
  | telemetryPeriod
  /-- RESET closes the doors of a scope, raises generations and resets the units covered. (R435) -/
  | reset (h : Hdr) (unit : BitVec 48) (options : BitVec 32)
  /-- Units in a reset scope quiesce and any wipe begins. (R434) -/
  | resetQuiesced (k : Nat)
  /-- A reset's wipe of Wings or Gallery ends. (R434) -/
  | wipeEnd (k : Nat)
  /-- A reset scope's door opens and its units leave reset. (R434) -/
  | doorOpen (k : Nat)
  /-- A reply carrying an old generation arrives, is discarded and completes the request with RESET. (R433) -/
  | replyDiscarded (c : CoreNo) (r : LateReply)
  /-- BRINGUP_STATUS returns the bring-up registers. (R443) -/
  | bringupStatus (h : Hdr)
  /-- CATALOGUE_READ returns entries of a Catalogue. (R427) -/
  | catalogueRead (h : Hdr) (index : BitVec 32) (first : Option (BitVec 64))
  /-- FIRMWARE_STAGE checks an image and writes it to the idle bank. (R440) -/
  | firmwareStage (h : Hdr) (addr : BitVec 64) (bytes : BitVec 64)
  /-- FIRMWARE_ACTIVATE restarts the Curator from the staged bank. (R441) -/
  | firmwareActivate (h : Hdr)
  /-- The new image is running; the bank flips and queued requests are served. (R441) -/
  | firmwareRunning
  /-- The new image is not running 1.5 s after restart and the Curator falls back to the previous bank. (R442) -/
  | fwFallback
  /-- CAL_READ returns the Calibration page as stored. (R462) -/
  | calRead (h : Hdr) (offset : Option (BitVec 64)) (bytes : Option (BitVec 64))
  /-- CAL_WRITE replaces the Calibration page in flash. (R462) -/
  | calWrite (h : Hdr) (data : List Byte)
  /-- REHEARSAL_ENTER puts the device in Rehearsal mode. (R378) -/
  | rehearsalEnter (h : Hdr)
  /-- REHEARSAL_LEAVE returns the device to Performance mode. (R378) -/
  | rehearsalLeave (h : Hdr)
  /-- ACCUM_READ returns an array's accumulator image. (R62) -/
  | accumRead (h : Hdr) (unit : BitVec 48) (index : BitVec 32)
  /-- REG_FORCE sets RO and RC fields in Rehearsal mode, acting as the field it is. (R378) -/
  | regForce (h : Hdr) (addr : BitVec 64) (value : BitVec 64)
  /-- CONDITION_CAPTURE writes a signed Condition report to flash. (R466) -/
  | conditionCapture (h : Hdr)
  /-- CONDITION_READ returns part of the Condition report. (R467) -/
  | conditionRead (h : Hdr) (offset : BitVec 64) (bytes : BitVec 64)
  /-- An incomplete fragmented request is dropped 100 ms after its first fragment. (R361) -/
  | cmdFragmentTimeout (h : Hdr)
  /-- A session with no authenticated packet for 300 s closes. (R366) -/
  | sessionIdleTimeout (session : BitVec 32)
  /-- A session counter reaches 2^40 and the session closes. (R400) -/
  | sessionCounterClose (session : BitVec 32)
  /-- A handshake is forgotten 5 s after its RESP. (R398) -/
  | handshakeExpire (hsId : BitVec 32)
  /-- Input power is in range with MOD_EN high, or MOD_RST_N is released, and bring-up begins. (R420) -/
  | coldStart (straps : BitVec 6)
  /-- A power-on phase ends and the next begins, or bring-up enters FAILED. (R420) -/
  | bringupPhaseEnd (e : PhaseEnd)
  /-- Input current settles and the next wave of four Troupes starts and runs its start tests. (R423) -/
  | troupeWaveStart (w : Fin 8) (failed : List Nat)
  /-- A Core fault is detected and the Curator chooses a free Understudy or darkens the Core. (R428) -/
  | coreFaultDetected (c : CoreNo) (f : CoreFault)
  /-- The Understudy has loaded the shadow state and replays the shadow log. (R104) -/
  | takeoverShadowLoaded (c : CoreNo) (shadowError : Bool)
  /-- The Understudy issues its first cue at SCENE_CP and the door releases held requests. (R428) -/
  | takeover (c : CoreNo) (interruptNs : BitVec 32)
  /-- An unengaged Understudy fails and leaves service. (R429) -/
  | understudyLost (t : TroupeNo) (b : Bool)
  /-- A Stage-network link fails and traffic moves to the second plane. (R437) -/
  | planeFailover (st : StageNo) (interruptNs : BitVec 32)
  /-- A Curator core misses four heartbeats and a sibling resumes its services. (R438) -/
  | curatorFailover (core : Fin 8) (interruptNs : BitVec 32)
  /-- A power-stage phase is lost and the rail's other phases carry the load. (R449) -/
  | phaseLost (rail : Fin 6) (phase : Fin 32)
  /-- MOD_EN is taken as low and every rail is removed. (R454) -/
  | modEnLow
  /-- MOD_RST_N held low keeps the rails up and holds every unit in reset. (R453) -/
  | modRstNLow
  /-- Input below 36 V or above 62 V for 100 µs removes every rail. (R447) -/
  | inputOutOfRange (high : Bool)
  /-- Input back in range for 1 s with MOD_EN high begins a new cold start. (R447) -/
  | inputRecovered (straps : BitVec 6)
  /-- A J1 blade is declared lost; the cap is held at 1,200 W and FAULT_N goes low. (R448) -/
  | bladeLost
  /-- Every 10 µs the governor measures power and temperature and moves the rails. (R385) -/
  | governorSample (g : PowerSample)
  /-- Every 10 ms the flow sensor is read, setting or clearing FLOW_LOW and its cap. (R458) -/
  | flowRead (mlPerMin : BitVec 16)
  /-- Flow stays below 1.0 L/min for 2 s and every rail is removed. (R458) -/
  | flowShutdown
  /-- A junction sensor reads 115 °C and the comparator removes every rail. (R459) -/
  | thermalTrip
  /-- A rail's remote-sense pair opens and it regulates at local sense. (R455) -/
  | remoteSenseOpen (rail : Fin 6)
  /-- A junction sensor opens and reads as 105 °C. (R455) -/
  | sensorOpen (sensor : Fin 16)
  /-- An ARR cue with ACC_KEEP accumulates its last product, keeps its accumulators and completes without a drain or check. (R90) -/
  | accumulatorsKept (c : CoreNo)
  /-- The Assembly stage reaches the end of a residual group or panel, where an outranking deadline job preempts the job it serves. (R286) -/
  | assemblyGroupEnd (t : TroupeNo)
  /-- A Conservator finishes folding a shard's factors, zeroes the statistics and submits the refresh's root jobs. (R253) -/
  | factorFoldDone (n : ConsNo)
  /-- A remote Ensemble member has not answered a descriptor read within 1 ms, contributes zero and sets UNREACHABLE. (R27) -/
  | describeMemberTimeout (job : Nat) (device : BitVec 16)
  /-- A command packet that fails the early checks is dropped and counted in CMD_DROPS, or is answered with BAD_PARAM or NO_SESSION. (R367) -/
  | commandPacketRejected (h : Hdr) (opcode : BitVec 16) (why : PacketDefect)
  /-- A Mioder packet that fails authentication, names an association that is not UP, or repeats a counter is dropped and counted; a request with a reserved OP is answered with BAD_PARAM. (R307) -/
  | mioderPacketDropped (a : RxAssoc) (why : MioDrop)
  /-- An open remote-sense pair of a rail is reconnected, and the rail returns to remote-sense regulation. (R455) -/
  | remoteSenseRestored (rail : Fin 6)
  /-- An open junction temperature sensor reads again, and the governor and trip comparator use it once more. (R455) -/
  | sensorRestored (sensor : Fin 16)
  /-- A NOP cue issues and does nothing. (R89) -/
  | nop (c : CoreNo)
  /-- A JUMP cue moves the cue pointer to TARGET. (R89) -/
  | jump (c : CoreNo)
  /-- A LOOP_SET cue loads a loop counter. (R93) -/
  | loopSet (c : CoreNo)
  /-- A LOOP_BRANCH cue decrements its counter and jumps to TARGET if the result is not zero. (R93) -/
  | loopBranch (c : CoreNo)
  /-- A SCENE cue issues once earlier cues are complete, latches the shadow state and starts copying it to the Understudy shadow. (R102) -/
  | scene (c : CoreNo)
  /-- A HALT cue halts the Prompter and records its CODE in HALT_CODE. (R89) -/
  | halt (c : CoreNo)
  /-- An AG_BASE cue sets a generator's base and mode and resets its indices. (R94) -/
  | agBase (c : CoreNo)
  /-- An AG_DIM cue sets a generator dimension's count and stride and resets that index. (R94) -/
  | agDim (c : CoreNo)
  /-- A TILE_SET cue rewrites a FREE tile descriptor's frame, side line, dimensions and tag. (R86) -/
  | tileSet (c : CoreNo)
  /-- A REG_SET cue writes VL for later VEC cues. (R145) -/
  | regSet (c : CoreNo)
  /-- The cue at the pointer is skipped on its flag, and its wait token is consumed. (R96) -/
  | cueSkip (c : CoreNo)
  /-- A SYN TAKE cue waits until a token holds at least N and subtracts N. (R92) -/
  | synTake (c : CoreNo)
  /-- A GIVE cue adds N to a token. (R92) -/
  | give (c : CoreNo)
  /-- A FENCE cue waits until every issued cue of the masked classes has completed. (R96) -/
  | fence (c : CoreNo)
  /-- A TILE_FREE cue returns the named tiles to FREE. (R86) -/
  | tileFree (c : CoreNo)
  /-- A TILE_READY cue marks FREE tiles RESIDENT with a stream-producer tag. (R86) -/
  | tileReady (c : CoreNo)
  /-- A FLAGS cue clears and sets Prompter flags. (R95) -/
  | flags (c : CoreNo)
  /-- An ARR cue in OS mode accumulates destination tiles from P and Q lines. (R117) -/
  | arrOs (c : CoreNo)
  /-- An ARR cue in OS_SQ mode accumulates two destination tiles that share the Q lines. (R117) -/
  | arrOsSq (c : CoreNo)
  /-- An ARR cue in OS_HELD mode holds the Q run in the operand store and replays it for every row block. (R117) -/
  | arrOsHeld (c : CoreNo)
  /-- An ARR cue in WS mode holds a stationary tile and turns each moving line into an output row. (R117) -/
  | arrWs (c : CoreNo)
  /-- An ARR cue in BWD_DUAL mode forms dX rows on array A and accumulates dW on array B from shared dY lines. (R117) -/
  | arrBwdDual (c : CoreNo)
  /-- The check unit compares a completed tile's accumulators with its checksum cells and passes it, recomputes it, or marks the Core suspect. (R73) -/
  | tileCheckVerdict (c : CoreNo) (a : ArrayId) (upset : Option Upset)
  /-- An array's drain ends and the destination tile becomes RESIDENT, completing the cue when it is the last. (R120) -/
  | arrDestinationResident (c : CoreNo) (a : ArrayId)
  /-- A queued WS or BWD_DUAL cue's stationary tile finishes loading into the shadow register. (R120) -/
  | stationaryPreloadDone (c : CoreNo) (a : ArrayId)
  /-- A GRM cue enables or disables the Gram taps of the named arrays and opens a new window. (R134) -/
  | grm (c : CoreNo)
  /-- A VEC CONVERT cue converts A to D_FMT. (R148) -/
  | vecConvert (c : CoreNo)
  /-- A VEC ADD cue writes A + B. (R148) -/
  | vecAdd (c : CoreNo)
  /-- A VEC SUB cue writes A − B. (R148) -/
  | vecSub (c : CoreNo)
  /-- A VEC MUL cue writes A × B. (R148) -/
  | vecMul (c : CoreNo)
  /-- A VEC FMAS cue writes A × IMM + B with one rounding. (R148) -/
  | vecFmas (c : CoreNo)
  /-- A VEC ADDS cue writes A + IMM. (R148) -/
  | vecAdds (c : CoreNo)
  /-- A VEC MULS cue writes A × IMM. (R148) -/
  | vecMuls (c : CoreNo)
  /-- A VEC MAX cue writes max(A, B). (R148) -/
  | vecMax (c : CoreNo)
  /-- A VEC MIN cue writes min(A, B). (R148) -/
  | vecMin (c : CoreNo)
  /-- A VEC ABS cue writes |A|. (R148) -/
  | vecAbs (c : CoreNo)
  /-- A VEC DIV cue writes A / B correctly rounded. (R148) -/
  | vecDiv (c : CoreNo)
  /-- A VEC RECIP cue writes 1 / A correctly rounded. (R148) -/
  | vecRecip (c : CoreNo)
  /-- A VEC SQRT cue writes √A correctly rounded. (R148) -/
  | vecSqrt (c : CoreNo)
  /-- A VEC RSQRT cue writes 1 / √A within 1 ulp. (R148) -/
  | vecRsqrt (c : CoreNo)
  /-- A VEC SUBR cue subtracts the line's broadcast B element. (R148) -/
  | vecSubr (c : CoreNo)
  /-- A VEC MULR cue multiplies by the line's broadcast B element. (R148) -/
  | vecMulr (c : CoreNo)
  /-- A VEC NORMR cue writes (A − B[l][0]) × B[l][1]. (R148) -/
  | vecNormr (c : CoreNo)
  /-- A VEC MULC cue multiplies by the column's B element. (R148) -/
  | vecMulc (c : CoreNo)
  /-- A VEC ADDC cue adds the column's B element. (R148) -/
  | vecAddc (c : CoreNo)
  /-- A VEC EXPSUBR cue writes exp(A − B[l][0]) with the empty-row rule. (R150) -/
  | vecExpsubr (c : CoreNo)
  /-- A VEC DIVR cue divides by the line's B element, giving zero for a zero divisor. (R150) -/
  | vecDivr (c : CoreNo)
  /-- A VEC FUNC cue evaluates a function table slot on A. (R128) -/
  | vecFunc (c : CueStore)
  /-- A VEC DERIV cue forms g × f′ by the table path or the formula path. (R131) -/
  | vecDeriv (c : CoreNo)
  /-- A VEC PERMUTE cue permutes or blends A and B by the index register. (R153) -/
  | vecPermute (c : CoreNo)
  /-- A VEC SHUFFLE cue rotates, reverses or butterflies each line of A. (R153) -/
  | vecShuffle (c : CoreNo)
  /-- A VEC PACK_EVEN cue packs the even elements of A and B. (R148) -/
  | vecPackEven (c : CoreNo)
  /-- A VEC PACK_ODD cue packs the odd elements of A and B. (R148) -/
  | vecPackOdd (c : CoreNo)
  /-- A VEC UNPACK_LO cue interleaves the low halves of A and B. (R148) -/
  | vecUnpackLo (c : CoreNo)
  /-- A VEC UNPACK_HI cue interleaves the high halves of A and B. (R148) -/
  | vecUnpackHi (c : CoreNo)
  /-- A VEC IDX_LOAD cue loads the index register from line 0 of an INT8 tile. (R153) -/
  | vecIdxLoad (c : CoreNo)
  /-- A VEC FREQ_LOAD cue loads the frequency register from an FP32 tile. (R158) -/
  | vecFreqLoad (c : CoreNo)
  /-- A VEC RSUM cue writes each row's sum in the fixed tree order. (R155) -/
  | vecRsum (c : CoreNo)
  /-- A VEC RSUMSQ cue writes each row's sum of squares. (R155) -/
  | vecRsumsq (c : CoreNo)
  /-- A VEC RMAX cue writes each row's maximum. (R155) -/
  | vecRmax (c : CoreNo)
  /-- A VEC RMIN cue writes each row's minimum. (R155) -/
  | vecRmin (c : CoreNo)
  /-- A VEC RAMAX cue writes each row's largest magnitude. (R155) -/
  | vecRamax (c : CoreNo)
  /-- A VEC RDOT cue writes each row's dot product of A and B. (R155) -/
  | vecRdot (c : CoreNo)
  /-- A VEC RSTATS cue writes each row's mean and inverse deviation in two passes. (R155) -/
  | vecRstats (c : CoreNo)
  /-- A VEC RRMS cue writes each row's inverse root mean square. (R155) -/
  | vecRrms (c : CoreNo)
  /-- A VEC MASK cue writes −∞ at causally or window-masked positions. (R157) -/
  | vecMask (c : CoreNo)
  /-- A VEC ROTARY cue rotates element pairs by position times frequency. (R158) -/
  | vecRotary (c : CoreNo)
  /-- A VEC TOPK cue writes the k best values and their positions of each row. (R162) -/
  | vecTopk (c : CoreNo)
  /-- A VEC SPLIT cue splits an FP64 tile into seven SLICE8 tiles and exponents. (R159) -/
  | vecSplit (c : CoreNo)
  /-- A VEC JOIN cue recombines seven slice sums into an FP64 tile. (R159) -/
  | vecJoin (c : CoreNo)
deriving DecidableEq, Repr

end Sys2Proof
end

