-- ==== Sys2Proof/Config.lean ====
section
/-! DEFINITION. What the spec leaves open or fixes outside the model: opaque functions without a body, so that nothing can be
proved of their values. Random sources are applied to the model's counter of draws. Floating values pass as FP64 or FP32 codes. -/

namespace Sys2Proof.Config

/-! ## Random sources (R53, R55, R392, R397; DESIGN CHOICE, safe: log entries 5, 31) -/

/-- Word `i` of the entropy sources. -/
opaque entropy : Nat → BitVec 64
/-- Bytes of the secrets' source: nonces and session values. -/
opaque secretBytes : Nat → List Byte

/-! ## Geometry and codes the spec does not give (DESIGN CHOICE, safe: log entries 36, 37) -/

/-- Bank of a Gallery die offset; taken modulo 512 (R205). -/
opaque galleryBank : Nat → Nat
/-- Row in its bank of a Gallery die offset (R205). -/
opaque galleryRow : Nat → Nat

/-- The two check symbols of 16 data symbols of a Vault codeword: the generator of its Reed-Solomon code is not given (R210). -/
opaque checkSymbols : List (BitVec 8) → List (BitVec 8)

/-! ## Recovery (R107; DESIGN CHOICE, safe: log entry 27) -/

/-- Status of a suppressed effect whose first attempt had none yet when the Core failed. -/
opaque lostEffectStatus : Nat → Status

/-! ## Arrays (R72, R101, R136 to R138; DESIGN CHOICE, safe: log entries 13, 21, 26) -/

/-- FP32 code of a feeder's sum of FP32 codes: the order of summation is open. -/
opaque feederSum : List Nat → Nat
/-- FP32 code of a Gram tap's sum of products of BF16 values given as FP32 codes: the order of summation is open. -/
opaque gramDot : List (Nat × Nat) → Nat
/-- Steps of a hold fill run at an interruption, by the model's counter and array; taken modulo what remains (R101). -/
opaque holdSteps : Nat → Nat → Nat
/-- Steps an ARR cue's array was held by its tap (R138). -/
opaque tapHold : Nat → Nat

/-! ## Vector engine (DESIGN CHOICE, safe: log entries 14, 15, 21, 68) -/

/-- Which neighbour of an inverse square root is taken, for the FP64 code of its operand (R148: within 1 ulp). -/
opaque rsqrtPick : Nat → Nat
/-- FP32 code of a result the spec only bounds: the place that asks, the code of its argument (R129, R132, R158). -/
opaque bounded : Nat → Nat → Nat
/-- Which product of a rotation is left unrounded before the sum: 1, 2, or neither; taken modulo 3 (R158). -/
opaque rotaryForm : Nat
/-- Word i of slot s of the standard tables as the firmware holds them, where R129 does not fix it (R125, R129). -/
opaque firmwareTable : Nat → Nat → BitVec 64
/-- The mark, below 2^14, of a split line that holds NaN or infinity (R66, R71). -/
opaque nanExp : Nat
/-- Slices of such a line. -/
opaque nanSlice : Nat → Nat
/-- Steps of a VEC cue whose rate Wings set (R143, R164). -/
opaque wingsBound : Nat → Nat

/-! ## Root engines (R267 to R278): every sum runs in an order the spec does not give; methods it names without their steps
(DESIGN CHOICE, safe: log entries 21, 38, 40, 42, 45) -/

/-- The order of a sum (R267): format, operation, order and gang size; the codes of its start and of its products' factors. -/
opaque sumOrder : List Nat → Nat → List (Nat × Nat) → Nat
/-- By which operations c^(−1/p) is formed. -/
opaque rootForm : Nat
/-- Rows of R of a QR factorisation of A (m, n), before pivots are replaced. -/
opaque qrR : List Nat → Nat → Nat → List Nat → List Nat
/-- The least-squares solution from a QR factorisation: m, n, right-hand sides, A, B, the pivot threshold. -/
opaque qrX : List Nat → Nat → Nat → Nat → List Nat → List Nat → Nat → List Nat
/-- Eigenvectors, row-major, one a column, in the order of `eigValues`. -/
opaque eigVectors : List Nat → Nat → List Nat → List Nat
/-- Eigenvalues, in any order. -/
opaque eigValues : List Nat → Nat → List Nat → List Nat
/-- QR sweeps of an eigenvalue job. -/
opaque eigSweeps : List Nat → Nat → List Nat → Nat
/-- Iterate k of PCG: preconditioner, its blocks' inverses, A, b, the start. -/
opaque pcgIterate : List Nat → Nat → List (List Nat) → List Nat → List Nat → List Nat → Nat → List Nat
/-- Iterate k of LSQR: δ, the rows of J as (unknown, code), r, the start. -/
opaque lsqrIterate : Nat → List (List (Nat × Nat)) → List Nat → List Nat → Nat → List Nat
/-- The inner solve of a step by PCG with block Jacobi: the blocks' inverses, A and b. -/
opaque innerPcg : List (List Nat) → List Nat → List Nat → List Nat
/-- Matrix-unit steps of an iteration or panel (R295), of a block of a pass (R263). -/
opaque matrixSteps : Nat → Nat
/-- Draw i of a Conservator's stochastic rounding, below 2^16 by its low bits (R258 gives no source). -/
opaque workDraw : Nat → Nat → Nat
/-- Byte i read from another device's memory at a fabric address. -/
opaque remoteByte : Nat → Nat → Nat → BitVec 8
/-- The residual a GN or LM record shows before its first evaluation. -/
opaque unevaluated : BitVec 64

/-- The smoothed round trip after a sample (R312; no formula is given). -/
opaque smooth : Nat → Nat → Nat

/-! ## Digests, keys, signatures (R392 to R411; DESIGN CHOICE, safe: log entries 54, 57, 63, 64, 66) -/

/-- SHA3-512. -/
opaque sha3 : List (BitVec 8) → List (BitVec 8)
/-- SHAKE256, so many bytes of its output. -/
opaque shake256 : List (BitVec 8) → Nat → List (BitVec 8)
/-- AES-256 of one 16-byte block under a key. -/
opaque aes256 : List (BitVec 8) → List (BitVec 8) → List (BitVec 8)
/-- AES-256-GCM under a key and an IV: the ciphertext and its 16-byte tag; and back, where the tag holds. -/
opaque gcmSeal : List (BitVec 8) → List (BitVec 8) → List (BitVec 8) → List (BitVec 8) × List (BitVec 8)
opaque gcmOpen : List (BitVec 8) → List (BitVec 8) → List (BitVec 8) → List (BitVec 8) → Option (List (BitVec 8))
/-- AES key unwrap under a key-encryption key. -/
opaque keyUnwrap : List (BitVec 8) → List (BitVec 8) → Option (List (BitVec 8))
/-- The two fused values. -/
opaque deviceSecret : List (BitVec 8)
opaque memoryRootKey : List (BitVec 8)
/-- ML-DSA-87: the public key of a seed, a signature by a seed over a digest, the verdict on a signature. -/
opaque dsaPublic : List (BitVec 8) → List (BitVec 8)
opaque dsaSign : List (BitVec 8) → List (BitVec 8) → List (BitVec 8)
opaque dsaVerify : List (BitVec 8) → List (BitVec 8) → List (BitVec 8) → Bool
/-- ML-KEM-1024: the public key of a seed, encapsulation with 32 random bytes (ciphertext, secret), decapsulation by a seed. -/
opaque kemPublic : List (BitVec 8) → List (BitVec 8)
opaque kemEncap : List (BitVec 8) → List (BitVec 8) → List (BitVec 8) × List (BitVec 8)
opaque kemDecap : List (BitVec 8) → List (BitVec 8) → Option (List (BitVec 8))
/-- The certificate chain of this device; the public key a chain certifies, where it verifies up to Sirmar's root. -/
opaque deviceChain : List (BitVec 8)
opaque chainKey : List (BitVec 8) → Option (List (BitVec 8))
/-- Sirmar's firmware key. -/
opaque firmwareKey : List (BitVec 8)
/-- What a firmware image says of itself: none where it is malformed; else its security version, the digest signed, its signature. -/
opaque firmwareImage : List (BitVec 8) → Option (BitVec 32 × List (BitVec 8) × List (BitVec 8))
/-- Code of the status that a firmware fallback reports (R442 names none), by the model's counter. -/
opaque fwFallbackStatus : Nat → Status
/-- The module's base MAC address, from the module Catalogue record (R299). -/
opaque macBase : BitVec 48
/-- Digests of the boot stages that run, by the running bank's image; CBOR of numbered claims; the COSE_Sign1 structure over a payload. -/
opaque bootDigests : List (BitVec 8) → List (BitVec 8)
opaque cbor : List (Nat × List (BitVec 8)) → List (BitVec 8)
opaque cose : List (BitVec 8) → List (BitVec 8) → List (BitVec 8)
/-- The identity record that DISCOVER returns, for the device's identity public key (R376; no layout is given). -/
opaque identityRecord : List (BitVec 8) → List (BitVec 8)
/-- The sections of a Condition report, as the phases reached allow (R466; no layout is given), by the model's counter. -/
opaque conditionSections : List (List (BitVec 8)) → Nat → List (BitVec 8)

/-! ## Collectives (R344, R353; DESIGN CHOICE, safe: log entries 13, 46, 50, 56) -/

/-- The term taken at a step of a sum whose order is open: what the sum is of, the step. -/
opaque pickTerm : Nat → Nat → Nat
/-- How an access to another device's memory ends: its fabric address, the seed. -/
opaque remoteEnd : Nat → Nat → Nat
/-- Bytes of a path triple as ASSOC_DESCRIBE returns it: sub-port, address index, source port (R376; no layout is given). -/
opaque pathTriple : Nat → Nat → Nat → List (BitVec 8)
/-- The namespace of an attached controller has 4 KiB logical blocks, not 512-byte ones (R382: the controller says which). -/
opaque bigBlocks : List (BitVec 8) → BitVec 32 → Bool
/-- Byte i of memory whose contents are undefined (R353). -/
opaque undefinedByte : Nat → Nat → BitVec 8

end Sys2Proof.Config
end

