-- ==== Sys2Proof/Machine/Bits.lean ====
section
/-! DEFINITION. Bit fields, byte orders and small arithmetic on numbers (R10, R11). -/

namespace Sys2Proof.Machine

/-- Bits [hi:lo] of a number (R10). -/
def bitsOf (v hi lo : Nat) : Nat := v / 2 ^ lo % 2 ^ (hi + 1 - lo)

/-- Bit `i` of a number. -/
def bitOf (v i : Nat) : Bool := v / 2 ^ i % 2 == 1

/-- A field of a word: bits [hi:lo]. -/
def fld {n : Nat} (w : BitVec n) (hi lo : Nat) : Nat := bitsOf w.toNat hi lo

/-- A truth value as a bit. -/
def bit (b : Bool) : Nat := if b then 1 else 0

/-- Fields laid into a word: (low bit, width, value), later fields on top of zero bits. -/
def pack : List (Nat × Nat × Nat) → Nat
  | [] => 0
  | (lo, w, v) :: t => (v % 2 ^ w) * 2 ^ lo + pack t

/-- A word with bits [hi:lo] replaced. -/
def setBits (v hi lo x : Nat) : Nat :=
  v - bitsOf v hi lo * 2 ^ lo + (x % 2 ^ (hi + 1 - lo)) * 2 ^ lo

/-- `n` bytes, little-endian (R11). -/
def leBytes : Nat → Nat → List Byte
  | 0, _ => []
  | n + 1, v => BitVec.ofNat 8 v :: leBytes n (v / 256)

/-- The value of little-endian bytes. -/
def ofLe : List Byte → Nat
  | [] => 0
  | b :: t => b.toNat + 256 * ofLe t

/-- `n` bytes, big-endian: the header rule (R11). -/
def beBytes (n v : Nat) : List Byte := (leBytes n v).reverse

/-- The value of big-endian bytes. -/
def ofBe (l : List Byte) : Nat := ofLe l.reverse

/-- The low `n` bits of a number read as two's complement. -/
def sext (n v : Nat) : Int :=
  let m := v % 2 ^ n
  if m < 2 ^ (n - 1) then (m : Int) else (m : Int) - ((2 ^ n : Nat) : Int)

/-- An integer as `n` bits of two's complement. -/
def wrapInt (n : Nat) (i : Int) : Nat := (i % ((2 ^ n : Nat) : Int)).toNat

/-- `a + b` held at a bound. -/
def satAdd (bound a b : Nat) : Nat := if a + b ≤ bound then a + b else bound

/-- A counter of `n` bits that saturates at all ones. -/
def satInc {n : Nat} (v : BitVec n) (k : Nat := 1) : BitVec n := BitVec.ofNat n (satAdd (2 ^ n - 1) v.toNat k)

/-- Number of ones among the low `n` bits. -/
def popCount : Nat → Nat → Nat
  | 0, _ => 0
  | n + 1, v => v % 2 + popCount n (v / 2)

/-- Indexes of the ones among the low `n` bits, ascending. -/
def onesOf (n v : Nat) : List Nat := (List.range n).filter (bitOf v)

/-- A list cut or zero-extended to `n` bytes. -/
def fitBytes (n : Nat) (l : List Byte) : List Byte := l.take n ++ List.replicate (n - l.length) 0

/-- Bytes in groups of `k`; the last may be short. `n` bounds the number of groups. -/
def chunksOf : Nat → Nat → List Byte → List (List Byte)
  | 0, _, _ => []
  | n + 1, k, l => if l.isEmpty then [] else l.take k :: chunksOf n k (l.drop k)

/-- Ceiling of a quotient. -/
def ceilDiv (a b : Nat) : Nat := (a + b - 1) / b

/-- A number rounded up to a multiple. -/
def roundUp (a b : Nat) : Nat := ceilDiv a b * b

/-- The entry at a place of a list, or a default. -/
def nth {α : Type} (d : α) : List α → Nat → α
  | [], _ => d
  | x :: _, 0 => x
  | _ :: t, n + 1 => nth d t n

/-- A list with one place replaced (unchanged past its end). -/
def setNth {α : Type} : List α → Nat → α → List α
  | [], _, _ => []
  | _ :: t, 0, x => x :: t
  | y :: t, n + 1, x => y :: setNth t n x

/-- Elements of the first list that are not in the second. -/
def without (l r : List Nat) : List Nat := l.filter (fun x => !r.contains x)

/-- No element occurs twice. -/
def noRepeats : List Nat → Bool
  | [] => true
  | x :: t => !t.contains x && noRepeats t

/-- Distinct elements, first occurrences kept in order. -/
def dedup : List Nat → List Nat
  | [] => []
  | x :: t => x :: (dedup t).filter (fun y => y != x)

end Sys2Proof.Machine
end

