-- ==== Sys2Proof/Machine/Float.lean ====
section
/-! DEFINITION. Number formats, rounding and conversion (R43 to R52, R56): exact dyadic values, one rounding at the end.
Log entry with the readings and choices that are the model's: 13. -/

namespace Sys2Proof.Machine

/-- An exact value: NaN, a signed infinity, or (−1)^neg · m · 2^e. -/
inductive FVal where
  | nan
  | inf (neg : Bool)
  | fin (neg : Bool) (m : Nat) (e : Int)
deriving DecidableEq, Repr

/-- A floating layout (R44): width, significand bits, bias, largest finite code, the codes of infinity and NaN if any. -/
structure FLayout where
  width : Nat
  mbits : Nat
  bias  : Int
  maxCode : Nat
  infCode : Option Nat
  nanCode : Option Nat
deriving DecidableEq, Repr

def fp64 : FLayout := { width := 64, mbits := 52, bias := 1023, maxCode := 0x7FEFFFFFFFFFFFFF, infCode := some 0x7FF0000000000000, nanCode := some 0x7FF8000000000000 }
def fp32 : FLayout := { width := 32, mbits := 23, bias := 127, maxCode := 0x7F7FFFFF, infCode := some 0x7F800000, nanCode := some 0x7FC00000 }
def bf16 : FLayout := { width := 16, mbits := 7, bias := 127, maxCode := 0x7F7F, infCode := some 0x7F80, nanCode := some 0x7FC0 }
def fp16 : FLayout := { width := 16, mbits := 10, bias := 15, maxCode := 0x7BFF, infCode := some 0x7C00, nanCode := some 0x7E00 }
def e5m2 : FLayout := { width := 8, mbits := 2, bias := 15, maxCode := 0x7B, infCode := some 0x7C, nanCode := some 0x7E }
def e4m3 : FLayout := { width := 8, mbits := 3, bias := 7, maxCode := 0x7E, infCode := none, nanCode := some 0x7F }
def e3m2 : FLayout := { width := 6, mbits := 2, bias := 3, maxCode := 0x1F, infCode := none, nanCode := none }
def e2m3 : FLayout := { width := 6, mbits := 3, bias := 1, maxCode := 0x1F, infCode := none, nanCode := none }
def e2m1 : FLayout := { width := 4, mbits := 1, bias := 1, maxCode := 0x7, infCode := none, nanCode := none }

/-- Exponent of a layout's subnormal spacing. -/
def FLayout.qmin (f : FLayout) : Int := 1 - f.bias - f.mbits

/-- A format of *Format codes* (R43). -/
inductive Fmt where
  | fp32 | bf16 | fp16 | e4m3 | e5m2 | mxE4m3 | mxE5m2 | mxE3m2 | mxE2m3 | mxE2m1 | int8 | int32 | fp64 | slice8
deriving DecidableEq, Repr

/-- The format of a code; 0xE and 0xF are reserved (R43). -/
def Fmt.ofCode : Nat → Option Fmt
  | 0 => some .fp32 | 1 => some .bf16 | 2 => some .fp16 | 3 => some .e4m3 | 4 => some .e5m2 | 5 => some .mxE4m3
  | 6 => some .mxE5m2 | 7 => some .mxE3m2 | 8 => some .mxE2m3 | 9 => some .mxE2m1 | 10 => some .int8
  | 11 => some .int32 | 12 => some .fp64 | 13 => some .slice8 | _ => none

/-- The code of a format (R43). -/
def Fmt.code : Fmt → Nat
  | .fp32 => 0 | .bf16 => 1 | .fp16 => 2 | .e4m3 => 3 | .e5m2 => 4 | .mxE4m3 => 5 | .mxE5m2 => 6 | .mxE3m2 => 7
  | .mxE2m3 => 8 | .mxE2m1 => 9 | .int8 => 10 | .int32 => 11 | .fp64 => 12 | .slice8 => 13

/-- The layout of a floating format or of an MX format's elements; none for the integers (R43, R44). -/
def Fmt.layout : Fmt → Option FLayout
  | .fp32 => some Machine.fp32 | .bf16 => some Machine.bf16 | .fp16 => some Machine.fp16 | .e4m3 => some Machine.e4m3
  | .e5m2 => some Machine.e5m2 | .mxE4m3 => some Machine.e4m3 | .mxE5m2 => some Machine.e5m2 | .mxE3m2 => some Machine.e3m2
  | .mxE2m3 => some Machine.e2m3 | .mxE2m1 => some Machine.e2m1 | .fp64 => some Machine.fp64
  | .int8 => none | .int32 => none | .slice8 => none

/-- Bits of one element (R43). -/
def Fmt.bits : Fmt → Nat
  | .fp32 => 32 | .bf16 => 16 | .fp16 => 16 | .e4m3 => 8 | .e5m2 => 8 | .mxE4m3 => 8 | .mxE5m2 => 8 | .mxE3m2 => 6
  | .mxE2m3 => 6 | .mxE2m1 => 4 | .int8 => 8 | .int32 => 32 | .fp64 => 64 | .slice8 => 8

/-- A microscaling format. -/
def Fmt.isMx : Fmt → Bool
  | .mxE4m3 => true | .mxE5m2 => true | .mxE3m2 => true | .mxE2m3 => true | .mxE2m1 => true | _ => false

/-- A two's complement format. -/
def Fmt.isInt : Fmt → Bool
  | .int8 => true | .int32 => true | .slice8 => true | _ => false

/-- `emax` of an MX element format (R49). -/
def Fmt.emax : Fmt → Int
  | .mxE4m3 => 8 | .mxE5m2 => 15 | .mxE3m2 => 4 | .mxE2m3 => 2 | .mxE2m1 => 2 | _ => 0

/-! ## Exact arithmetic -/

/-- Zero. -/
def FVal.zero : FVal := .fin false 0 0

/-- An integer as a value. -/
def FVal.ofInt (i : Int) : FVal := .fin (decide (i < 0)) i.natAbs 0

def FVal.neg : FVal → FVal
  | .nan => .nan
  | .inf s => .inf (!s)
  | .fin s m e => .fin (!s) m e

def FVal.abs : FVal → FVal
  | .nan => .nan
  | .inf _ => .inf false
  | .fin _ m e => .fin false m e

def FVal.isNan : FVal → Bool
  | .nan => true
  | _ => false

def FVal.isInf : FVal → Bool
  | .inf _ => true
  | _ => false

def FVal.isFin : FVal → Bool
  | .fin _ _ _ => true
  | _ => false

def FVal.isZero : FVal → Bool
  | .fin _ m _ => m == 0
  | _ => false

/-- The sign bit; NaN is positive (R46). -/
def FVal.sign : FVal → Bool
  | .nan => false
  | .inf s => s
  | .fin s _ _ => s

/-- m · 2^d for a d that is not negative. -/
def shlInt (m : Nat) (d : Int) : Nat := m * 2 ^ d.toNat

/-- ⌊m · 2^d⌋. -/
def scaleFloor (m : Nat) (d : Int) : Nat := if 0 ≤ d then m * 2 ^ d.toNat else m / 2 ^ (-d).toNat

/-- A signed significand. -/
def signed (s : Bool) (m : Nat) : Int := if s then -(m : Int) else m

/-- Exact sum of two finite values; an exact zero sum is +0 unless both terms are −0 (R45). -/
def addFin (s1 : Bool) (m1 : Nat) (e1 : Int) (s2 : Bool) (m2 : Nat) (e2 : Int) : FVal :=
  let e := min e1 e2
  let v := signed s1 (shlInt m1 (e1 - e)) + signed s2 (shlInt m2 (e2 - e))
  if v = 0 then .fin (s1 && s2 && m1 == 0 && m2 == 0) 0 0 else .fin (decide (v < 0)) v.natAbs e

/-- Exact sum. -/
def FVal.add : FVal → FVal → FVal
  | .nan, _ => .nan
  | _, .nan => .nan
  | .inf s, .inf t => if s == t then .inf s else .nan
  | .inf s, .fin _ _ _ => .inf s
  | .fin _ _ _, .inf t => .inf t
  | .fin s1 m1 e1, .fin s2 m2 e2 => addFin s1 m1 e1 s2 m2 e2

/-- Exact difference. -/
def FVal.sub (a b : FVal) : FVal := a.add b.neg

/-- Exact product. -/
def FVal.mul : FVal → FVal → FVal
  | .nan, _ => .nan
  | _, .nan => .nan
  | .inf s, .inf t => .inf (s != t)
  | .inf s, .fin t m _ => if m = 0 then .nan else .inf (s != t)
  | .fin s m _, .inf t => if m = 0 then .nan else .inf (s != t)
  | .fin s1 m1 e1, .fin s2 m2 e2 => .fin (s1 != s2) (m1 * m2) (e1 + e2)

/-- A value scaled by a power of two. -/
def FVal.scale (a : FVal) (k : Int) : FVal :=
  match a with
  | .fin s m e => .fin s m (e + k)
  | v => v

/-- ⌊log2 |x|⌋ of a nonzero finite value. -/
def FVal.exponent : FVal → Int
  | .fin _ m e => (Nat.log2 m : Int) + e
  | _ => 0

/-- Quotient of finite nonzero values, correct for every rounding to at most 60 significand bits: an inexact quotient keeps
a sticky low bit. -/
def divFin (s1 : Bool) (m1 : Nat) (e1 : Int) (s2 : Bool) (m2 : Nat) (e2 : Int) : FVal :=
  let k := Nat.log2 m2 + 70
  let n := m1 * 2 ^ k
  let q := n / m2
  .fin (s1 != s2) (2 * q + (if n % m2 = 0 then 0 else 1)) (e1 - e2 - k - 1)

/-- Quotient: 0/0 and ∞/∞ are NaN, x/0 is infinite, x/∞ is zero. -/
def FVal.div : FVal → FVal → FVal
  | .nan, _ => .nan
  | _, .nan => .nan
  | .inf _, .inf _ => .nan
  | .inf s, .fin t _ _ => .inf (s != t)
  | .fin s _ _, .inf t => .fin (s != t) 0 0
  | .fin s1 m1 e1, .fin s2 m2 e2 =>
    if m2 = 0 then (if m1 = 0 then .nan else .inf (s1 != s2))
    else if m1 = 0 then .fin (s1 != s2) 0 0
    else divFin s1 m1 e1 s2 m2 e2

/-- Integer square root by bits, from bit `n - 1` down. -/
def isqrtGo : Nat → Nat → Nat → Nat
  | 0, _, r => r
  | n + 1, x, r => if (r + 2 ^ n) * (r + 2 ^ n) ≤ x then isqrtGo n x (r + 2 ^ n) else isqrtGo n x r

/-- ⌊√x⌋. -/
def isqrt (x : Nat) : Nat := isqrtGo (Nat.log2 x / 2 + 1) x 0

/-- Square root with a sticky low bit: −0 gives −0, a negative value NaN. -/
def FVal.sqrt : FVal → FVal
  | .nan => .nan
  | .inf s => if s then .nan else .inf false
  | .fin s m e =>
    if m = 0 then .fin s 0 0
    else if s then .nan
    else
      let odd : Bool := e % 2 != 0
      let m' := (if odd then 2 * m else m) * 2 ^ 140
      let e' := (if odd then e - 1 else e) - 140
      let r := isqrt m'
      .fin false (2 * r + (if r * r = m' then 0 else 1)) (e' / 2 - 1)

/-- ⌊log2⌋-safe inverse square root of m · 2^e truncated to many bits, with a sticky low bit. -/
def rsqrtFin (m : Nat) (e : Int) : FVal :=
  let odd : Bool := e % 2 != 0
  let m' := if odd then 2 * m else m
  let e' := if odd then e - 1 else e
  let k := Nat.log2 m' + 80
  let n := 2 ^ (2 * k)
  let r := isqrt (n / m')
  .fin false (2 * r + (if r * r * m' = n then 0 else 1)) (-(e' / 2) - k - 1)

/-- Order of two values that are not NaN; zeros are equal. -/
def FVal.lt (a b : FVal) : Bool :=
  match a, b with
  | .nan, _ => false
  | _, .nan => false
  | .inf s, .inf t => s && !t
  | .inf s, .fin _ _ _ => s
  | .fin _ _ _, .inf t => !t
  | .fin s1 m1 e1, .fin s2 m2 e2 =>
    let e := min e1 e2
    decide (signed s1 (shlInt m1 (e1 - e)) < signed s2 (shlInt m2 (e2 - e)))

/-! ## Rounding (R51, R52) -/

/-- m · 2^(−d) to the nearest integer, ties to even. -/
def roundNE (m : Nat) (d : Int) : Nat :=
  if d ≤ 0 then m * 2 ^ (-d).toNat
  else
    let p := 2 ^ d.toNat
    let q := m / p
    let r := m % p
    if 2 * r > p ∨ (2 * r = p ∧ q % 2 = 1) then q + 1 else q

/-- The magnitude code of m · 2^e in a layout, before saturation: round-to-nearest-even, or, with a draw, stochastic (R52). -/
def roundCode (f : FLayout) (draw : Option Nat) (m : Nat) (e : Int) : Nat :=
  if m = 0 then 0
  else
    let qe := max ((Nat.log2 m : Int) + e - f.mbits) f.qmin
    let k := match draw with
      | none => roundNE m (qe - e)
      | some u => (scaleFloor m (e - qe + 16) + u) / 65536
    (qe - f.qmin).toNat * 2 ^ f.mbits + k

/-- What becomes of a magnitude past the largest finite value: infinity, or the largest finite value (R56, R65). -/
inductive Over where
  | toInf | toMax
deriving DecidableEq, Repr

/-- A converted element: its code, whether it saturated, whether the result counts as non-finite (R56, R63). -/
structure Conv where
  code : Nat
  sat  : Bool := false
  nonfinite : Bool := false
deriving DecidableEq, Repr

/-- The sign bit of a layout. -/
def FLayout.signBit (f : FLayout) (s : Bool) : Nat := if s then 2 ^ (f.width - 1) else 0

/-- Conversion to a floating layout (R56). -/
def FVal.toLayout (f : FLayout) (o : Over) (draw : Option Nat) : FVal → Conv
  | .nan => { code := f.nanCode.getD 0, nonfinite := true }
  | .inf s =>
    match o, f.infCode with
    | .toInf, some i => { code := f.signBit s + i, nonfinite := true }
    | _, _ => { code := f.signBit s + f.maxCode, sat := true }
  | .fin s m e =>
    let c := roundCode f draw m e
    if c ≤ f.maxCode then { code := f.signBit s + c }
    else match o, f.infCode with
      | .toInf, some i => { code := f.signBit s + i, nonfinite := true }
      | _, _ => { code := f.signBit s + f.maxCode, sat := true }

/-- The value a code stands for (R44). -/
def ofLayout (f : FLayout) (code : Nat) : FVal :=
  let s := bitOf code (f.width - 1)
  let c := code % 2 ^ (f.width - 1)
  if c ≤ f.maxCode then
    let ex := c / 2 ^ f.mbits
    if ex = 0 then .fin s c f.qmin else .fin s (2 ^ f.mbits + c % 2 ^ f.mbits) (f.qmin + ex - 1)
  else if f.infCode == some c then .inf s
  else .nan

/-- An integer kept in a range, with whether it was clamped. -/
def clampInt (lo hi v : Int) : Int × Bool := if v < lo then (lo, true) else if hi < v then (hi, true) else (v, false)

/-- Round a value to an integer, ties to even. -/
def FVal.toInt : FVal → Option Int
  | .fin s m e => some (signed s (roundNE m (-e)))
  | _ => none

/-- Conversion to an n-bit two's complement integer (R56). -/
def FVal.toIntN (n : Nat) : FVal → Conv
  | .nan => { code := 0, nonfinite := true }
  | .inf s => if s then { code := 2 ^ (n - 1), sat := true } else { code := 2 ^ (n - 1) - 1, sat := true }
  | .fin s m e =>
    let (v, c) := clampInt (-((2 ^ (n - 1) : Nat) : Int)) (((2 ^ (n - 1) : Nat) : Int) - 1) (signed s (roundNE m (-e)))
    { code := wrapInt n v, sat := c }

/-- Conversion of a value to a format that carries no block scale; FP32 overflows as the unit does (R56). -/
def convert (fmt : Fmt) (o : Over) (draw : Option Nat) (v : FVal) : Conv :=
  match fmt with
  | .fp64 => v.toLayout Machine.fp64 .toInf draw
  | .fp32 => v.toLayout Machine.fp32 o draw
  | .bf16 => v.toLayout Machine.bf16 .toMax draw
  | .fp16 => v.toLayout Machine.fp16 .toMax draw
  | .e4m3 => v.toLayout Machine.e4m3 .toMax draw
  | .e5m2 => v.toLayout Machine.e5m2 .toMax draw
  | .mxE4m3 => v.toLayout Machine.e4m3 .toMax draw
  | .mxE5m2 => v.toLayout Machine.e5m2 .toMax draw
  | .mxE3m2 => v.toLayout Machine.e3m2 .toMax draw
  | .mxE2m3 => v.toLayout Machine.e2m3 .toMax draw
  | .mxE2m1 => v.toLayout Machine.e2m1 .toMax draw
  | .int8 => v.toIntN 8
  | .slice8 => v.toIntN 8
  | .int32 => v.toIntN 32

/-- The value an element code stands for, without its block scale. -/
def valueOf (fmt : Fmt) (code : Nat) : FVal :=
  match fmt.layout with
  | some f => ofLayout f code
  | none => FVal.ofInt (sext fmt.bits code)

/-- Targets for which stochastic rounding may be selected (R52). -/
def Fmt.stochasticOk : Fmt → Bool
  | .bf16 => true | .e4m3 => true | .e5m2 => true | f => f.isMx

/-! ## FP32 and FP64 words -/

/-- The value of an FP32 code. -/
def f32 (c : Nat) : FVal := ofLayout Machine.fp32 c
/-- The value of an FP64 code. -/
def f64 (c : Nat) : FVal := ofLayout Machine.fp64 c
/-- `round_fp32`, overflowing to infinity. -/
def r32 (v : FVal) : Nat := (v.toLayout Machine.fp32 .toInf none).code
/-- `round_fp64`. -/
def r64 (v : FVal) : Nat := (v.toLayout Machine.fp64 .toInf none).code
/-- A value rounded to FP32. -/
def rnd32 (v : FVal) : FVal := f32 (r32 v)
/-- A value rounded to FP64. -/
def rnd64 (v : FVal) : FVal := f64 (r64 v)
/-- A value rounded to FP32 that saturates, and whether it did (R59). -/
def sat32 (v : FVal) : FVal × Bool :=
  let c := v.toLayout Machine.fp32 .toMax none
  (f32 c.code, c.sat)

/-! ## Microscaling blocks (R47 to R50) -/

/-- The value of an element of a block with a scale code (R50). -/
def mxValue (fmt : Fmt) (scale code : Nat) : FVal :=
  if scale = 0xFF then .nan else (valueOf fmt code).scale ((scale : Int) - 127)

/-- The larger magnitude of two finite values. -/
def maxMag (a b : FVal) : FVal := if a.abs.lt b.abs then b.abs else a.abs

/-- The largest magnitude among the finite values of a block. -/
def blockAmax : List FVal → FVal
  | [] => FVal.zero
  | v :: t => if v.isFin then maxMag v (blockAmax t) else blockAmax t

/-- Scale code of a block quantised to an MX format (R49). -/
def mxScale (fmt : Fmt) (vs : List FVal) : Nat :=
  if vs.any FVal.isNan then 0xFF
  else
    let a := blockAmax vs
    if a.isZero then 0
    else
      let e := a.exponent - fmt.emax
      ((if e < -127 then -127 else if 127 < e then 127 else e) + 127).toNat

/-- One element of a block under its scale code, with an optional draw (R49). -/
def mxElement (fmt : Fmt) (amaxZero : Bool) (scale : Nat) (draw : Option Nat) (v : FVal) : Conv :=
  if scale = 0xFF then { code := 0, nonfinite := true }
  else if amaxZero then { code := 0 }
  else convert fmt .toMax draw (v.scale (127 - (scale : Int)))

end Sys2Proof.Machine
end

