-- ==== Sys2Proof/Machine/State.lean ====
section
/-! DEFINITION. The state of the Kovik as plain data: every register, table, queue, counter, mode and pin of the spec,
unit by unit, with the queue of commands that wait. The default of a field is its value at reset: the spec's where it gives one,
else the model's (DESIGN CHOICE, unsafe: log entries 8, 9, 18). -/

namespace Sys2Proof.Machine

/-! ## Replies, notices and packets that leave the block -/

/-- One field of a reply's parameter area (R362, R376). -/
inductive Fld where
  | unit (u : UnitName) | index (v : BitVec 32) | value (v : W64) | data (b : List Byte)
  | count (v : BitVec 32) | digest (b : List Byte) | bytes (v : W64) | status (s : Status)
  | result (slot : BitVec 16) (seq : BitVec 32)
deriving DecidableEq, Repr

/-- A reply (R360, R368): opcode, tag, session, status, the flags ASYNC, REPEAT and UPDATE_PENDING, and its fields. -/
structure Reply where
  opcode  : BitVec 16
  tag     : BitVec 32
  session : BitVec 32
  status  : Status
  async   : Bool := false
  repeated : Bool := false
  updatePending : Bool := false
  fields  : List Fld := []
deriving DecidableEq, Repr

/-- A Mioder operation this device sent (R308): its code and header fields; a response has a status. -/
structure MioOut where
  op      : BitVec 8
  target  : W64
  version : BitVec 32 := 0
  gen     : BitVec 32 := 0
  length  : Nat := 0
  aux     : BitVec 48 := 0
  fwd     : Bool := false
  status  : Option Status := none
  data    : List Byte := []
deriving DecidableEq, Repr

/-- What leaves the block by its ports, oldest first (R359, R307). -/
inductive Out where
  | reply (lane : Lane) (r : Reply)
  | versionReply (lane : Lane) (tag : BitVec 32)
  | mioReq (assoc : Nat) (psn : BitVec 32) (reqId : BitVec 32) (path : Nat) (o : MioOut)
  | mioResp (assoc : Nat) (psn : BitVec 32) (reqId : BitVec 32) (status : Status) (gen : BitVec 32) (data : List Byte)
  | ack (assoc : Nat) (cumPsn : BitVec 32) (sack : W64) (ce : Nat) (path : Nat) (via : Nat)
  | probe (assoc : Nat) (path : Nat) (size : Nat)
  | digest (assoc : Nat) (collId : Nat) (digest : List Byte)
  | handshake (assoc : Nat) (m : AssocHs)
  | announce (q : Nat) (addr : W64) (tail : BitVec 32)
  | storage (attachment : Nat) (write : Bool) (nsid : BitVec 32) (lba : W64) (blocks : Nat) (data : List Byte)
deriving DecidableEq, Repr

/-- A notice raised and not yet offered to its queue (R186): header fields and payload; SEQ is given when it is offered. -/
structure Notice where
  queue   : Nat
  kind    : BitVec 16
  source  : UnitName
  status  : Status
  srcGen  : BitVec 32 := 0
  stamp   : BitVec 48 := 0
  tag     : BitVec 32 := 0
  payload : List Byte
deriving DecidableEq, Repr

/-! ## The Core -/

/-- State of a tile (R84). -/
inductive TileState where
  | free | filling | resident
deriving DecidableEq, Repr

/-- A tile descriptor (R84). -/
structure Tile where
  frame     : BitVec 13 := 0
  side      : BitVec 15 := 0
  sideValid : Bool := false
  rowsM1    : BitVec 6 := 0
  colsM1    : BitVec 6 := 0
  state     : TileState := .free
  version   : BitVec 32 := 0
  tag       : BitVec 32 := 0
deriving DecidableEq, Repr

/-- One dimension of an address generator (R87, R94). -/
structure AgDim where
  count  : BitVec 16 := 1
  idx    : BitVec 16 := 0
  stride : BitVec 32 := 0
deriving DecidableEq, Repr

/-- An address generator (R87, R94). -/
structure Gen where
  base : BitVec 32 := 0
  byteMode : Bool := false
  d0 : AgDim := {}
  d1 : AgDim := {}
  d2 : AgDim := {}
  d3 : AgDim := {}
deriving DecidableEq, Repr

/-- States of a Prompter (R87). -/
inductive PState where
  | idle | running | hold | halted | stopped | suspect | reset
  | other (code : BitVec 4)
deriving DecidableEq, Repr

/-- Hold reasons (R96), and codes not listed that a REG_FORCE has written (R378). -/
inductive HoldReason where
  | none | wait | operand | dest | unit | ramp | scene | sync | msg
  | other (code : BitVec 4)
deriving DecidableEq, Repr

/-- Causes of a stop (R99), and codes not listed that a REG_FORCE has written (R378). -/
inductive StopCause where
  | none | tokenOvf | format | range | side | accum | cueEnd | sameTile | tileLive
  | other (code : BitVec 4)
deriving DecidableEq, Repr

/-- Where a message came from (R110, R310): a Core of this device by send sequence, or a request of an association. -/
inductive MsgSrc where
  | localCore (c : Nat) (seq : BitVec 16)
  | remote (assoc : Nat) (psn : BitVec 32) (reqId : BitVec 32) (index : Nat)
deriving DecidableEq, Repr

/-- A message request that waits for credit, or a granted one whose payload moves (R108): the 64-byte header and the payload as they enter the ring. -/
structure MsgReq where
  src     : MsgSrc
  channel : Nat
  rtoken  : Option Nat
  bytes   : List Byte
deriving DecidableEq, Repr

/-- One receive ring (R87, R108): its register and the complete messages it holds, oldest first. -/
structure Ring where
  base   : BitVec 13 := 0
  size   : BitVec 4 := 6
  enable : Bool := false
  head   : BitVec 16 := 0
  tail   : BitVec 16 := 0
  msgs   : List MsgReq := []
deriving DecidableEq, Repr

/-- A completion record (R111). -/
structure ComplRec where
  status   : Status
  seq      : BitVec 16
  refused  : BitVec 32
  accepted : BitVec 32
  destGen  : BitVec 32
deriving DecidableEq, Repr

/-- The header of an issued cue that has not completed: its number, its class and the token it signals (R89, R90). -/
structure CueTag where
  num    : Nat
  cls    : Nat
  signal : Option Nat
deriving DecidableEq, Repr

/-- A send in flight (R108, R29): the leaves and branches still to answer, the counts so far,
and pieces of a put that a migration holds. -/
structure Send where
  cue      : CueTag
  seq      : BitVec 16
  record   : Bool
  unicast  : Bool
  waiting  : Nat
  accepted : Nat := 0
  refused  : Nat := 0
  anyBoundary : Bool := false
  anyGone  : Bool := false
  anyReset : Bool := false
  destGen  : BitVec 32 := 0
  direct   : Option Status := none
  puts     : List (W64 × List Byte) := []
deriving DecidableEq, Repr

/-- A copy of a message or record into Wings that the port carries out (R110, R111). -/
structure RecvCopy where
  cue   : CueTag
  dest  : Nat
  bytes : List Byte
  channel : Option Nat
  granules : Nat
deriving DecidableEq, Repr

/-- The image of one destination tile in an array (R62, R73, R112): accumulators by 66·row + column, the checksum row and
column included, what the drain needs, the rows (0 to 63) and columns (64 to 127) excluded from its check, the steps with products that
computing it takes, and the tag of its rows where they are already in its frame. -/
structure TileJob where
  dest      : Nat
  cells     : Tab W64
  integer   : Bool
  products  : Nat
  verdict   : Option Bool := none
  retried   : Bool := false
  outFmt    : BitVec 4
  rnd       : BitVec 2
  rows      : Nat
  cols      : Nat
  sat       : Bool
  satIn     : Bool
  slice     : Bool
  version   : BitVec 32
  excluded  : List Nat := []
  steps     : Nat := 0
  drained   : Option (BitVec 32) := none
deriving DecidableEq, Repr

/-- An ARR cue an array works on (R112, R117): its tiles in the order they complete, and the operand tiles to release. -/
structure ArrJob where
  cue     : CueTag
  mode    : BitVec 4
  tiles   : List TileJob
  keep    : Bool
  pTiles  : List Nat
  qTiles  : List Nat
  needsStationary : Bool
  preloaded : Bool := false
  shared  : Bool
  cont    : Bool := false
deriving DecidableEq, Repr

/-- One line of a Gram tap's table (R136): the accumulator line, its window count, whether this window has met it, the next
run number, in order of use. -/
structure TapLine where
  line : Nat
  w    : Nat
  seen : Bool
  run  : Nat
deriving DecidableEq, Repr

/-- A Gram tap (R134 to R139). -/
structure Tap where
  on       : Bool := false
  sampleM1 : BitVec 6 := 0
  xxLine   : BitVec 27 := 0
  yyLine   : BitVec 27 := 0
  runs     : BitVec 16 := 0
  adds     : BitVec 32 := 0
  lines    : List TapLine := []
  badHeader : Bool := false
deriving DecidableEq, Repr

/-- A matrix array: its registers (R139), its jobs (the first is in progress), the accumulators kept under ACC_KEEP (R90),
the last completed or stopped image (R62), its activity level (R100). -/
structure Arr where
  level     : BitVec 5 := 0
  holdLeft  : Option Nat := none
  bank      : Bool := false
  stationaryValid : Bool := false
  shadowValid : Bool := false
  productSteps : BitVec 48 := 0
  pacedSteps : BitVec 32 := 0
  tapHoldSteps : BitVec 32 := 0
  jobs      : List ArrJob := []
  kept      : Option TileJob := none
  image     : Tab W64 := []
  tap       : Tap := {}
deriving DecidableEq, Repr

/-- State of a table slot (R139). -/
inductive SlotState where
  | empty | busy | valid | failed
deriving DecidableEq, Repr

/-- A function-table slot (R126, R127): its 64-bit words that differ from zero, its state, and whether it was loaded by the Production. -/
structure TableSlot where
  words : Tab W64 := []
  state : SlotState := .empty
  /-- The model's own field: the words are those the firmware loaded, for which R129's bounds hold. -/
  firmware : Bool := false
deriving DecidableEq, Repr

/-- A VEC cue in the engine (R144): captured VL, the operands and destinations it drew, whether it has run, and what its tags will be. -/
structure VecJob where
  cue    : CueTag
  word   : W128
  vl     : W64
  aTiles : List Nat
  bTiles : List Nat
  dTiles : List Nat
  rowBases : List Int
  colBases : List Int
  ran    : Bool := false
  tags   : List (BitVec 32 × BitVec 32) := []
deriving DecidableEq, Repr

/-- An outward effect the router counts (R107): the send or transfer it belongs to, its status once known, its result words. -/
structure Effect where
  ref    : Nat
  status : Option Status := none
  words  : List W64 := []
deriving DecidableEq, Repr

/-- A piece of a transfer (R167 to R169, R309): its place among the runs or tiles, its memory address (a MOVE's source), a MOVE's
destination, its place in Wings or in its tile's block, its length; the run or row it is cut from, by address and length. -/
structure Piece where
  unit : Nat
  addr : W64
  dst  : W64
  off  : Nat
  n    : Nat
  run    : W64
  runLen : Nat
deriving DecidableEq, Repr

/-- A transfer in flight (R167, R173): its descriptor as started, base, bound handle and its number among those taken, its tiles,
its pieces in order, and how far it is: pieces read from Wings, pieces done, pieces asked of other devices and not answered, bytes
that reads and atomics returned by piece; whether an ATOMIC's result words wait at the router, or are in Wings. -/
structure Xfer where
  cue    : CueTag
  at_    : Nat
  desc   : Nat
  word   : BitVec 512
  hq     : Nat
  handle : Option (BitVec 128)
  base   : W64
  tiles  : List Nat
  rel    : Bool
  isFill : Bool
  bound  : Option Nat := none
  pieces : List Piece := []
  doubleAt : Option Nat := none
  read    : List Nat := []
  settled : List Nat := []
  done   : Nat := 0
  waiting : List Nat := []
  got    : Tab (List Byte) := []
  status : Status := .ok
  bytes  : Nat := 0
  resultsHeld : Bool := false
  resultsIn   : Bool := false
  faultAddr : W64 := 0
  suppressed : Option Effect := none
deriving DecidableEq, Repr

/-- An STR cue waiting in the engine's queue (R177): its word, its tag, its cue number, the tiles or byte offset it drew, an ECC event. -/
structure StrCue where
  cue   : CueTag
  word  : W128
  at_   : Nat
  tiles : List Nat
  off   : Nat
  ecc   : WingsEcc
deriving DecidableEq, Repr

/-- States of an endpoint (R179). -/
inductive HqState where
  | off | live | broken
deriving DecidableEq, Repr

/-- A handle-queue endpoint (R176, R179, R181), with how many handles it has taken and the RELEASE under way: the handle it sends, by
its number, whether that still travels to an endpoint of this device, and its answer. -/
structure Endpoint where
  state       : HqState := .off
  enable      : Bool := false
  priority    : BitVec 3 := 0
  outstanding : BitVec 7 := 1
  arriveEn    : Bool := false
  arriveToken : BitVec 6 := 0
  nextHq      : BitVec 4 := 0
  next        : UnitName := 0
  lastStatus  : BitVec 16 := 0
  waiting     : List (BitVec 128) := []
  held        : List (BitVec 128) := []
  taken       : Nat := 0
  releasing   : Option StrCue := none
  sending     : Option (Nat × BitVec 128) := none
  sent        : Bool := false
  answer      : Option Status := none
deriving DecidableEq, Repr

/-- A stream of the rounding generator (R55): its words, the draws left of the last output, the draws since seeding. -/
structure Rng where
  s0 : W64 := 0
  s1 : W64 := 0
  buf : List (BitVec 16) := []
  draws : Nat := 0
deriving DecidableEq, Repr

/-- One item of a shadow log (R106). -/
inductive LogItem where
  | msg (m : MsgReq)
  | token (t : Nat)
  | handle (ep : Nat) (h : BitVec 128)
  | words (ws : List W64)
deriving DecidableEq, Repr

/-- The shadow state of a marker (R103). -/
structure Shadow where
  sceneId : BitVec 16
  cp      : BitVec 14
  loops   : Tab (BitVec 32)
  tokens  : Tab (BitVec 4)
  gens    : Tab Gen
  pflags  : BitVec 16
  vl      : W64
  fillHold : BitVec 16
  fillBudget : BitVec 16
  tiles   : Tab Tile
  rings   : Tab Ring
  tapA    : Tap
  tapB    : Tap
  descs   : Tab (BitVec 512)
  eps     : Tab Endpoint
  sendSeq : BitVec 16
deriving DecidableEq, Repr

/-- An input for the Core held at the Troupe router while its log is full (R106). -/
inductive HeldInput where
  | token (t : Nat)
  | handle (ep : Nat) (h : BitVec 128) (src : HandleSrc)
  | words (num : Nat)
deriving DecidableEq, Repr

/-- The Prompter of a Core (R87, R96 to R107). -/
structure Prompter where
  run      : Bool := false
  singleStep : Bool := false
  stepped  : Bool := false
  entry    : BitVec 14 := 0
  cp       : BitVec 14 := 0
  pastEnd  : Bool := false
  state    : PState := .idle
  hold     : HoldReason := .none
  haltCode : BitVec 16 := 0
  stop     : StopCause := .none
  sceneId  : BitVec 16 := 0
  sceneCp  : BitVec 14 := 0
  scenes   : BitVec 32 := 0
  pflags   : BitVec 16 := 0
  vl       : W64 := 0
  fillHold : BitVec 16 := 0
  fillBudget : BitVec 16 := 0
  fillUsed : BitVec 16 := 0
  rampHolds : BitVec 32 := 0
  loops    : Tab (BitVec 32) := []
  tokens   : Tab (BitVec 4) := []
  gens     : Tab Gen := []
  cues     : Tab W128 := []
deriving DecidableEq, Repr

/-- The message port of a Core (R108 to R111): rings, requests waiting for credit by channel, granted messages, sends in flight,
completion records, copies under way, the next send sequence number; sends in flight that a REG_FORCE of SENDS_OUT has added (R378). -/
structure MsgPort where
  rings    : Tab Ring := []
  waiting  : Tab (List MsgReq) := []
  granted  : Tab (List MsgReq) := []
  sends    : List Send := []
  compl    : List ComplRec := []
  reserved : Nat := 0
  copies   : List RecvCopy := []
  sendSeq  : BitVec 16 := 0
  phantoms : Nat := 0
deriving DecidableEq, Repr

/-- The stream engine of a Core (R165 to R184). -/
structure StreamEng where
  descs    : Tab (BitVec 512) := []
  shadows  : Tab (BitVec 512) := []
  shadowBusy : List Nat := []
  eps      : Tab Endpoint := []
  injectLo : W64 := 0
  injectEp : BitVec 4 := 0
  rearmRejects : BitVec 16 := 0
  streamErrors : BitVec 16 := 0
  queue    : List StrCue := []
  xfers    : List Xfer := []
deriving DecidableEq, Repr

/-- The vector engine of a Core (R144, R164). -/
structure VecEng where
  jobs     : List VecJob := []
  elements : BitVec 48 := 0
  wingsBound : BitVec 32 := 0
  idx      : Tab Byte := []
  freq     : Tab (BitVec 32) := []
deriving DecidableEq, Repr

/-- A takeover under way (R428): the physical Core that failed, the runtime entry recorded for it. -/
structure Takeover where
  failed : Nat
  entry  : Option (BitVec 128) := none
deriving DecidableEq, Repr

/-- A logical Core: Prompter, tiles, arrays, vector engine, stream engine, message port, tables, generator, recovery state. -/
structure Core where
  p        : Prompter := {}
  tiles    : Tab Tile := []
  arrA     : Arr := {}
  arrB     : Arr := {}
  vec      : VecEng := {}
  str      : StreamEng := {}
  msg      : MsgPort := {}
  slots    : Tab TableSlot := []
  formulaForce : BitVec 8 := 0
  tableFails : BitVec 16 := 0
  lastFailed : BitVec 5 := 0
  formulaOps : BitVec 32 := 0
  wingsCorrected : BitVec 32 := 0
  rng      : Tab Rng := []
  rootCues : List (CueTag × BitVec 32) := []
  rootQueue : List (CueTag × Nat × W128) := []
  -- recovery (R102 to R107)
  marker   : Option Shadow := none
  pending  : Option Shadow := none
  log      : List LogItem := []
  logAtLatch : Nat := 0
  heldIn   : List HeldInput := []
  keptMsgs : List MsgReq := []
  effects  : List Effect := []
  effectsAtLatch : Nat := 0
  replayEffects : List Effect := []
  -- the unit itself (R21, R41, R42, R431)
  dark     : Bool := false
  inReset  : Bool := false
  resetGen : BitVec 32 := 0
  reportQueue : BitVec 6 := 0
  tag      : BitVec 32 := 0
  phys     : BitVec 10 := 0x3FF
  onUnderstudy : Bool := false
  takeover : Option Takeover := none
  shadowLoaded : Bool := false
deriving DecidableEq, Repr

/-! ## Troupe, Root engine, Stage, Gallery -/

/-- A Troupe: map, Understudies, check and entropy registers (R42, R78). -/
structure Troupe where
  mapSlot   : Tab (BitVec 5) := []
  takenOver : BitVec 16 := 0
  slotA     : BitVec 5 := 0
  presentA  : Bool := false
  engagedA  : Bool := false
  servingA  : BitVec 4 := 0
  slotB     : BitVec 5 := 0
  presentB  : Bool := false
  engagedB  : Bool := false
  servingB  : BitVec 4 := 0
  badMask   : BitVec 18 := 0
  resetGen  : BitVec 32 := 0
  reportQueue : BitVec 6 := 0
  tag       : BitVec 32 := 0
  checkRetries : BitVec 32 := 0
  suspects  : BitVec 8 := 0
  lastSuspect : BitVec 4 := 0
  entropyOk : Bool := false
  healthFails : BitVec 16 := 0
  fixedSeed : Bool := false
  seed      : W64 := 0
  inReset   : Bool := false
  started   : Bool := false
  timerStart : Nat := 0
deriving DecidableEq, Repr

/-- Who submitted a Root job (R268). -/
inductive Submitter where
  | core (c : Nat) (gen : BitVec 32)
  | conservator (n : Nat) (i : Nat)
  | command (slot : Nat)
deriving DecidableEq, Repr

/-- Assembly of a job (R279, R282). -/
inductive AsmState where
  | notStarted | working | complete
deriving DecidableEq, Repr

/-- An accepted Root job (R269, R285 to R291): its copied descriptor and what it has done. -/
structure RootJob where
  desc      : BitVec 2048
  seq       : BitVec 32
  priority  : BitVec 2
  submitter : Submitter
  deadline  : Option Nat
  members   : List Nat
  asm       : AsmState := .notStarted
  asmGroup  : Nat := 0
  started   : Bool := false
  startAt   : Nat := 0
  iters     : Nat := 0
  preempted : Nat := 0
  evals     : Nat := 0
  waitEval  : Bool := false
  pivotRepl : Nat := 0
  firstRepl : BitVec 32 := 0xFFFFFFFF
  residual  : W64 := 0
  warmUsed  : Bool := false
  haveIterate : Bool := false
  x         : List W64 := []
  m         : List W64 := []
  b         : List W64 := []
  m1        : List W64 := []
  b1        : List W64 := []
  trial     : List W64 := []
  f         : W64 := 0
  f1        : W64 := 0
  lambda    : W64 := 0
  nu        : W64 := 0x4000000000000000
  lastDev   : W64 := 0
  rises     : Nat := 0
  ended     : Option (Status × Bool) := none
  cancel    : Bool := false
  resume    : Bool := false
  blocks    : List (List W64) := []
deriving DecidableEq, Repr

/-- A warm-start slot (R283, R295). -/
structure WarmSlot where
  valid : Bool := false
  busy  : Option (BitVec 32) := none
  buf   : BitVec 48 := 0
  op    : BitVec 8 := 0
  prec  : Bool := false
  order : BitVec 32 := 0
  cols  : BitVec 32 := 0
  iters : BitVec 32 := 0
  job   : BitVec 32 := 0
  residual : W64 := 0
deriving DecidableEq, Repr

/-- A Root engine (R285, R295). -/
structure RootEng where
  running   : Option (BitVec 32) := none
  asmJob    : Option (BitVec 32) := none
  gangWait  : Bool := false
  switching : Bool := false
  jobs      : List RootJob := []
  jobsDone  : BitVec 32 := 0
  deadlineMisses : BitVec 16 := 0
  singulars : BitVec 16 := 0
  numerics  : BitVec 16 := 0
  preemptions : BitVec 16 := 0
  refused   : BitVec 16 := 0
  lastRefusal : BitVec 16 := 0
  pivotReplaced : BitVec 32 := 0
  iterLimits : BitVec 16 := 0
  matrixSteps : BitVec 48 := 0
  assemblySteps : BitVec 48 := 0
  optWork   : BitVec 48 := 0
  optWorkMib : BitVec 16 := 0
  optHolder : Option (BitVec 32) := none
  slots     : Tab WarmSlot := []
deriving DecidableEq, Repr

/-- A Gallery die (R204, R205, R207). -/
structure GalDie where
  corrected : BitVec 32 := 0
  uncorrectable : BitVec 16 := 0
  spareUsed : Tab Nat := []
  sparesOut : List Nat := []
  scrubPasses : BitVec 32 := 0
  scrubAt   : Nat := 0
  rowErrors : Tab Nat := []
  poisoned  : List Nat := []
deriving DecidableEq, Repr

/-- A Stage: fill limits, doors, Gallery dies, planes, rail, pace (R88, R207, R444). -/
structure Stage where
  rampSteps : BitVec 4 := 8
  jump      : BitVec 5 := 4
  fillCap   : BitVec 16 := 8192
  inReset   : Bool := false
  wiping    : Bool := false
  resetGen  : BitVec 32 := 0
  reportQueue : BitVec 6 := 0
  tag       : BitVec 32 := 0
  doorAnswers : BitVec 32 := 0
  discarded : BitVec 32 := 0
  planes    : Nat := 2
  paceCount : W64 := 0
  railMin   : BitVec 10 := 600
  railMax   : BitVec 10 := 850
  railMv    : BitVec 16 := 720
deriving DecidableEq, Repr

/-! ## Vault -/

/-- States of a Vault channel (R212). -/
inductive ChState where
  | active | held | retraining | rebuilding | failed
deriving DecidableEq, Repr

/-- A page's state byte (R220). -/
structure PageState where
  epochSel : Bool := false
  stale    : Bool := false
  erasedCh : BitVec 5 := 0x1F
deriving DecidableEq, Repr

/-- A Vault group (R213 to R224). -/
structure VGroup where
  ch        : Tab ChState := []
  lost      : Bool := false
  retrainCh : BitVec 5 := 0x1F
  attempts  : Nat := 0
  rebuildShare : BitVec 3 := 2
  sweepShare : BitVec 3 := 1
  corrected : BitVec 32 := 0
  uncorrectable : BitVec 32 := 0
  retrains  : BitVec 16 := 0
  rowRepairs : BitVec 16 := 0
  sweepPos  : BitVec 23 := 0
  rebuilt   : Nat := 0
  pages     : Tab PageState := []
  poison    : List Nat := []
  repairing : List (Nat × Nat) := []
  sweeping  : Bool := false
deriving DecidableEq, Repr

/-- The Vault controllers (R224). -/
structure Vault where
  groups    : Tab VGroup := []
  keyLive   : BitVec 2 := 1
  keyEpoch0 : BitVec 32 := 0
  keyEpoch1 : BitVec 32 := 0
  sweepActive : Bool := false
  zeroFilled : Bool := false
  vaultNq   : BitVec 6 := 0
  chErrLimit : BitVec 16 := 16
  errWindowUs : BitVec 16 := 1000
deriving DecidableEq, Repr

/-! ## Conservators -/

/-- A shard table entry (R263). -/
inductive EntryState where
  | empty | live | halted
deriving DecidableEq, Repr

/-- A shard table entry with what the Conservator keeps for it (R238, R245, R254, R263). -/
structure ShardEntry where
  record  : BitVec 48 := 0
  state   : EntryState := .empty
  window  : BitVec 12 := 0
  closeOrder : List Nat := []
  stalled : Option Nat := none
  refreshJobs : List (BitVec 32) := []
  refreshBad : Bool := false
  refreshFrom : BitVec 32 := 0
  refreshing : Bool := false
  compareQueued : Bool := false
  holdNoted : Bool := false
  discard : Bool := false
  foldDue : Bool := false
  closeFailed : Bool := false
deriving DecidableEq, Repr

/-- What a Conservator does now (R263). -/
inductive Activity where
  | idle | close | holdWait | pass | afterCommit | fold | compare | skipCopy
deriving DecidableEq, Repr

/-- A Conservator (R227, R245, R263). Of the work it does now: the writes to other devices still awaited, the number that ties their
answers to it, whether the copy it makes has been sent, and whether a write of it failed. -/
structure Cons where
  activity : Activity := .idle
  shardNow : Nat := 0
  awaited  : Nat := 0
  round    : Nat := 0
  sent     : Bool := false
  bad      : Bool := false
  rule     : BitVec 2048 := 0
  block    : Nat := 0
  useStaged : Bool := false
  satCount : Nat := 0
  waitFrom : Nat := 0
  commits  : BitVec 32 := 0
  skips    : BitVec 16 := 0
  halts    : BitVec 16 := 0
  rootLate : BitVec 16 := 0
  rootFails : BitVec 16 := 0
  rootSkips : BitVec 16 := 0
  overruns : BitVec 16 := 0
  sweepNq  : BitVec 6 := 0
  matrixSteps : BitVec 48 := 0
  holdWaitUs : BitVec 32 := 0
  closeStallUs : BitVec 32 := 0
  entries  : Tab ShardEntry := []
  inReset  : Bool := false
deriving DecidableEq, Repr

/-- A window of two working buffers (R235, R243); `far` where another device holds them, `base` then the address a packet to them carries. -/
structure Window where
  used   : Bool := false
  far    : Bool := false
  base   : Nat := 0
  size   : Nat := 0
  record : Nat := 0
deriving DecidableEq, Repr

/-! ## Fabric -/

/-- An Ethernet port (R303). -/
structure Port where
  mode     : BitVec 2 := 0
  media    : BitVec 2 := 0
  anEn     : Bool := true
  pfcEn    : Bool := false
  pfcPrio  : BitVec 3 := 3
  dscp     : BitVec 6 := 26
  vlanEn   : Bool := false
  vlanId   : BitVec 12 := 0
  linkUp   : BitVec 8 := 0
  laneBad  : BitVec 8 := 0
  laneInv  : BitVec 8 := 0
  laneOrder : BitVec 24 := 0
  fecCorrected : BitVec 32 := 0
  fecUncorrectable : BitVec 32 := 0
  txFrames : BitVec 48 := 0
  rxFrames : BitVec 48 := 0
  macBase  : BitVec 48 := 0
  linkDowns : BitVec 16 := 0
  pfcPauses : BitVec 32 := 0
  retrainFails : Tab Nat := []
  training : BitVec 8 := 0
  retrying : BitVec 8 := 0
  subOff   : BitVec 8 := 0
  addrs    : Tab (List (BitVec 128)) := []
deriving DecidableEq, Repr

/-- A path of an association (R313 to R315). -/
structure Path where
  port     : Nat := 0
  sub      : Nat := 0
  peerAddr : Nat := 0
  srcPort  : BitVec 16 := 0xC000
  window   : Nat := 16384
  rtts     : List (Nat × Nat) := []
  reducedAt : Option Nat := none
  suspect  : Bool := false
  timeouts : Nat := 0
  probing  : Bool := false
  down     : Bool := false
deriving DecidableEq, Repr

/-- What a Mioder request was sent for (R308, R309, R322): who takes its response. -/
inductive Purpose where
  | stream (core : Nat) (cue : Nat) (piece : Nat)
  | send (core : Nat) (seq : BitVec 16)
  | handle (core : Nat) (ep : Nat)
  | token
  | describe (job : Nat) (member : UnitName)
  | resetBranch
  | relay (assoc : Nat) (reqId : BitVec 32) (part : Nat)
  | migGet (id : Nat) (off : Nat)
  | migPut (id : Nat)
  | coll (k : Nat)
  | cons (n : Nat) (round : Nat)
  | restore (slot : Nat) (seq : BitVec 32)
  | chunk (k : Nat) (chunk : Nat)
  | response
deriving DecidableEq, Repr

/-- A DATA packet an association still keeps (R308, R312): its header and purpose, PSN and path, whether it is acknowledged,
waits to be sent, when it was last sent, or waits after BUSY. A response is kept until acknowledged, a request until answered. -/
structure PendReq where
  psn     : BitVec 32
  reqId   : BitVec 32
  path    : Nat
  out     : MioOut
  purpose : Purpose
  gen     : BitVec 32
  acked   : Bool := false
  queued  : Bool := false
  resend  : Bool := false
  sentAt  : Nat := 0
  busyWait : Bool := false
deriving DecidableEq, Repr

/-- States of an association (R325). -/
inductive AssocState where
  | free | opening | up | down
deriving DecidableEq, Repr

/-- An association (R325 to R328): its entry, and what its engine keeps. -/
structure Assoc where
  peer     : BitVec 16 := 0
  peerAssoc : BitVec 14 := 0
  state    : AssocState := .free
  mtu1k    : Bool := false
  txPhase  : Bool := false
  rxPhase  : Bool := false
  rxOldValid : Bool := false
  oldTop   : W64 := 0
  oldCounters : List Nat := []
  rekeying : Bool := false
  keyClass : BitVec 16 := 0
  txCounter : W64 := 0
  rxTop    : W64 := 0
  txPsn    : BitVec 32 := 0
  rxCum    : BitVec 32 := 0
  srtt     : BitVec 32 := 0
  retx     : BitVec 32 := 0
  addrs    : List (BitVec 128) := []
  paths    : Tab Path := []
  lastPath : Nat := 0
  rxSeen   : List Nat := []
  rxCounters : List Nat := []
  newPhasePackets : Nat := 0
  rekeys   : BitVec 32 := 0
  reqs     : List PendReq := []
  backlog  : List PendReq := []
  nextReq  : BitVec 32 := 0
  hostPeer : Bool := false
  conf     : Option (BitVec 32) := none
  slot     : Option Nat := none
  hsInit   : List Byte := []
  hsResp   : List Byte := []
  hsId     : BitVec 32 := 0
  hsSecret : List Byte := []
  hsSent   : Bool := false
  txKey    : List Byte := []
  rxKey    : List Byte := []
  rxOldKey : List Byte := []
  rxRekeys : BitVec 32 := 0
deriving DecidableEq, Repr

/-- States of an Accession entry (R320). -/
inductive AccState where
  | empty | live | migrating
deriving DecidableEq, Repr

/-- An Accession entry (R320). -/
structure AccEntry where
  base       : BitVec 48 := 0
  sizeLog    : BitVec 6 := 0
  state      : AccState := .empty
  targetDev  : BitVec 16 := 0
  targetAddr : BitVec 48 := 0
  permLocal  : BitVec 4 := 0
  permRemote : BitVec 4 := 0
  assocKey   : BitVec 16 := 0
  newDev     : BitVec 16 := 0
  newAddr    : BitVec 48 := 0
deriving DecidableEq, Repr

/-- A request held at the home device during the last copy of a migration (R323). -/
structure HeldReq where
  op  : BitVec 8
  req : MioReq
deriving DecidableEq, Repr

/-- A request forwarded in several packets (R304, R322): who asked, its operation, the answers still awaited and those in, by part. -/
structure Relay where
  assoc   : Nat
  reqId   : BitVec 32
  op      : BitVec 8
  waiting : Nat
  parts   : Tab (List Byte) := []
  status  : Status := .ok
  gen     : BitVec 32 := 0
deriving DecidableEq, Repr

/-- The migration in progress (R323): `asked`: the copies of the pass are under way; those awaited; the status of one that failed. -/
structure Migration where
  id      : Nat := 0
  asked   : Bool := false
  awaiting : Nat := 0
  failed  : Option Status := none
  entry   : Nat
  slot    : Nat
  pass    : Nat := 1
  dirty   : List Nat := []
  toCopy  : List Nat := []
  copied  : Nat := 0
  holding : Bool := false
  held    : List HeldReq := []
  cmds    : List Instr := []
deriving DecidableEq, Repr

/-- A message arriving in parts, or whole and waiting for its turn or its ring (R310, R317, R318): the room it has in the
landing store, whether it was answered BUSY and has not come again, and the parts of the refused attempt still to be discarded. -/
structure Landing where
  assoc  : Nat
  reqId  : BitVec 32
  psn    : BitVec 32
  target : UnitName
  aux    : BitVec 48
  parts  : Tab (List Byte) := []
  partsM1 : Nat
  room   : Nat := 0
  busy   : Bool := false
  discard : Nat := 0
  delivered : Bool := false
  waiting : Nat := 0
  accepted : Nat := 0
  refused : Nat := 0
  anyBoundary : Bool := false
  anyGone : Bool := false
  anyReset : Bool := false
deriving DecidableEq, Repr

/-- What the members met so far bring to a descriptor (R27): sums, the largest depth with its nesting, flags; `live`: a counted
leaf is neither dark nor under reset. -/
structure Agg where
  leaves : Nat := 0
  dark   : Nat := 0
  spares : Nat := 0
  depth  : Nat := 0
  degraded : Bool := false
  inReset : Bool := false
  live   : Bool := false
  unreachable : Bool := false
  gone   : Bool := false
deriving DecidableEq, Repr

/-- A descriptor read that waits for other devices (R27): who asked (a result slot, or a request of an association), the unit,
what it has, and the members not yet answered with their nesting; `direct` where the unit itself lies on another device. -/
structure DescJob where
  id      : Nat
  slot    : Option Nat
  assoc   : Nat := 0
  reqId   : BitVec 32 := 0
  unit    : UnitName
  direct  : Bool := false
  agg     : Agg := {}
  waiting : List (UnitName × Nat)
deriving DecidableEq, Repr

/-- The Mioder engines (R330). -/
structure Mioder where
  deviceNumber : BitVec 16 := 0
  devSet    : Bool := false
  udpPort   : BitVec 16 := 6911
  linkNq    : BitVec 6 := 0
  ecnEn     : Bool := true
  targetQueueNs : BitVec 16 := 2000
  rtoMinUs  : BitVec 8 := 20
  reorderUs : BitVec 8 := 4
  assocTimeoutMs : BitVec 16 := 10
  probeUs   : BitVec 16 := 1000
  retransmits : BitVec 32 := 0
  authFails : BitVec 16 := 0
  replayDrops : BitVec 16 := 0
  ecnMarks  : BitVec 32 := 0
  pathRetires : BitVec 16 := 0
  landingBusy : BitVec 16 := 0
  ports     : Tab Port := []
  mgmtAddrs : List (BitVec 128) := []
  assocs    : Tab Assoc := []
  accession : Tab AccEntry := []
  migration : Option Migration := none
  landing   : List Landing := []
  descJobs  : List DescJob := []
  /-- Requests forwarded in several packets. -/
  relays    : List Relay := []
  /-- Requests a migration held that a Core's door then holds, by Core (R198, R428). -/
  doorHeld  : List (Nat × HeldReq) := []
  /-- Writes of the device itself that a migration or a Core's door holds (R323, R428). -/
  heldWrites : List (W64 × List Byte) := []
deriving DecidableEq, Repr

/-! ## Collectives and mappings -/

/-- A run of a collective on this device (R341): the devices ready and done, the elements combined here and their counts, the
elements final here, the devices served, the tiles in the stage (target, place in the stage, bytes), chunks, the scaled sums of the
elements combined here and the partial noise sums, writes awaited of another device, and an end that came before order 1. -/
structure CollRun where
  ready     : List Nat := []
  done      : List Nat := []
  localDone : Bool := false
  version   : BitVec 32 := 0
  acc       : Tab W64 := []
  arrived   : Tab Nat := []
  got       : Nat := 0
  pushed    : List Nat := []
  dist      : List Nat := []
  staged    : List (W64 × Nat × Nat) := []
  bytesIn   : Nat := 0
  bytesOut  : Nat := 0
  chunks    : List Nat := []
  verified  : List Nat := []
  refetched : List Nat := []
  keptRun   : Bool := false
  byTransition : Bool := false
  sums      : Tab W64 := []
  gnsSmall  : W64 := 0
  gnsBig    : W64 := 0
  gnsFrom   : List Nat := []
  gnsSent   : Bool := false
  awaited   : Nat := 0
  aborted   : Option Status := none
deriving DecidableEq, Repr

/-- An open gradient-noise measurement (R344). -/
structure Gns where
  sSmall : W64 := 0
  sBig   : W64 := 0
  ranks  : Nat := 0
  runs   : Nat := 0
deriving DecidableEq, Repr

/-- A collective table entry (R338, R345, R357): the copied descriptor and tables, the run in progress, what came of the next run before
its order 1 here, COLLECTIVE_RUNs that wait, the digests of other devices, and the smoothed noise estimates. -/
structure Coll where
  posted  : Bool := false
  desc    : BitVec 2048 := 0
  ranks   : List (BitVec 512) := []
  counts  : List W64 := []
  kept    : Bool := false
  run     : BitVec 32 := 0
  lastStatus : BitVec 16 := 0
  now     : Option CollRun := none
  readyAgain : Nat := 0
  early  : CollRun := {}
  digests : Tab (List Byte) := []
  gHat   : W64 := 0
  tHat   : W64 := 0
  measured : Bool := false
deriving DecidableEq, Repr

/-- Phases of a mapping (R346). -/
inductive Phase where
  | forward | backward | update
deriving DecidableEq, Repr

/-- A mapping (R346, R347, R357). -/
structure Mapping where
  valid   : Bool := false
  phase   : Phase := .forward
  transition : Bool := false
  stopped : Bool := false
  keepUsed : BitVec 48 := 0
  record  : BitVec 2048 := 0
  todo    : List (BitVec 32) := []
  lists   : List (List (BitVec 32)) := []
deriving DecidableEq, Repr

/-- The collective engines (R357). -/
structure CollEng where
  colls    : Tab Coll := []
  maps     : Tab Mapping := []
  runs     : BitVec 32 := 0
  fails    : BitVec 16 := 0
  timeouts : BitVec 16 := 0
  gnsBeta  : BitVec 32 := 0x3F666666
  gnsNq    : BitVec 6 := 0
  gnsDropped : BitVec 16 := 0
  gns      : Option Gns := none
deriving DecidableEq, Repr

/-! ## Notice queues -/

/-- A notice queue (R185, R190 to R193). `unread` lists the published records not yet read: the producer count after each, and its SEQ. -/
structure NQ where
  base    : BitVec 48 := 0
  size    : BitVec 4 := 0
  trace   : Bool := false
  enable  : Bool := false
  head    : BitVec 32 := 0
  tail    : BitVec 32 := 0
  seq     : BitVec 32 := 0
  flushPending : Bool := false
  gapOpen : Bool := false
  gapSeq  : BitVec 32 := 0
  gapCount : BitVec 32 := 0
  flushSeq : BitVec 32 := 0
  flushCount : BitVec 32 := 0
  dropped : BitVec 32 := 0
  gaps    : BitVec 32 := 0
  announce : W64 := 0
  announceDue : Bool := false
  unread  : List (Nat × Nat) := []
deriving DecidableEq, Repr

/-! ## Ensembles -/

/-- An Ensemble table entry (R21, R23). -/
structure Ensemble where
  defined  : Bool := false
  members  : List UnitName := []
  base     : BitVec 14 := 0
  tag      : BitVec 32 := 0
  locked   : Bool := false
  resetGen : BitVec 32 := 0
  reportQueue : BitVec 6 := 0
deriving DecidableEq, Repr

/-! ## Curator: sessions, results, Productions, services -/

/-- Roles (R363, R394): the credential that opened the session. -/
inductive Role where
  | owner | operator | observer
deriving DecidableEq, Repr

/-- A kept request and its reply (R369). -/
structure Kept where
  req   : Instr
  reply : Reply
deriving DecidableEq, Repr

/-- An open session (R363 to R369, R392, R400): the handshake's secret and transcript digest, the 72 bytes of its keys. -/
structure Session where
  number : BitVec 32
  role   : Role
  isSealed : Bool
  kept   : List Kept := []
  secret : List Byte := []
  transcript : List Byte := []
  keys   : List Byte := []
  txCounter : W64 := 0
deriving DecidableEq, Repr

/-- States of a result slot (R372). -/
inductive SlotSt where
  | free | pending | ready | abandoned
deriving DecidableEq, Repr

/-- The asynchronous work behind a slot (R372): what its end carries out. -/
inductive Work where
  | none
  | production (index : Nat) (addr : Nat) (bytes : Nat)
  | memFill (addr : Nat) (bytes : Nat) (pattern : W64)
  | root (seq : BitVec 32)
  | assoc (a : Nat)
  | migrate
  | storeAttach (ip : BitVec 128) (l4 : BitVec 16) (nqn : List Byte) (roce : Bool)
  | storeRead (att : Nat) (addr : Nat) (len : Nat)
  | storeWrite (att : Nat)
  | folioLoad (att : Nat) (addr : Nat) (manifestOnly : Bool)
  | checkpointWrite (att : Nat) (digest : List Byte) (bytes : Nat) (shards : List (Nat × Nat))
  | checkpointRestore (att : Nat)
  | restoring (left : Nat) (status : Status) (digest : List Byte)
  | describe
  | failed (st : Status)
deriving DecidableEq, Repr

/-- A result slot (R372 to R375). -/
structure Slot where
  state   : SlotSt := .free
  session : BitVec 32 := 0
  seq     : BitVec 32 := 0
  opcode  : BitVec 16 := 0
  tag     : BitVec 32 := 0
  nq      : Option Nat := none
  status  : Status := .ok
  fields  : List Fld := []
  readOnce : Bool := false
  work    : Work := .none
  ended   : Bool := false
deriving DecidableEq, Repr

/-- A loaded Production (R379 to R381, R402). -/
structure Production where
  used      : Bool := false
  pid       : W64 := 0
  digest    : List Byte := []
  publisher : List Byte := []
  cores     : List Nat := []
  ensembles : List Nat := []
  shards    : List (Nat × Nat) := []
  colls     : List Nat := []
  maps      : List Nat := []
  tables    : List (Nat × Nat × List Byte) := []
  cleared   : List UnitName := []
deriving DecidableEq, Repr

/-- A storage attachment (R382). -/
structure Attach where
  used : Bool := false
  ip   : BitVec 128 := 0
  l4   : BitVec 16 := 4420
  nqn  : List Byte := []
  roce : Bool := false
deriving DecidableEq, Repr

/-- States of a Folio (R410, R411). -/
inductive FolioState where
  | registered | decrypting | opened
deriving DecidableEq, Repr

/-- A Folio in the device (R407 to R412). -/
structure Folio where
  state    : FolioState := .registered
  addr     : Nat := 0
  bytes    : Nat := 0
  manifest : List Byte := []
  digest   : List Byte := []
  key      : Option (List Byte) := none
  manifestOnly : Bool := false
deriving DecidableEq, Repr

/-- A report kept for key release (R406). -/
structure Report where
  nonce  : List Byte
  digest : List Byte
  measGen : W64
deriving DecidableEq, Repr

/-- A session handshake between RESP and FINISH (R398). -/
structure Hs where
  id    : BitVec 32
  mode  : Nat
  lane  : Lane
  init  : List Byte
  resp  : List Byte
  secret : List Byte
deriving DecidableEq, Repr

/-- A credential entry (R394). -/
structure Cred where
  kind   : BitVec 3 := 0
  digest : List Byte := []
  key    : List Byte := []
deriving DecidableEq, Repr

/-- The security block (R394 to R418). -/
structure Security where
  measGen   : W64 := 0
  secVersion : BitVec 32 := 0
  hostConf  : Bool := false
  namedHosts : List (BitVec 16) := []
  securityNq : BitVec 6 := 0
  vaultEpoch : BitVec 32 := 0
  keyDenials : BitVec 16 := 0
  handshakeFails : BitVec 16 := 0
  attestBusy : BitVec 16 := 0
  attestCount : Nat := 0
  attestSecond : Nat := 0
  credAddr  : BitVec 48 := 0
  credEntry : BitVec 5 := 0
  credKind  : BitVec 3 := 0
  credStatus : BitVec 16 := 0
  creds     : Tab Cred := []
  folios    : Tab Folio := []
  reports   : List Report := []
  handshakes : List Hs := []
  nonce     : List Byte := []
deriving DecidableEq, Repr

/-- Phases of bring-up (R443). -/
inductive BPhase where
  | curator | clocks | network | memory | links | compute | ready | failed
deriving DecidableEq, Repr

/-- Firmware update state (R443). -/
inductive UpdateState where
  | none | staged | activating
deriving DecidableEq, Repr

/-- A partial reset in progress (R430 to R434). -/
structure ResetOp where
  unit     : UnitName
  scope    : Nat
  index    : Nat
  wipe     : Bool
  quiesced : Bool := false
  wiped    : Bool := false
  oldGen   : BitVec 32
  newGen   : BitVec 32
  ensemble : Option Nat := none
deriving DecidableEq, Repr

/-- The power state of the module (R445 to R459). -/
inductive Power where
  | off | held | on
deriving DecidableEq, Repr

/-- The Calibration page of a module whose sections are all zero: the header with its magic, version and CRC (R461). -/
def factoryPage : List Byte :=
  [0x41, 0x43, 0x56, 0x4B, 1, 0] ++ List.replicate 54 0 ++ [0xEE, 0x6B, 0xF6, 0x5D] ++ List.replicate 8128 0

/-- What fuses and module flash hold across power cycles (R420): of each bank its version, whether it is valid, the digest its image is
signed over. -/
structure Flash where
  fuseCat    : List (BitVec 128) := []
  moduleCat  : List (BitVec 128) := []
  runtimeCat : List (BitVec 128) := []
  runtimeValid : Bool := true
  coldStarts : BitVec 32 := 1
  bank       : Bool := false
  bankVersion0 : BitVec 32 := 0
  bankVersion1 : BitVec 32 := 0
  bankValid0 : Bool := true
  bankValid1 : Bool := true
  bankDigest0 : List Byte := []
  bankDigest1 : List Byte := []
  calPage    : List Byte := factoryPage
  thermalTrips : BitVec 32 := 0
  lastOffCause : BitVec 8 := 0
  powerLog   : List (BitVec 8) := []
  condition  : Option (List Byte) := none
  serial     : List Byte := List.replicate 16 0
deriving DecidableEq, Repr

/-- The module: pins, power, sensors (R385, R386, R447 to R465). -/
structure Module where
  power     : Power := .on
  modEn     : Bool := true
  modRstN   : Bool := true
  pwrOk     : Bool := false
  tripped   : Bool := false
  slotId    : BitVec 6 := 0
  calValid  : Bool := true
  bladeFault : Bool := false
  senseFallback : BitVec 6 := 0
  sensorOpen : BitVec 16 := 0
  powerCapW : BitVec 12 := 2400
  vinMv     : BitVec 16 := 0
  iin       : BitVec 16 := 0
  pinW      : BitVec 16 := 0
  tInlet    : BitVec 16 := 0
  tj        : List Int := []
  paceM     : List (BitVec 16) := []
  flow      : BitVec 16 := 4000
  flowLow   : Bool := false
  capLimited : Bool := false
  thermalLimited : Bool := false
  throttleEvents : BitVec 32 := 0
  telemetryAddr : W64 := 0
  telemetryUs : Nat := 0
  phasesLost : List (Nat × Nat) := []
deriving DecidableEq, Repr

/-- The Curator: sessions, results, Productions, storage, bring-up, firmware (R388, R443). -/
structure Curator where
  sessions  : List Session := []
  nextSession : BitVec 32 := 1
  slots     : Tab Slot := []
  slotSeq   : BitVec 32 := 0
  rehearsal : Bool := false
  cmdDrops  : BitVec 32 := 0
  slotExpired : BitVec 32 := 0
  prods     : Tab Production := []
  attach    : Tab Attach := []
  ckptHolds : List (Nat × Nat) := []
  phase     : BPhase := .curator
  failPhase : BitVec 4 := 0
  failStatus : BitVec 16 := 0
  catRejected : Bool := false
  catFull   : Bool := false
  catApplied : List (List Byte) := []
  deviceGen : BitVec 32 := 0
  deviceQueue : BitVec 6 := 0
  deviceTag : BitVec 32 := 0
  deviceInReset : Bool := false
  updateState : UpdateState := .none
  stagedDigest : List Byte := []
  stagedVersion : BitVec 32 := 0
  fwQueue   : List Instr := []
  cores     : BitVec 8 := 0xFF
  takeovers : BitVec 16 := 0
  coresDarkened : BitVec 16 := 0
  phaseEnd  : Tab (BitVec 48) := []
  resets    : List ResetOp := []
  wavesDone : Nat := 0
deriving DecidableEq, Repr

/-! ## Outcomes and the whole state -/

/-- Faults: this block has none; every command is answered, held or ignored as the spec says. Raised by nobody; safe. -/
inductive Fault where
  | none
deriving DecidableEq, Repr

/-- Refusals. -/
inductive Refusal where
  /-- Raised by exec's arm of a row that has no meaning yet; safe: nothing is claimed of it. -/
  | notModelled (mnemonic : String)
deriving DecidableEq, Repr

/-- The block. `pending` is the queue of commands, first in first out; `held` are requests a Stage door holds for a Core under
takeover (R428) with `heldSessions` the sessions of the commands among them (R368), `released` those it has released and the requests a firmware activation kept (R441), which enter the queue at
the next tick; `out` is what has left by its ports; `freeCtr` is the
model's own counter of free values drawn; `now` is the Curator's timer (R333). -/
structure State where
  pending  : List Instr := []
  released : List Instr := []
  held     : List (Nat × Instr) := []
  heldSessions : List (Nat × BitVec 32) := []
  now      : Nat := 0
  freeCtr  : Nat := 0
  out      : List Out := []
  raised   : List Notice := []
  mem      : List Host.Cell := []
  cores    : Tab Core := []
  troupes  : Tab Troupe := []
  engines  : Tab RootEng := []
  stages   : Tab Stage := []
  dies     : Tab GalDie := []
  vault    : Vault := {}
  cons     : Tab Cons := []
  windows  : Tab Window := []
  jobSeq   : BitVec 32 := 0
  closeTick : Nat := 0
  nqs      : Tab NQ := []
  ensembles : Tab Ensemble := []
  mio      : Mioder := {}
  coll     : CollEng := {}
  cur      : Curator := {}
  sec      : Security := {}
  mod      : Module := {}
  flash    : Flash := {}
deriving DecidableEq, Repr

/-- The block right after reset: a cold start has begun, its first phase is CURATOR (R420, R443), nothing waits. -/
def State.reset : State := {}

end Sys2Proof.Machine
end

