-- ==== Sys2Proof/Machine/Ops.lean ====
section
/-! DEFINITION. The named operations over State: units and their names, memory and its address map, notices, replies.
Log entries with the readings and choices that are the model's: 3, 6, 9, 10. -/

namespace Sys2Proof.Machine

open Host (Outcome)

/-- The outcome of every command of this block is a next state. -/
abbrev Out1 := Outcome State Fault Refusal

/-! ## Units -/

def State.core (s : State) (c : Nat) : Core := Tab.get {} s.cores c
def State.setCore (s : State) (c : Nat) (x : Core) : State := { s with cores := Tab.set s.cores c x }
def State.modCore (s : State) (c : Nat) (f : Core → Core) : State := s.setCore c (f (s.core c))
def State.troupe (s : State) (t : Nat) : Troupe := Tab.get {} s.troupes t
def State.setTroupe (s : State) (t : Nat) (x : Troupe) : State := { s with troupes := Tab.set s.troupes t x }
def State.modTroupe (s : State) (t : Nat) (f : Troupe → Troupe) : State := s.setTroupe t (f (s.troupe t))
def State.engine (s : State) (t : Nat) : RootEng := Tab.get {} s.engines t
def State.setEngine (s : State) (t : Nat) (x : RootEng) : State := { s with engines := Tab.set s.engines t x }
def State.modEngine (s : State) (t : Nat) (f : RootEng → RootEng) : State := s.setEngine t (f (s.engine t))
def State.stage (s : State) (t : Nat) : Stage := Tab.get {} s.stages t
def State.setStage (s : State) (t : Nat) (x : Stage) : State := { s with stages := Tab.set s.stages t x }
def State.modStage (s : State) (t : Nat) (f : Stage → Stage) : State := s.setStage t (f (s.stage t))
def State.die (s : State) (d : Nat) : GalDie := Tab.get {} s.dies d
def State.setDie (s : State) (d : Nat) (x : GalDie) : State := { s with dies := Tab.set s.dies d x }
def State.modDie (s : State) (d : Nat) (f : GalDie → GalDie) : State := s.setDie d (f (s.die d))
def State.con (s : State) (n : Nat) : Cons := Tab.get {} s.cons n
def State.setCon (s : State) (n : Nat) (x : Cons) : State := { s with cons := Tab.set s.cons n x }
def State.modCon (s : State) (n : Nat) (f : Cons → Cons) : State := s.setCon n (f (s.con n))
def State.nq (s : State) (q : Nat) : NQ := Tab.get {} s.nqs q
def State.setNq (s : State) (q : Nat) (x : NQ) : State := { s with nqs := Tab.set s.nqs q x }
def State.modNq (s : State) (q : Nat) (f : NQ → NQ) : State := s.setNq q (f (s.nq q))
def State.group (s : State) (g : Nat) : VGroup := Tab.get {} s.vault.groups g
def State.setGroup (s : State) (g : Nat) (x : VGroup) : State := { s with vault := { s.vault with groups := Tab.set s.vault.groups g x } }
def State.modGroup (s : State) (g : Nat) (f : VGroup → VGroup) : State := s.setGroup g (f (s.group g))
def State.ensemble (s : State) (e : Nat) : Ensemble := Tab.get {} s.ensembles e
def State.setEnsemble (s : State) (e : Nat) (x : Ensemble) : State := { s with ensembles := Tab.set s.ensembles e x }
def State.assoc (s : State) (a : Nat) : Assoc := Tab.get {} s.mio.assocs a
def State.setAssoc (s : State) (a : Nat) (x : Assoc) : State := { s with mio := { s.mio with assocs := Tab.set s.mio.assocs a x } }
def State.modAssoc (s : State) (a : Nat) (f : Assoc → Assoc) : State := s.setAssoc a (f (s.assoc a))
def State.port (s : State) (p : Nat) : Port := Tab.get {} s.mio.ports p
def State.setPort (s : State) (p : Nat) (x : Port) : State := { s with mio := { s.mio with ports := Tab.set s.mio.ports p x } }
def State.modPort (s : State) (p : Nat) (f : Port → Port) : State := s.setPort p (f (s.port p))
def State.slot (s : State) (k : Nat) : Slot := Tab.get {} s.cur.slots k
def State.setSlot (s : State) (k : Nat) (x : Slot) : State := { s with cur := { s.cur with slots := Tab.set s.cur.slots k x } }
def State.collOf (s : State) (k : Nat) : Coll := Tab.get {} s.coll.colls k
def State.setColl (s : State) (k : Nat) (x : Coll) : State := { s with coll := { s.coll with colls := Tab.set s.coll.colls k x } }
def State.mapping (s : State) (k : Nat) : Mapping := Tab.get {} s.coll.maps k
def State.setMapping (s : State) (k : Nat) (x : Mapping) : State := { s with coll := { s.coll with maps := Tab.set s.coll.maps k x } }

/-- An array of a Core. -/
def Core.arr (c : Core) : ArrayId → Arr
  | .arrA => c.arrA
  | .arrB => c.arrB

/-- A Core with one array replaced. -/
def Core.setArr (c : Core) (a : ArrayId) (x : Arr) : Core :=
  match a with
  | .arrA => { c with arrA := x }
  | .arrB => { c with arrB := x }

/-- Stage of a Core, Troupe of a Core, Stage of a Troupe (R2). -/
def stageOfCore (c : Nat) : Nat := c / 128
def troupeOfCore (c : Nat) : Nat := c / 16
def stageOfTroupe (t : Nat) : Nat := t / 8
/-- Logical Cores of a Troupe. -/
def coresOfTroupe (t : Nat) : List Nat := (List.range 16).map (16 * t + ·)
/-- Troupes of a Stage. -/
def troupesOfStage (st : Nat) : List Nat := (List.range 8).map (8 * st + ·)
/-- Stage of a Conservator (R17). -/
def stageOfCons (n : Nat) : Nat := n / 16

/-! ## Status codes (R371) -/

/-- The code of a status. -/
def statusCode : Status → Nat
  | .ok => 0x0000 | .notReady => 0x0001 | .gone => 0x0003 | .busy => 0x0004 | .denied => 0x0005 | .badParam => 0x0006
  | .reset => 0x0007 | .deadlineMiss => 0x0008 | .singular => 0x0009 | .numeric => 0x000A | .versionGone => 0x000B
  | .rearmReject => 0x000C | .dark => 0x000D | .noSession => 0x000E | .integrity => 0x000F

/-! ## Unit references and names (R19, R20) -/

/-- A unit reference, read. -/
inductive URef where
  | core (c : Nat)
  | troupe (t : Nat)
  | stage (st : Nat)
  | device
  | ensemble (e : Nat)
deriving DecidableEq, Repr

/-- The reference a 32-bit value holds; none where its kind is reserved, its index out of range or an unused bit set (R19). -/
def URef.ofBits (v : Nat) : Option URef :=
  let kind := bitsOf v 31 28
  let i := bitsOf v 11 0
  if bitsOf v 27 12 ≠ 0 then none
  else if kind = 0 then (if i < 512 then some (.core i) else none)
  else if kind = 1 then (if i < 32 then some (.troupe i) else none)
  else if kind = 2 then (if i < 4 then some (.stage i) else none)
  else if kind = 3 then (if i = 0 then some .device else none)
  else if kind = 4 then some (.ensemble i)
  else none

/-- The 32-bit value of a reference (R19). -/
def URef.bits : URef → Nat
  | .core c => c
  | .troupe t => 0x1 * 2 ^ 28 + t
  | .stage st => 0x2 * 2 ^ 28 + st
  | .device => 0x3 * 2 ^ 28
  | .ensemble e => 0x4 * 2 ^ 28 + e

/-- Device number of a unit name (R20). -/
def nameDevice (u : UnitName) : Nat := fld u 47 32
/-- Unit reference of a unit name (R20). -/
def nameRef (u : UnitName) : Option URef := URef.ofBits (fld u 31 0)
/-- Kind of a unit name's reference (R19). -/
def nameKind (u : UnitName) : Nat := fld u 31 28
/-- The name of a unit of this device. -/
def State.nameOf (s : State) (r : URef) : UnitName := BitVec.ofNat 48 (s.mio.deviceNumber.toNat * 2 ^ 32 + r.bits)
/-- A name is of this device. -/
def State.isHere (s : State) (u : UnitName) : Bool := nameDevice u == s.mio.deviceNumber.toNat

/-- Leaf Cores a hardware unit covers (R2). -/
def URef.leaves : URef → List Nat
  | .core c => [c]
  | .troupe t => coresOfTroupe t
  | .stage st => (List.range 128).map (128 * st + ·)
  | .device => List.range 512
  | .ensemble _ => []

/-- Reset generation of a unit (R21, R431). -/
def State.genOf (s : State) : URef → BitVec 32
  | .core c => (s.core c).resetGen
  | .troupe t => (s.troupe t).resetGen
  | .stage st => (s.stage st).resetGen
  | .device => s.cur.deviceGen
  | .ensemble e => (s.ensemble e).resetGen

/-- Report queue of a unit (R21). -/
def State.queueOf (s : State) : URef → Nat
  | .core c => (s.core c).reportQueue.toNat
  | .troupe t => (s.troupe t).reportQueue.toNat
  | .stage st => (s.stage st).reportQueue.toNat
  | .device => s.cur.deviceQueue.toNat
  | .ensemble e => (s.ensemble e).reportQueue.toNat

/-- The count of a Troupe's timer (R16 text, R333). -/
def State.troupeTimer (s : State) (t : Nat) : Nat := s.now - (s.troupe t).timerStart

/-- The time stamp of a notice by its source (R186, R333). -/
def State.stampOf (s : State) : URef → Nat
  | .core c => s.troupeTimer (troupeOfCore c)
  | .troupe t => s.troupeTimer t
  | .stage _ => s.now
  | .device => s.now
  | .ensemble _ => s.now

/-! ## Notices (R186 to R190) -/

/-- Notices raised join those not yet offered, one for each distinct queue named. -/
def State.raise (s : State) (queues : List Nat) (kind : Nat) (src : URef) (status : Status) (tag : Nat) (payload : List Byte) : State :=
  { s with raised := s.raised ++ (dedup queues).map (fun q =>
      { queue := q, kind := BitVec.ofNat 16 kind, source := s.nameOf src, status := status, srcGen := s.genOf src,
        stamp := BitVec.ofNat 48 (s.stampOf src), tag := BitVec.ofNat 32 tag, payload := payload }) }

/-! ## Memory (R10, R11, R196) -/

/-- A byte of memory; an unlisted address reads as zero. -/
def Memory.get (m : List Host.Cell) (a : Nat) : Byte := Tab.get 0 m a

/-- A byte of memory written; a zero is not listed. -/
def Memory.put (m : List Host.Cell) (a : Nat) (b : Byte) : List Host.Cell := if b = 0 then Tab.erase m a else Tab.set m a b

/-- `n` bytes from an address. -/
def Memory.read (m : List Host.Cell) : Nat → Nat → List Byte
  | _, 0 => []
  | a, n + 1 => Memory.get m a :: Memory.read m (a + 1) n

/-- Bytes written from an address. -/
def Memory.write (m : List Host.Cell) : Nat → List Byte → List Host.Cell
  | _, [] => m
  | a, b :: t => Memory.write (Memory.put m a b) (a + 1) t

/-- The canonical form: addresses strictly rising, no zero byte listed. -/
def Memory.wf (m : List Host.Cell) : Bool := Tab.ascending m && m.all (fun c => c.2 != 0)

/-- Bytes [a, a + n) erased. -/
def Memory.zero (m : List Host.Cell) (a n : Nat) : List Host.Cell := Tab.drop (fun k => decide (a ≤ k ∧ k < a + n)) m

def State.bytes (s : State) (a n : Nat) : List Byte := Memory.read s.mem a n
def State.poke (s : State) (a : Nat) (b : List Byte) : State := { s with mem := Memory.write s.mem a b }
def State.zeroMem (s : State) (a n : Nat) : State := { s with mem := Memory.zero s.mem a n }
/-- The little-endian number of `n` bytes (R11). -/
def State.num (s : State) (a n : Nat) : Nat := ofLe (s.bytes a n)
/-- A little-endian number stored in `n` bytes (R11). -/
def State.pokeNum (s : State) (a n v : Nat) : State := s.poke a (leBytes n v)

/-- The four regions of the address map (R196). -/
inductive Region where
  | vault | gallery | wings | registers
deriving DecidableEq, Repr

def vaultEnd : Nat := 0x020000000000
def galleryBase : Nat := 0x020000000000
def galleryEnd : Nat := 0x020500000000
def wingsBase : Nat := 0x021000000000
def wingsEnd : Nat := 0x021080000000
def regBase : Nat := 0x030000000000
def regEnd : Nat := 0x031000000000

/-- The region of an address (R196). -/
def regionOf (a : Nat) : Option Region :=
  if a < vaultEnd then some .vault
  else if a < galleryEnd then some .gallery
  else if wingsBase ≤ a ∧ a < wingsEnd then some .wings
  else if regBase ≤ a ∧ a < regEnd then some .registers
  else none

/-- The region of a span of `n` > 0 bytes that lies in one region (R198). -/
def spanRegion (a n : Nat) : Option Region :=
  match regionOf a with
  | none => none
  | some r => if regionOf (a + n - 1) = some r then some r else none

/-- Wings of a logical Core (R196). -/
def wingsOf (c : Nat) : Nat := wingsBase + c * 0x400000
/-- Vault group of an address (R209). -/
def groupOf (a : Nat) : Nat := a / 0x4000000000
/-- Stage and die of a Gallery address, as die number 2·stage + die (R202). -/
def dieOf (a : Nat) : Nat := 2 * ((a - galleryBase) / 0x140000000) + (a - galleryBase) % 0x140000000 / 0xA0000000
/-- The Troupe under a Gallery address (R202). -/
def troupeUnder (a : Nat) : Nat :=
  8 * ((a - galleryBase) / 0x140000000) + (a - galleryBase) % 0xA0000000 / 0x14000000
/-- First address of a Gallery sector: Troupe and die 0 or 1 (R202). -/
def sectorBase (t d : Nat) : Nat := galleryBase + (t / 8) * 0x140000000 + d * 0xA0000000 + (t % 8) * 0x14000000
def sectorSize : Nat := 0x14000000

/-- Cores whose Wings a span of Wings touches (R196). -/
def coresOfSpan (a n : Nat) : List Nat :=
  let lo := (a - wingsBase) / 0x400000
  let hi := (a + n - 1 - wingsBase) / 0x400000
  (List.range (hi + 1 - lo)).map (lo + ·)

/-- Lines of `k` bytes that a span touches. -/
def linesOf (k a n : Nat) : List Nat :=
  let lo := a / k
  let hi := (a + n - 1) / k
  (List.range (hi + 1 - lo)).map (fun i => (lo + i) * k)

/-- A span touches a line of the list whose lines are `k` bytes. -/
def touches (k a n : Nat) (lines : List Nat) : Bool := lines.any (fun l => decide (l < a + n ∧ a < l + k))

/-- The line is wholly inside a span. -/
def covers (k a n l : Nat) : Bool := decide (a ≤ l ∧ l + k ≤ a + n)

/-- Lines of `k` bytes that a span covers only in part. -/
def edgeLines (k a n : Nat) : List Nat := (linesOf k a n).filter (fun l => !covers k a n l)

/-! ## Vault groups (R213, R214) -/

def VGroup.chan (g : VGroup) (k : Nat) : ChState := Tab.get .active g.ch k
def VGroup.page (g : VGroup) (p : Nat) : PageState := Tab.get {} g.pages p

/-- Channels erased for every line: HELD, RETRAINING or FAILED (R213). -/
def VGroup.erasedCh (g : VGroup) : List Nat :=
  (List.range 18).filter (fun k => match g.chan k with
    | .held => true | .retraining => true | .failed => true | .active => false | .rebuilding => false)

/-- A group is LOST (R213). -/
def VGroup.isLost (g : VGroup) : Bool := g.lost || decide (3 ≤ g.erasedCh.length)

/-- Number of the group's state (R224). -/
def VGroup.stateNo (g : VGroup) : Nat := if g.isLost then 3 else min 3 g.erasedCh.length

/-- Erasures of the lines of a page (R214). -/
def VGroup.erasures (g : VGroup) (p : Nat) : List Nat :=
  let pg := g.page p
  let rb := if pg.stale then (List.range 18).filter (fun k => decide (g.chan k = .rebuilding)) else []
  let ec := if pg.erasedCh.toNat < 18 then [pg.erasedCh.toNat] else []
  dedup (g.erasedCh ++ rb ++ ec)

/-- Page number of a Vault address in its group (R209). -/
def pageOf (a : Nat) : Nat := a % 0x4000000000 / 0x10000

/-- Vault groups that a span touches (R209). -/
def groupsOf (a n : Nat) : List Nat := (List.range (groupOf (a + n - 1) + 1 - groupOf a)).map (groupOf a + ·)

/-- What a read meets in one group of its span: a LOST group, three erasures or a poisoned line (R213, R214, R218). -/
def State.groupReadFails (s : State) (a n gi : Nat) : Bool :=
  let g := s.group gi
  let base := gi * 0x4000000000
  g.isLost || touches 1024 a n g.poison ||
    g.pages.any (fun (p, _) => decide (3 ≤ (g.erasures p).length) &&
      decide (base + p * 0x10000 < a + n ∧ a < base + (p + 1) * 0x10000))

/-- A read of a Vault span ends with INTEGRITY (R213, R214, R218). -/
def State.vaultReadFails (s : State) (a n : Nat) : Bool := (groupsOf a n).any (s.groupReadFails a n)

/-- Gallery dies that a span touches (R202). -/
def diesOf (a n : Nat) : List Nat := (List.range (dieOf (a + n - 1) + 1 - dieOf a)).map (dieOf a + ·)

/-- What a Gallery read meets: a poisoned line (R204). -/
def State.galleryPoison (s : State) (a n : Nat) : List Nat :=
  (diesOf a n).flatMap (fun d => (s.die d).poisoned.filter (fun l => decide (l < a + n ∧ a < l + 256)))

/-! ## Doors (R428, R432) -/

/-- A takeover of the Core is under way, so its door holds requests (R428). -/
def State.holding (s : State) (c : Nat) : Bool := (s.core c).takeover.isSome

/-- The scopes of resets (R430). -/
def coreScope : Nat := 0
def troupeScope : Nat := 1
def stageScope : Nat := 2
def deviceScope : Nat := 3

/-- A reset covers a Troupe (R430). -/
def ResetOp.coversTroupe (r : ResetOp) (t : Nat) : Bool :=
  if r.scope = 1 then r.index == t else if r.scope = 2 then r.index == stageOfTroupe t else r.scope == 3

/-- A reset covers a Core (R430). -/
def ResetOp.coversCore (r : ResetOp) (c : Nat) : Bool :=
  if r.scope = 0 then r.index == c else r.coversTroupe (troupeOfCore c)

/-- A reset covers a Stage (R430). -/
def ResetOp.coversStage (r : ResetOp) (st : Nat) : Bool :=
  if r.scope = 2 then r.index == st else r.scope == 3

/-- The Gallery sectors above a Troupe are behind a closed door (R432). -/
def State.sectorShut (s : State) (t : Nat) : Bool :=
  s.cur.resets.any (fun r => r.coversTroupe t && (decide (2 ≤ r.scope) || r.wipe))

/-! ## The checks every access to memory meets -/

/-- Who asks: a stream of a Core, a host command, a Mioder peer (a host or a Kovik), a unit of the device itself. -/
inductive Asker where
  | stream
  | command
  | peer (host : Bool)
  | unit
deriving DecidableEq, Repr

/-- Entry of the window table that a span touches (R235). -/
def State.windowAt (s : State) (a n : Nat) : Option (Nat × Window) :=
  s.windows.find? (fun (_, w) => w.used && !w.far && decide (w.base < a + n ∧ a < w.base + 2 * w.size))

/-- The Folio whose region a span touches (R411). -/
def State.folioAt (s : State) (a n : Nat) : Option Folio :=
  (s.sec.folios.find? (fun (_, f) => decide (f.addr < a + n ∧ a < f.addr + f.bytes))).map (·.2)

/-- A read of a Folio's region (R411). -/
def State.folioReadDenied (s : State) (w : Asker) (a n : Nat) : Bool :=
  match s.folioAt a n with
  | none => false
  | some f => match f.state, w with
    | .registered, _ => false
    | _, .unit => false
    | .decrypting, .stream => true
    | .opened, .stream => false
    | _, .command => true
    | _, .peer _ => true

/-- A loaded Folio confines the device (R412): its manifest has SEALED_JOB and it is DECRYPTING or OPEN. -/
def Folio.seals (f : Folio) : Bool := f.state != .registered && bitOf (ofLe (f.manifest.take 8)) 48

/-- The device is confined (R412). -/
def State.confined (s : State) : Bool := s.sec.folios.any (fun (p : Nat × Folio) => p.2.seals)

/-- Wings of a dark Core, or of one under reset (R198). -/
def State.wingsStatus (s : State) (a n : Nat) : Option Status :=
  let cs := coresOfSpan a n
  if cs.any (fun c => (s.core c).dark) then some .dark
  else if cs.any (fun c => (s.core c).inReset) then some .reset
  else none

/-- Troupes under the Gallery sectors of a span, ascending by address (R202). -/
def troupesUnder (a n : Nat) : List Nat :=
  let lo := (a - galleryBase) / sectorSize
  let hi := (a + n - 1 - galleryBase) / sectorSize
  (List.range (hi + 1 - lo)).map (fun i => 8 * ((lo + i) / 16) + (lo + i) % 8)

/-- Doors of the Gallery sectors of a span (R432). -/
def State.galleryShut (s : State) (a n : Nat) : Bool := (troupesUnder a n).any s.sectorShut

/-- How a read of device-local memory ends before its bytes are taken; none: it is served (R198, R204, R214, R411, R432). -/
def State.readStatus (s : State) (w : Asker) (a n : Nat) : Option Status :=
  if n = 0 then none else
  match spanRegion a n with
  | none => some .badParam
  | some .registers => some .badParam
  | some .vault =>
    if s.folioReadDenied w a n then some .denied
    else if s.vaultReadFails a n then some .integrity else none
  | some .gallery =>
    if s.galleryShut a n then some .reset
    else if (s.galleryPoison a n).isEmpty then none else some .integrity
  | some .wings => s.wingsStatus a n

/-- How a write of device-local memory ends before its bytes are stored; none: it is served (R198, R204, R213, R235, R432). -/
def State.writeStatus (s : State) (w : Asker) (a n : Nat) : Option Status :=
  if n = 0 then none else
  match spanRegion a n with
  | none => some .badParam
  | some .registers => some .badParam
  | some .vault =>
    if w ≠ .unit ∧ (s.windowAt a n).isSome then some .denied
    else if (groupsOf a n).any (fun g => (s.group g).isLost) then some .integrity
    else if (edgeLines 1024 a n).any (fun l => s.vaultReadFails l 1024) then some .integrity
    else none
  | some .gallery =>
    if w ≠ .unit ∧ (s.windowAt a n).isSome then some .denied
    else if s.galleryShut a n then some .reset
    else if (s.galleryPoison a n).any (fun l => !covers 256 a n l) then some .integrity else none
  | some .wings => s.wingsStatus a n

/-- A group is HELD or RETRAINING: line writes mark their page STALE (R216). -/
def VGroup.marksStale (g : VGroup) : Bool :=
  (List.range 18).any (fun k => match g.chan k with
    | .held => true | .retraining => true | .active => false | .rebuilding => false | .failed => false)

/-- Pages of a Vault span marked STALE. -/
def markPages (g : VGroup) : List Nat → VGroup
  | [] => g
  | p :: t => markPages { g with pages := Tab.set g.pages p { g.page p with stale := true } } t

/-- What a line write leaves in one Vault group: poison removed by a whole line, pages marked STALE (R216, R218). -/
def VGroup.written (g : VGroup) (a n gi : Nat) : VGroup :=
  let g := { g with poison := g.poison.filter (fun l => !covers 1024 a n l) }
  if g.marksStale then markPages g (((linesOf 0x10000 a n).filter (fun p => groupOf p == gi)).map pageOf) else g

/-- A line write in the Vault groups it touches (R216, R218). -/
def State.vaultWritten (s : State) (a n : Nat) : State :=
  (groupsOf a n).foldl (fun s gi =>
    let g := (s.group gi).written a n gi
    if g = s.group gi then s else s.setGroup gi g) s

/-- What a write leaves in the Gallery dies it touches: whole lines are no longer poisoned (R204). -/
def State.galleryWritten (s : State) (a n : Nat) : State :=
  (diesOf a n).foldl (fun s d =>
    if (s.die d).poisoned.isEmpty then s
    else s.modDie d (fun x => { x with poisoned := x.poisoned.filter (fun l => !covers 256 a n l) })) s

/-- Segments of an active migration that a write makes dirty are tracked by the migration itself (R323). -/
def migGranule : Nat := 65536

/-- A write that was served: the bytes, and what they leave behind in the tier's own state. -/
def State.store (s : State) (a : Nat) (b : List Byte) : State :=
  let n := b.length
  if n = 0 then s else
  let s := s.poke a b
  match regionOf a with
  | some .vault => s.vaultWritten a n
  | some .gallery => s.galleryWritten a n
  | some .wings => s
  | some .registers => s
  | none => s

/-- A read, checked. -/
def State.readMem (s : State) (w : Asker) (a n : Nat) : Except Status (List Byte) :=
  match s.readStatus w a n with
  | some e => .error e
  | none => .ok (s.bytes a n)

/-- A write, checked. -/
def State.writeMem (s : State) (w : Asker) (a : Nat) (b : List Byte) : Except Status State :=
  match s.writeStatus w a b.length with
  | some e => .error e
  | none => .ok (s.store a b)

/-- A Stage door answered a request with RESET (R432, R444). -/
def State.doorCount (s : State) (st : Nat) : State := s.modStage st (fun x => { x with doorAnswers := satInc x.doorAnswers })

/-- An access to memory that a Stage door answered with RESET (R432, R444). -/
def State.doorAt (s : State) (a : Nat) (e : Status) : State :=
  if e ≠ .reset then s
  else match regionOf a with
    | some .wings => s.doorCount (stageOfCore ((a - wingsBase) / 0x400000))
    | some .gallery => s.doorCount (stageOfTroupe (troupeUnder a))
    | some .vault => s
    | some .registers => s
    | none => s

/-- A read that ended with INTEGRITY is counted in its Vault group (R224). -/
def State.vaultLostRead (s : State) (g : Nat) : State := s.modGroup g (fun x => { x with uncorrectable := satInc x.uncorrectable })

/-- A read of a span that failed: a read of the Vault that ended with INTEGRITY is counted in the groups where it did, and one a door
answered at its Stage (R224, R444). -/
def State.countRead (s : State) (a n : Nat) (e : Status) : State :=
  if e = .integrity ∧ regionOf a = some .vault then
    ((groupsOf a n).filter (s.groupReadFails a n)).foldl State.vaultLostRead s
  else s.doorAt a e

/-- A read of several spans that failed: the first that failed is counted (R224). -/
def State.countFirst (s : State) (l : List (Nat × Nat)) : State :=
  match l.find? (fun (a, n) => (s.readStatus .unit a n).isSome) with
  | none => s
  | some (a, n) => s.countRead a n ((s.readStatus .unit a n).getD .ok)

/-- A write of a span that failed: the reads of the lines it covers in part are counted where they ended with INTEGRITY (R211, R224);
a group that is LOST is not read. -/
def State.countWrite (s : State) (a n : Nat) (e : Status) : State :=
  if e = .integrity ∧ regionOf a = some .vault then
    (((edgeLines 1024 a n).filter (fun l => !(s.group (groupOf l)).isLost && s.vaultReadFails l 1024)).map groupOf).foldl
      State.vaultLostRead s
  else s.doorAt a e

/-- The Curator is being restarted from a staged bank: its services stop, notices wait (R441). -/
def State.activating (s : State) : Bool := decide (s.cur.updateState = UpdateState.activating)

/-- A Core under takeover whose Wings a span touches: its door holds the request (R198, R428). -/
def State.heldBy (s : State) (a n : Nat) : Option Nat :=
  if n ≠ 0 ∧ spanRegion a n = some .wings then (coresOfSpan a n).find? s.holding else none

/-- A request held at a Core's door (R428). -/
def State.hold (s : State) (c : Nat) (i : Instr) : State := { s with held := s.held ++ [(c, i)] }

/-! ## Free values -/

/-- The model's counter of free values, advanced. -/
def State.fresh (s : State) : State := { s with freeCtr := s.freeCtr + 1 }

/-- Memory of this device whose contents the spec leaves open: every byte of a span a free value; memory that refuses a write keeps its
own. -/
def State.scribble (s : State) (a n : Nat) : State :=
  if n = 0 then s
  else match s.writeMem .unit a ((List.range n).map (Config.undefinedByte s.freeCtr)) with
    | .ok s => s.fresh
    | .error _ => s

end Sys2Proof.Machine
end

