-- ==== Sys2Proof/Machine/Notices.lean ====
section
/-! DEFINITION. Notices and the notice queues (R185 to R194), the notices of the chapters (R225, R435, R439, R469), and the
runtime Catalogue that FAULT and VAULT events write (R425, R427).
Log entries with the readings and choices that are the model's: 6, 35. -/

namespace Sys2Proof.Machine

/-! ## Kinds (R187) -/

def kStreamDone : Nat := 0x0002
def kStreamError : Nat := 0x0003
def kRearmReject : Nat := 0x0004
def kFault : Nat := 0x0010
def kReset : Nat := 0x0011
def kTable : Nat := 0x0012
def kEntropy : Nat := 0x0013
def kTap : Nat := 0x0014
def kRoot : Nat := 0x0020
def kGns : Nat := 0x0030
def kCollective : Nat := 0x0031
def kResult : Nat := 0x0040
def kSweep : Nat := 0x0050
def kLink : Nat := 0x0060
def kVault : Nat := 0x0070
def kSecurity : Nat := 0x0090

/-- A payload of 32 bytes from its fields (R189, R225, R435, R439). -/
def payload32 (fs : List (Nat × Nat × Nat)) : List Byte := leBytes 32 (pack fs)

/-! ## FAULT, RESET and VAULT notices -/

/-- What a FAULT notice reports (R439). -/
structure FaultInfo where
  event  : Nat
  src    : URef
  phys   : Nat := 0x3FF
  logical : Nat := 0x3FF
  ns     : Nat := 0
  entry  : Option (BitVec 128) := none
  stop   : Nat := 0
  status : Status := .ok
deriving DecidableEq, Repr

/-- A FAULT notice to queue 0 and the unit's REPORT_QUEUE (R439). -/
def State.fault (s : State) (f : FaultInfo) : State :=
  s.raise [0, s.queueOf f.src] kFault f.src f.status 0
    (payload32 [(0, 8, f.event), (8, 10, f.phys), (18, 10, f.logical), (28, 1, bit f.entry.isSome), (32, 32, f.ns),
      (64, 128, (f.entry.getD 0).toNat), (192, 4, f.stop)])

/-- Queues of the units a scope covers, and of the unit named (R435). -/
def State.coveredQueues (s : State) (r : URef) : List Nat :=
  match r with
  | .core c => [s.queueOf (.core c)]
  | .troupe t => s.queueOf r :: (coresOfTroupe t).map (fun c => s.queueOf (.core c))
  | .stage st => s.queueOf r :: (troupesOfStage st).map (fun t => s.queueOf (.troupe t)) ++ r.leaves.map (fun c => s.queueOf (.core c))
  | .device => s.queueOf r :: (List.range 4).map (fun st => s.queueOf (.stage st)) ++
      (List.range 32).map (fun t => s.queueOf (.troupe t)) ++ r.leaves.map (fun c => s.queueOf (.core c))
  | .ensemble _ => [s.queueOf r]

/-- A DOOR_CLOSED (1) or DOOR_OPEN (2) notice of a scope (R435). -/
def State.doorNotice (s : State) (event : Nat) (r : URef) (scope : Nat) (wipe : Bool) (oldGen newGen : Nat) (extra : Option Nat) : State :=
  s.raise (s.coveredQueues r ++ extra.toList) kReset r .reset 0
    (payload32 [(0, 8, event), (8, 2, scope), (10, 1, bit wipe), (32, 32, newGen), (64, 32, oldGen)])

/-- A REPLY_DISCARDED notice of a requester (R433, R435). -/
def State.discardNotice (s : State) (c : Nat) (kind : Nat) (oldGen newGen : Nat) (peer : UnitName) : State :=
  s.raise [s.queueOf (.core c)] kReset (.core c) .reset 0
    (payload32 [(0, 8, 3), (11, 4, kind), (32, 32, newGen), (64, 32, oldGen), (96, 48, peer.toNat)])

/-- A VAULT notice to queue 0 and the queue VAULT_NQ names (R225). -/
def State.vaultNotice (s : State) (event : Nat) (st : Nat) (group channel gstate addr count : Nat) : State :=
  s.raise [0, s.vault.vaultNq.toNat] kVault (.stage st)
    (if event = 0x05 ∨ event = 0x08 ∨ event = 0x10 then .integrity else .ok) 0
    (payload32 [(0, 8, event), (8, 3, group), (11, 5, channel), (16, 3, gstate), (64, 48, addr), (128, 32, count)])

/-- An ENTROPY notice of a Troupe to queue 0 (R469): event 1 HEALTH_FAIL, 2 HEALTH_OK. -/
def State.entropyNotice (s : State) (t : Nat) (event : Nat) (forced : Bool) : State :=
  s.raise [0] kEntropy (.troupe t) (if event = 1 then .integrity else .ok) 0
    (payload32 [(0, 8, event), (8, 1, bit forced), (9, 1, bit (s.troupe t).fixedSeed), (16, 16, (s.troupe t).healthFails.toNat)])

/-! ## The runtime Catalogue (R425, R427) -/

def catCore : Nat := 0x01
def catWingsRow : Nat := 0x02
def catGalRow : Nat := 0x03
def catLane : Nat := 0x04
def catVaultCh : Nat := 0x05
def catVaultPage : Nat := 0x06
def catPowerPhase : Nat := 0x07
def catCuratorCore : Nat := 0x08

/-- A runtime entry (R425). -/
def catEntry (kind loc coldStart event : Nat) : BitVec 128 :=
  BitVec.ofNat 128 (pack [(0, 8, kind), (8, 2, 2), (32, 32, loc), (64, 32, coldStart), (96, 32, event)])

/-- A runtime entry appended, with the entry if it was recorded; a full Catalogue records nothing and says so once; a rejected
Catalogue is replaced by a fresh one (R427). -/
def State.record (s : State) (kind loc event : Nat) : State × Option (BitVec 128) :=
  let e := catEntry kind loc s.flash.coldStarts.toNat event
  let old := if s.flash.runtimeValid then s.flash.runtimeCat else []
  if old.length < 4096 then
    ({ s with flash := { s.flash with runtimeCat := old ++ [e], runtimeValid := true } }, some e)
  else if s.cur.catFull then (s, none)
  else (({ s with cur := { s.cur with catFull := true } }).fault { event := 0x0A, src := .device }, none)

/-- The union of the Catalogues as applied (R426, R427). -/
def State.catUnion (s : State) : List (BitVec 128) :=
  s.flash.fuseCat ++ s.flash.moduleCat ++ (if s.flash.runtimeValid then s.flash.runtimeCat else [])

/-- Kind and place of an entry (R425). -/
def entryKind (e : BitVec 128) : Nat := fld e 7 0
def entryLoc (e : BitVec 128) : Nat := fld e 63 32

/-! ## The queues (R190 to R193) -/

/-- Size of a queue's ring in bytes (R185). -/
def NQ.bytes (q : NQ) : Nat := 4096 * 2 ^ q.size.toNat
/-- Used space (R192). -/
def NQ.used (q : NQ) : Nat := (q.tail - q.head).toNat
/-- Free space. -/
def NQ.free (q : NQ) : Nat := q.bytes - q.used

/-- A record's header (R186): 32 bytes. -/
def recHeader (units aux kind seq source status gen stamp tag : Nat) : List Byte :=
  payload32 [(0, 3, units - 1), (8, 8, aux), (16, 16, kind), (32, 32, seq), (64, 48, source), (112, 16, status),
    (128, 32, gen), (160, 48, stamp), (224, 32, tag)]

/-- Bytes written at the producer count, which moves past them (R188, R192); a Vault that refuses the write loses them. -/
def State.nqPut (s : State) (q : Nat) (b : List Byte) : State :=
  let n := s.nq q
  let a := n.base.toNat + n.tail.toNat % n.bytes
  let s := match s.writeMem .unit a b with
    | .ok s => s
    | .error _ => s
  s.modNq q (fun n => { n with tail := n.tail + BitVec.ofNat 32 b.length, announceDue := n.announceDue || n.announce != 0 })

/-- A GAP record (R190, R191). -/
def State.putGap (s : State) (q : Nat) (cause seq count : Nat) : State :=
  let s := s.nqPut q (recHeader 1 cause 0x0001 seq (s.nameOf .device).toNat 0 s.cur.deviceGen.toNat s.now count)
  s.modNq q (fun n => { n with gaps := satInc n.gaps })

/-- An open gap closes and its GAP is written (R190). -/
def State.closeGap (s : State) (q : Nat) : State :=
  let n := s.nq q
  if n.gapOpen then (s.putGap q 0 n.gapSeq.toNat n.gapCount.toNat).modNq q (fun n => { n with gapOpen := false, gapCount := 0 }) else s

/-- A pending flush writes its GAP (R191). -/
def State.flushGap (s : State) (q : Nat) : State :=
  let n := s.nq q
  if n.flushPending then
    (s.putGap q 1 n.flushSeq.toNat n.flushCount.toNat).modNq q (fun n => { n with flushPending := false, flushCount := 0 })
  else s

/-- The filler before the end of a ring, given where the next byte goes and a record's length (R188). -/
def padFor (bytes pos n : Nat) : Nat := if bytes - pos % bytes < n then bytes - pos % bytes else 0

/-- The record of a notice (R186). -/
def noticeRecord (x : Notice) (seq : Nat) : List Byte :=
  let n := 32 + roundUp x.payload.length 32
  recHeader (n / 32) 0 x.kind.toNat seq x.source.toNat (statusCode x.status) x.srcGen.toNat x.stamp.toNat x.tag.toNat ++
    fitBytes (n - 32) x.payload

/-- A record written after any gap and any filler (R188, R190). -/
def State.putRecord (s : State) (q : Nat) (x : Notice) (seq : Nat) : State :=
  let s := s.closeGap q
  let n := s.nq q
  let r := noticeRecord x seq
  let pad := padFor n.bytes n.tail.toNat r.length
  let s := if pad = 0 then s else s.nqPut q (leBytes pad (pack [(0, 3, pad / 32 - 1)]))
  let s := s.nqPut q r
  s.modNq q (fun n => { n with unread := n.unread ++ [(n.tail.toNat, seq)] })

/-- A dropped record opens a gap or adds to it (R190). -/
def NQ.drop (n : NQ) (seq : BitVec 32) : NQ :=
  if n.gapOpen then { n with gapCount := satInc n.gapCount, dropped := satInc n.dropped }
  else { n with gapOpen := true, gapSeq := seq, gapCount := 1, dropped := satInc n.dropped }

/-- A notice offered to a queue: dropped for a disabled queue, written, or dropped into a gap (R190, R192). -/
def State.offer (s : State) (x : Notice) : State :=
  let q := x.queue
  if !(s.nq q).enable then s.modNq q (fun n => { n with dropped := satInc n.dropped })
  else
    let s := s.flushGap q
    let n := s.nq q
    let seq := n.seq
    let s := s.modNq q (fun n => { n with seq := n.seq + 1 })
    let len := 32 + roundUp x.payload.length 32
    let pad := padFor n.bytes (n.tail.toNat + (if n.gapOpen then 32 else 0)) len
    let need := len + pad + (if n.gapOpen then 64 else 32)
    if need ≤ n.free then s.putRecord q x seq.toNat else s.modNq q (fun n => n.drop seq)

/-- NOTICE_OFFER: the oldest notice raised is offered to its queue (R190), after a firmware activation (R441). -/
def execNoticeOffer (s : State) : Out1 :=
  match s.raised with
  | [] => .next s
  | x :: t => .next (if s.activating then s else ({ s with raised := t }).offer x)

/-- A base word that would enable a queue on a ring outside the Vault or not aligned (R192). -/
def badRing (base size : Nat) : Bool := decide (vaultEnd ≤ base) || decide (base % (4096 * 2 ^ size) ≠ 0)

/-- A write of a queue's base word (R192). -/
def State.nqConfig (s : State) (q : Nat) (v : W64) : State :=
  let n := s.nq q
  let base := fld v 47 0
  let size := fld v 51 48
  let en := fld v 53 53 == 1
  if 12 < size then s
  else if n.enable then (if en then s else s.setNq q { n with enable := false })
  else if en && badRing base size then s
  else
    let n := { n with base := BitVec.ofNat 48 base, size := BitVec.ofNat 4 size, trace := fld v 52 52 == 1 }
    s.setNq q (if en then { n with enable := true, head := 0, tail := 0, unread := [] } else n)

/-- Queues 0 to 3 belong to the Curator: host writes to their registers are ignored (R185). -/
def hostQueue (q : Nat) : Bool := decide (4 ≤ q ∧ q < 64)

/-- NQ_CONFIG_WRITE. -/
def execNqConfigWrite (q : QueueNo) (v : W64) (s : State) : Out1 :=
  .next (if hostQueue q.val then s.nqConfig q.val v else s)

/-- A write of NQ_HEAD: not backwards, not beyond NQ_TAIL; reaching it closes a gap (R190, R192). -/
def State.nqHead (s : State) (q : Nat) (v : W64) : State :=
  let n := s.nq q
  let h : BitVec 32 := v.setWidth 32
  if n.used < (h - n.head).toNat then s
  else
    let read := (h - n.head).toNat
    let s := s.setNq q { n with
      head := h
      unread := n.unread.filter (fun (e, _) => decide (read < (BitVec.ofNat 32 e - n.head).toNat)) }
    if h = n.tail ∧ n.enable then s.closeGap q else s

/-- NQ_HEAD_WRITE. -/
def execNqHeadWrite (q : QueueNo) (v : W64) (s : State) : Out1 :=
  .next (if hostQueue q.val then s.nqHead q.val v else s)

/-- A flush: records published and unread are discarded, an open gap closes with them, the GAP is pending (R191). -/
def State.nqFlushNow (s : State) (q : Nat) : State :=
  let n := s.nq q
  if !n.enable || n.flushPending then s
  else
    let first := match n.unread with
      | (_, seq) :: _ => BitVec.ofNat 32 seq
      | [] => if n.gapOpen then n.gapSeq else n.seq
    s.setNq q { n with
      head := n.tail, unread := [], flushPending := true, flushSeq := first,
      flushCount := BitVec.ofNat 32 (satAdd 0xFFFFFFFF n.unread.length (if n.gapOpen then n.gapCount.toNat else 0)),
      gapOpen := false, gapCount := 0, dropped := satInc n.dropped n.unread.length }

/-- NQ_FLUSH: a write of 1 to the field. -/
def execNqFlush (q : QueueNo) (s : State) : Out1 :=
  .next (if hostQueue q.val then s.nqFlushNow q.val else s)

/-- FLUSH_GAP_PUBLISH. -/
def execFlushGapPublish (q : QueueNo) (s : State) : Out1 := .next (if s.activating then s else s.flushGap q.val)

/-! ## Registers of the queues (unit code 0x000, R193) -/

/-- Word `off` of queue `q`'s registers. -/
def NQ.reg (n : NQ) (off : Nat) : Nat :=
  if off = 0x00 then pack [(0, 48, n.base.toNat), (48, 4, n.size.toNat), (52, 1, bit n.trace), (53, 1, bit n.enable)]
  else if off = 0x08 then n.head.toNat
  else if off = 0x10 then pack [(0, 32, n.tail.toNat), (32, 32, n.seq.toNat)]
  else if off = 0x18 then pack [(1, 1, bit n.flushPending), (2, 1, bit n.gapOpen)]
  else if off = 0x20 then pack [(0, 32, n.dropped.toNat), (32, 32, n.gaps.toNat)]
  else if off = 0x28 then n.announce.toNat
  else 0

/-- The RC fields of a queue's word after a read (R12, R193). -/
def NQ.clear (n : NQ) (off : Nat) : NQ := if off = 0x20 then { n with dropped := 0, gaps := 0 } else n

/-- A register write to queue `q`'s word (R185, R192, R193). -/
def State.nqRegWrite (s : State) (q off : Nat) (v : W64) : State :=
  if !hostQueue q then s
  else if off = 0x00 then s.nqConfig q v
  else if off = 0x08 then s.nqHead q v
  else if off = 0x18 then (if fld v 0 0 = 1 then s.nqFlushNow q else s)
  else if off = 0x28 then s.modNq q (fun n => { n with announce := v })
  else s

end Sys2Proof.Machine
end

