-- ==== Sys2Proof/Machine/Gallery.lean ====
section
/-! DEFINITION. The Gallery: lines, their code, spare rows, patrol scrub, line adders (R202 to R207).
Log entry with the readings and choices that are the model's: 36. -/

namespace Sys2Proof.Machine

/-- Bank of a Gallery address in its die, 0 to 511 (R225); the geometry is open. -/
def bankOf (a : Nat) : Nat := Config.galleryBank ((a - galleryBase) % 0xA0000000) % 512
/-- Row of a Gallery address in its bank (R425); the geometry is open. -/
def rowOf (a : Nat) : Nat := Config.galleryRow ((a - galleryBase) % 0xA0000000) % 65536
/-- Spare rows of a bank (R205). -/
def sparesPerBank : Nat := 32
/-- Lines of a die (R202). -/
def linesPerDie : Nat := 0xA0000000 / 256

/-- The last spare row of a bank is in use: GAL_SPARES_OUT once for that bank (R205). -/
def State.sparesOut (s : State) (a : Nat) : State :=
  let d := dieOf a
  let b := bankOf a
  if Tab.get 0 (s.die d).spareUsed b < sparesPerBank || (s.die d).sparesOut.contains b then s
  else (s.modDie d (fun x => { x with sparesOut := x.sparesOut ++ [b] })).vaultNotice 0x12 (d / 2) (d % 2) 0x1F 0 0 b

/-- The row of an address is copied to a spare row of its bank and recorded, while the bank has one (R205). -/
def State.spareRow (s : State) (a : Nat) : State :=
  let d := dieOf a
  let b := bankOf a
  if sparesPerBank ≤ Tab.get 0 (s.die d).spareUsed b then s.sparesOut a
  else
    let s := s.modDie d (fun x => { x with
      spareUsed := Tab.modify 0 x.spareUsed b (· + 1)
      rowErrors := Tab.erase x.rowErrors (b * 65536 + rowOf a) })
    let (s, _) := s.record catGalRow (pack [(0, 2, d / 2), (2, 1, d % 2), (3, 9, b), (12, 16, rowOf a)]) 0x11
    (s.vaultNotice 0x11 (d / 2) (d % 2) 0x1F 0 (a / 256 * 256) b).sparesOut a

/-- A correctable error of a line: corrected, counted; the second in its row within a scrub pass spares the row (R204, R205). -/
def State.galCorrect (s : State) (a : Nat) : State :=
  let d := dieOf a
  let key := bankOf a * 65536 + rowOf a
  let s := s.modDie d (fun x => { x with corrected := satInc x.corrected, rowErrors := Tab.modify 0 x.rowErrors key (· + 1) })
  if 2 ≤ Tab.get 0 (s.die d).rowErrors key then s.spareRow a else s

/-- An uncorrectable error of a line: the line is poisoned, GAL_LINE_LOST, the row spared (R204, R205). -/
def State.galPoison (s : State) (a : Nat) : State :=
  let d := dieOf a
  let l := a / 256 * 256
  if (s.die d).poisoned.contains l then s
  else ((s.modDie d (fun x => { x with poisoned := x.poisoned ++ [l], uncorrectable := satInc x.uncorrectable })).vaultNotice
    0x10 (d / 2) (d % 2) 0x1F 0 l 0).spareRow a

/-- What the code of a line found (R204). -/
def State.galEcc (s : State) (a : Nat) : GalleryEcc → State
  | .clean => s
  | .correctable => s.galCorrect a
  | .uncorrectable => s.galPoison a

/-- A Gallery address. -/
def inGallery (a : Nat) : Bool := decide (regionOf a = some .gallery)

/-- A line of the Gallery is poisoned. -/
def State.lineLost (s : State) (a : Nat) : Bool := (s.die (dieOf a)).poisoned.contains (a / 256 * 256)

/-- One FP32 add at a Gallery address, rounded once (R206). -/
def State.lineAdd (s : State) (a : Nat) (v : Nat) : State := s.pokeNum a 4 (r32 ((f32 (s.num a 4)).add (f32 v)))

/-- GALLERY_LINE_ADD: a poisoned line keeps its bytes (R204, R206). -/
def execGalleryLineAdd (addr : Nat) (value : BitVec 32) (ecc : GalleryEcc) (s : State) : Out1 :=
  if !inGallery addr || s.sectorShut (troupeUnder addr) then .next s
  else
    let s := s.galEcc addr ecc
    if s.lineLost addr then .next s else .next (s.lineAdd addr value.toNat)

/-- GALLERY_LINE_ACCESS: a read, or a write of bytes of one line (R204). -/
def execGalleryLineAccess (addr : Nat) (acc : LineAcc) (ecc : GalleryEcc) (s : State) : Out1 :=
  if !inGallery addr || s.sectorShut (troupeUnder addr) then .next s
  else
    let l := addr / 256 * 256
    match acc with
    | .read => .next (if s.lineLost l then s else s.galEcc l ecc)
    | .write off data =>
      let b := data.take (256 - off)
      if b.length = 256 then .next (s.store l b)
      else
        let s := if s.lineLost l then s else s.galEcc l ecc
        .next (if s.lineLost l then s else s.store (l + off) b)

/-- GALLERY_PATROL_SCRUB: one line of the pass; the pass ends when every line of the die has been read (R205). -/
def execGalleryPatrolScrub (addr : Nat) (ecc : GalleryEcc) (s : State) : Out1 :=
  if !inGallery addr then .next s
  else
    let s := if s.lineLost addr then s else s.galEcc addr ecc
    .next (s.modDie (dieOf addr) (fun x =>
      if x.scrubAt + 1 < linesPerDie then { x with scrubAt := x.scrubAt + 1 }
      else { x with scrubAt := 0, scrubPasses := x.scrubPasses + 1, rowErrors := [] }))

/-! ## Registers (unit code 0x100 + s, R207) -/

/-- Word `off` (0x00, 0x08, 0x10) of a die's registers. -/
def GalDie.reg (d : GalDie) (off : Nat) : Nat :=
  if off = 0x00 then pack [(0, 32, d.corrected.toNat), (32, 16, d.uncorrectable.toNat)]
  else if off = 0x08 then pack [(0, 16, (d.spareUsed.map (·.2)).foldl (· + ·) 0),
    (16, 10, (d.spareUsed.filter (fun (_, n) => decide (sparesPerBank ≤ n))).length), (32, 32, d.poisoned.length)]
  else if off = 0x10 then d.scrubPasses.toNat
  else 0

/-- The RC fields after a read. -/
def GalDie.clear (d : GalDie) (off : Nat) : GalDie := if off = 0x00 then { d with corrected := 0, uncorrectable := 0 } else d

end Sys2Proof.Machine
end

