-- ==== Sys2Proof/Machine/Flags.lean ====
section
/-! DEFINITION. Tile tags (R63, R64) and the Prompter's flags (R94, R95).
Log entry with the readings and choices that are the model's: 25. -/

namespace Sys2Proof.Machine

/-- What a tag reports of how its tile was formed (R63). -/
structure TagFlags where
  sat        : Bool := false
  satIn      : Bool := false
  nonfinite  : Bool := false
  stochastic : Bool := false
  fallback   : Bool := false
  recomputed : Bool := false
  checkPartial : Bool := false
  slice      : Bool := false
deriving DecidableEq, Repr

/-- Producers of tiles (R63). -/
def prodArrA : Nat := 0
def prodArrB : Nat := 1
def prodVec : Nat := 2
def prodCons : Nat := 3
def prodRoot : Nat := 4
def prodStream : Nat := 6

/-- A tile tag (R63). -/
def mkTag (fmt axis producer : Nat) (f : TagFlags) : BitVec 32 :=
  BitVec.ofNat 32 (pack [(0, 4, fmt), (4, 1, axis), (5, 1, bit f.sat), (6, 1, bit f.satIn), (7, 1, bit f.nonfinite),
    (8, 1, bit f.stochastic), (9, 1, bit f.fallback), (10, 1, bit f.recomputed), (11, 1, bit f.checkPartial),
    (12, 1, bit f.slice), (16, 3, producer)])

/-- Fields of a tag. -/
def tagFormat (t : BitVec 32) : Nat := fld t 3 0
def tagAxis (t : BitVec 32) : Nat := fld t 4 4
/-- A consumed tag that makes SAT_IN (R64). -/
def tagSat (t : BitVec 32) : Bool := fld t 6 5 != 0

/-- What a tag reports (R63). -/
def TagFlags.of (t : BitVec 32) : TagFlags :=
  let b := bitOf t.toNat
  { sat := b 5, satIn := b 6, nonfinite := b 7, stochastic := b 8, fallback := b 9, recomputed := b 10, checkPartial := b 11, slice := b 12 }

/-- Flag `i` of PFLAGS. -/
def flagSet (p : Prompter) (i : Nat) : Bool := bitOf p.pflags.toNat i

/-- A flag set. -/
def Prompter.raiseFlag (p : Prompter) (i : Nat) : Prompter := { p with pflags := p.pflags ||| BitVec.ofNat 16 (2 ^ i) }

/-- A flag set where a condition holds. -/
def Prompter.flagIf (p : Prompter) (b : Bool) (i : Nat) : Prompter := if b then p.raiseFlag i else p

/-- Flags 0 to 5 by the tag of an output tile of this Core (R94). -/
def Prompter.noteTag (p : Prompter) (f : TagFlags) : Prompter :=
  (((((p.flagIf f.sat 0).flagIf f.nonfinite 1).flagIf f.satIn 2).flagIf f.recomputed 3).flagIf f.fallback 4).flagIf f.checkPartial 5

/-- Flag of a SEND that did not end OK, of a ROOT job, of a generator that wrapped, of a stream error (R94). -/
def flagSend : Nat := 6
def flagRoot : Nat := 7
def flagWrap : Nat := 8
def flagStream : Nat := 9

/-- A Core's Prompter changed. -/
def Core.modP (c : Core) (f : Prompter → Prompter) : Core := { c with p := f c.p }

end Sys2Proof.Machine
end

