-- ==== Sys2Proof/Machine/Operands.lean ====
section
/-! DEFINITION. What cues name: their fields (R89), address generators (R94), tiles in Wings (R80 to R85), and the draws of
every class of cue (R96, R114, R148).
Log entries with the readings and choices that are the model's: 22, 30. -/

namespace Sys2Proof.Machine

/-! ## Cue header (R89) -/

def cueClass (q : W128) : Nat := fld q 3 0
def cueOp (q : W128) : Nat := fld q 27 24
def cueWait (q : W128) : Option Nat := if fld q 4 4 = 1 then some (fld q 10 5) else none
def cueSignal (q : W128) : Option Nat := if fld q 11 11 = 1 then some (fld q 17 12) else none

def clsCtl : Nat := 0
def clsSyn : Nat := 1
def clsArr : Nat := 2
def clsVec : Nat := 3
def clsStr : Nat := 4
def clsMsg : Nat := 5
def clsRoot : Nat := 6
def clsGrm : Nat := 7

/-- A cue of a class and an OP at bits [27:24]. -/
def isCue (cls op : Nat) (q : W128) : Bool := cueClass q == cls && cueOp q == op
/-- A VEC cue of an operation (R148). -/
def isVec (op : Nat) (q : W128) : Bool := cueClass q == clsVec && fld q 31 24 == op
/-- An ARR cue of a mode (R113). -/
def isArr (mode : Nat) (q : W128) : Bool := cueClass q == clsArr && fld q 29 26 == mode

/-- Arrays a cue names in bits [25:24] (R89). -/
def namesA (q : W128) : Bool := fld q 24 24 == 1
def namesB (q : W128) : Bool := fld q 25 25 == 1
def namesArr (q : W128) : ArrayId → Bool
  | .arrA => namesA q
  | .arrB => namesB q
def bothArrays (q : W128) : Bool := namesA q && namesB q

/-! ## Address generators (R94) -/

/-- A count of 0 means 65,536. -/
def countOf (n : BitVec 16) : Nat := if n = 0 then 65536 else n.toNat

/-- The value a generator yields. -/
def Gen.value (g : Gen) : Int :=
  (g.base.toNat : Int) + g.d0.idx.toNat * g.d0.stride.toInt + g.d1.idx.toNat * g.d1.stride.toInt +
    g.d2.idx.toNat * g.d2.stride.toInt + g.d3.idx.toNat * g.d3.stride.toInt

/-- A dimension advanced, and whether it returned to 0. -/
def AgDim.next (d : AgDim) : AgDim × Bool :=
  if d.idx.toNat + 1 < countOf d.count then ({ d with idx := d.idx + 1 }, false) else ({ d with idx := 0 }, true)

/-- A generator advanced by one value, and whether it started again at its base. -/
def Gen.next (g : Gen) : Gen × Bool :=
  let (d0, c0) := g.d0.next
  if !c0 then ({ g with d0 := d0 }, false) else
  let (d1, c1) := g.d1.next
  if !c1 then ({ g with d0 := d0, d1 := d1 }, false) else
  let (d2, c2) := g.d2.next
  if !c2 then ({ g with d0 := d0, d1 := d1, d2 := d2 }, false) else
  let (d3, c3) := g.d3.next
  ({ g with d0 := d0, d1 := d1, d2 := d2, d3 := d3 }, c3)

/-- `n` values taken: the values, the generator after them, whether it started again. -/
def Gen.take : Nat → Gen → List Int × Gen × Bool
  | 0, g => ([], g, false)
  | n + 1, g =>
    let (g', w) := g.next
    let (vs, g'', w') := Gen.take n g'
    (g.value :: vs, g'', w || w')

/-- What a drawn value names. -/
inductive Use where
  | op (fmt : Option Nat)
  | dest (fmt : Nat)
  | sync
  | byte (span : Nat)
  | pos
deriving DecidableEq, Repr

/-- `n` values of one generator for one use. -/
structure Draw where
  gen : Nat
  n   : Nat
  use : Use
deriving DecidableEq, Repr

/-- Values drawn, the generators after them, whether one started again. -/
structure Peek where
  vals : List (Use × Int)
  gens : Tab Gen
  wrapped : Bool
deriving DecidableEq, Repr

/-- The draws of a cue in field order (R94). -/
def peek (gens : Tab Gen) : List Draw → Peek
  | [] => { vals := [], gens := gens, wrapped := false }
  | d :: t =>
    if d.n = 0 then peek gens t else
    let (vs, g, w) := Gen.take d.n (Tab.get {} gens d.gen)
    let r := peek (Tab.set gens d.gen g) t
    { vals := vs.map (fun v => (d.use, v)) ++ r.vals, gens := r.gens, wrapped := w || r.wrapped }

/-- Tiles drawn as operands, in order. -/
def Peek.ops (p : Peek) : List Nat := p.vals.filterMap (fun (u, v) => match u with
  | .op _ => some v.toNat
  | .dest _ => none | .sync => none | .byte _ => none | .pos => none)
/-- Tiles drawn as destinations, in order. -/
def Peek.dests (p : Peek) : List Nat := p.vals.filterMap (fun (u, v) => match u with
  | .dest _ => some v.toNat
  | .op _ => none | .sync => none | .byte _ => none | .pos => none)
/-- Tiles a SYN cue names. -/
def Peek.syncs (p : Peek) : List Nat := p.vals.filterMap (fun (u, v) => match u with
  | .sync => some v.toNat
  | .op _ => none | .dest _ => none | .byte _ => none | .pos => none)
/-- The byte-mode value drawn, if any. -/
def Peek.byteVal (p : Peek) : Nat := (p.vals.filterMap (fun (u, v) => match u with
  | .byte _ => some v.toNat
  | .op _ => none | .dest _ => none | .sync => none | .pos => none)).headD 0
/-- Positions drawn, in order (R156). -/
def Peek.poss (p : Peek) : List Int := p.vals.filterMap (fun (u, v) => match u with
  | .pos => some v
  | .op _ => none | .dest _ => none | .sync => none | .byte _ => none)

/-! ## Tiles (R80 to R85) -/

/-- Element width in Wings, in bytes (R81). -/
def Fmt.wide : Fmt → Nat
  | .fp32 => 4 | .bf16 => 2 | .fp16 => 2 | .e4m3 => 1 | .e5m2 => 1 | .mxE4m3 => 1 | .mxE5m2 => 1 | .mxE3m2 => 1
  | .mxE2m3 => 1 | .mxE2m1 => 1 | .int8 => 1 | .int32 => 4 | .fp64 => 8 | .slice8 => 1

/-- The format of a code; a reserved code, which no loaded cue holds, reads as INT8. -/
def fmtOf (code : Nat) : Fmt := (Fmt.ofCode code).getD .int8

/-- Wings offset of element (i, j) of a frame with elements of e bytes (R81). -/
def elemOff (frame e i j : Nat) : Nat := frame * 512 + 512 * (i * e / 8) + 8 * ((i + j) % 64) + i * e % 8

/-- A tile descriptor of a Core. -/
def Core.tile (c : Core) (i : Nat) : Tile := Tab.get {} c.tiles i
def Core.setTile (c : Core) (i : Nat) (t : Tile) : Core := { c with tiles := Tab.set c.tiles i t }
def Core.modTile (c : Core) (i : Nat) (f : Tile → Tile) : Core := c.setTile i (f (c.tile i))

/-- State of several tiles changed. -/
def Core.setStates (c : Core) (st : TileState) : List Nat → Core
  | [] => c
  | i :: t => Core.setStates (c.modTile i (fun x => { x with state := st })) st t

/-- Valid rows and columns of a tile (R84). -/
def Tile.rows (t : Tile) : Nat := t.rowsM1.toNat + 1
def Tile.cols (t : Tile) : Nat := t.colsM1.toNat + 1

/-- The code of an element in Wings; the upper bits of a narrow MX element are ignored (R81). -/
def State.elem (s : State) (c : Nat) (t : Tile) (f : Fmt) (i j : Nat) : Nat :=
  s.num (wingsOf c + elemOff t.frame.toNat f.wide i j) f.wide % 2 ^ f.bits

/-- An element written; a narrow MX element has zero upper bits (R81). -/
def State.putElem (s : State) (c : Nat) (t : Tile) (f : Fmt) (i j code : Nat) : State :=
  s.pokeNum (wingsOf c + elemOff t.frame.toNat f.wide i j) f.wide code

/-- Address of a tile's side line (R83, R84). -/
def sideAddr (c : Nat) (t : Tile) : Nat := wingsOf c + t.side.toNat * 128

/-- The block scale of element (i, j) (R47, R83). -/
def State.scaleAt (s : State) (c : Nat) (t : Tile) (axis i j : Nat) : Nat :=
  let (l, b) := if axis = 0 then (i, j / 32) else (j, i / 32)
  s.num (sideAddr c t + 2 * l + b) 1

/-- The value of a stored element, its block scale included (R50). -/
def State.elemVal (s : State) (c : Nat) (t : Tile) (f : Fmt) (i j : Nat) : FVal :=
  let code := s.elem c t f i j
  if f.isMx then mxValue f (s.scaleAt c t (tagAxis t.tag) i j) code else valueOf f code

/-- What a feeder supplies: zero outside the valid extent (R85). -/
def State.fed (s : State) (c : Nat) (t : Tile) (f : Fmt) (i j : Nat) : FVal :=
  if i < t.rows ∧ j < t.cols then s.elemVal c t f i j else FVal.zero

/-! ## Draws by class -/

/-- Draws of an ARR cue: P, Q, D; the dW tile of BWD_DUAL is FP32 (R114, R117). -/
def planArr (q : W128) : List Draw :=
  let nd := fld q 74 68
  let out := fld q 41 38
  [{ gen := fld q 47 44, n := fld q 61 56 + 1, use := .op (some (fld q 33 30)) },
   { gen := fld q 51 48, n := fld q 67 62 + 1, use := .op (some (fld q 37 34)) }] ++
  (if fld q 29 26 = 4 then
    [{ gen := fld q 55 52, n := nd - 1, use := .dest out }, { gen := fld q 55 52, n := 1, use := .dest 0 }]
   else [{ gen := fld q 55 52, n := nd, use := .dest out }])

/-- Tiles per group of a vector operation: A, B, D (R148); a row group draws its A, and B, once for the whole cue. -/
structure VShape where
  a : Nat
  b : Nat
  d : Nat
  row : Bool := false
deriving DecidableEq, Repr

/-- The group column of *Vector operations* (R148). -/
def vecShape (op : Nat) : VShape :=
  if op = 0x70 then { a := 1, b := 0, d := 7 }
  else if op = 0x71 then { a := 7, b := 2, d := 1 }
  else if op = 0x60 then { a := 1, b := 0, d := 2, row := true }
  else if op = 0x45 then { a := 1, b := 1, d := 1, row := true }
  else if 0x40 ≤ op ∧ op ≤ 0x47 then { a := 1, b := 0, d := 1, row := true }
  else if op = 0x36 ∨ op = 0x37 then { a := 1, b := 0, d := 0 }
  else if op = 0x00 ∨ op = 0x05 ∨ op = 0x06 ∨ op = 0x09 ∨ op = 0x0B ∨ op = 0x0C ∨ op = 0x0D ∨ op = 0x20 ∨ op = 0x31 ∨
      op = 0x50 ∨ op = 0x51 then { a := 1, b := 0, d := 1 }
  else { a := 1, b := 1, d := 1 }

/-- Draws of a VEC cue: A, B, D, and the positions of MASK and ROTARY (R148, R156, R162). -/
def planVec (q : W128) : List Draw :=
  let op := fld q 31 24
  let nt := fld q 63 58 + 1
  let sh := vecShape op
  let groups := if sh.row then 1 else nt
  let dgen := fld q 57 54
  let dfmt := fld q 43 40
  [{ gen := fld q 49 46, n := sh.a * nt, use := .op (some (fld q 35 32)) },
   { gen := fld q 53 50, n := sh.b * nt, use := .op (some (fld q 39 36)) }] ++
  (if op = 0x50 ∨ op = 0x51 then [{ gen := fld q 53 50, n := nt, use := .pos }] else []) ++
  (if op = 0x60 then [{ gen := dgen, n := 1, use := .dest dfmt }, { gen := dgen, n := 1, use := .dest 11 }]
   else [{ gen := dgen, n := sh.d * groups, use := .dest dfmt }]) ++
  (if op = 0x50 then [{ gen := fld q 99 96, n := nt, use := .pos }] else [])

/-- Draws of an STR cue; a tile a stream fills takes the descriptor's format (R168, R170, R182). -/
def planStr (descFmt : Nat) (q : W128) : List Draw :=
  let op := cueOp q
  if op = 0 then
    (if fld q 48 48 ≠ fld q 49 49 then
      [{ gen := fld q 40 37, n := fld q 47 41, use := if fld q 48 48 = 1 then .dest descFmt else .op none }]
     else [])
  else if op = 1 then [{ gen := fld q 40 37, n := 1, use := .byte 64 }]
  else []

/-- Bytes a message takes in Wings when it is copied: header of 16 bytes and payload (R110). -/
def msgSpan (m : MsgReq) : Nat := m.bytes.length - 48

/-- Draws of a MSG cue (R110, R111). -/
def planMsg (oldest : Option MsgReq) (q : W128) : List Draw :=
  let op := cueOp q
  if op = 0 then [{ gen := fld q 31 28, n := 1, use := .byte (8 * (fld q 40 32 + 1)) }]
  else if op = 1 then [{ gen := fld q 35 32, n := 1, use := .byte ((oldest.map msgSpan).getD 0) }]
  else [{ gen := fld q 35 32, n := 1, use := .byte 16 }]

/-- Draws of a SYN cue. -/
def planSyn (q : W128) : List Draw :=
  if cueOp q = 3 ∨ cueOp q = 4 then [{ gen := fld q 35 32, n := fld q 42 36, use := .sync }] else []

/-- A stream descriptor of a Core, and its FORMAT (R165). -/
def Core.desc (c : Core) (d : Nat) : BitVec 512 := Tab.get 0 c.str.descs d
/-- A receive ring of a Core. -/
def Core.ring (c : Core) (ch : Nat) : Ring := Tab.get {} c.msg.rings ch

/-- The oldest complete message of a channel that no copy under way has taken. -/
def Core.nextMsg (c : Core) (ch : Nat) : Option MsgReq :=
  ((c.ring ch).msgs.drop (c.msg.copies.filter (fun x => x.channel == some ch)).length).head?

/-- The draws of a cue. -/
def Core.plan (c : Core) (q : W128) : List Draw :=
  let cls := cueClass q
  if cls = clsArr then planArr q
  else if cls = clsVec then planVec q
  else if cls = clsStr then planStr (fld (c.desc (fld q 32 28)) 9 6) q
  else if cls = clsMsg then planMsg (c.nextMsg (fld q 42 41)) q
  else if cls = clsSyn then planSyn q
  else []

end Sys2Proof.Machine
end

