-- ==== Sys2Proof/Machine/Prompter.lean ====
section
/-! DEFINITION. The Prompter: tokens, stops, the issue rule, CTL and SYN cues, scene markers, gap fill (R86 to R107).
Log entries with the readings and choices that are the model's: 22, 23, 24, 25, 26, 27. -/

namespace Sys2Proof.Machine

/-! ## Stops and tokens (R92, R99) -/

/-- Code of a stop cause (R99). -/
def stopCode : StopCause → Nat
  | .none => 0 | .tokenOvf => 1 | .format => 2 | .range => 3 | .side => 4 | .accum => 5 | .cueEnd => 6 | .sameTile => 7 | .tileLive => 8
  | .other v => v.toNat

/-- Prompter states in which a stop can be entered. -/
def PState.stoppable : PState → Bool
  | .idle => true | .running => true | .hold => true | .halted => true | .stopped => false | .suspect => false | .reset => false
  | .other _ => false

/-- The Core enters STOPPED, with a FAULT notice carrying BAD_PARAM (R99, R439). -/
def State.stopCore (s : State) (c : Nat) (cause : StopCause) : State :=
  if !(s.core c).p.state.stoppable then s
  else
    (s.modCore c (fun x => x.modP (fun p => { p with state := .stopped, hold := .none, stop := cause }))).fault
      { event := 0x04, src := .core c, phys := (s.core c).phys.toNat, logical := c, stop := stopCode cause, status := .badParam }

/-- A token of a Core. -/
def Core.token (c : Core) (t : Nat) : Nat := (Tab.get 0 c.p.tokens t).toNat
def Core.setToken (c : Core) (t : Nat) (v : Nat) : Core := c.modP (fun p => { p with tokens := Tab.set p.tokens t (BitVec.ofNat 4 v) })

/-- A token rises by n; a rise that would pass 15 leaves it at 15 and stops the Core (R92). -/
def State.tokenRise (s : State) (c t n : Nat) : State :=
  if (s.core c).token t + n ≤ 15 then s.modCore c (fun x => x.setToken t (x.token t + n))
  else (s.modCore c (fun x => x.setToken t 15)).stopCore c .tokenOvf

/-- A cue completes: its signal token rises (R90, R92). -/
def State.signal (s : State) (c : Nat) (tok : Option Nat) : State :=
  match tok with
  | none => s
  | some t => s.tokenRise c t 1

/-! ## Issued cues that have not completed (R90) -/

/-- A class has an issued cue that has not completed. -/
def Core.incomplete (c : Core) (cls : Nat) : Bool :=
  if cls = 2 then !c.arrA.jobs.isEmpty || !c.arrB.jobs.isEmpty
  else if cls = 3 then !c.vec.jobs.isEmpty
  else if cls = 4 then !c.str.queue.isEmpty || !c.str.xfers.isEmpty || c.str.eps.any (fun (_, e) => e.releasing.isSome)
  else if cls = 5 then !c.msg.sends.isEmpty || decide (c.msg.phantoms ≠ 0) || !c.msg.copies.isEmpty
  else if cls = 6 then !c.rootCues.isEmpty || !c.rootQueue.isEmpty
  else false

/-- A class of the mask has an incomplete cue (R96 FENCE). -/
def Core.maskIncomplete (c : Core) (mask : Nat) : Bool := (List.range 8).any (fun k => bitOf mask k && c.incomplete k)
/-- Any issued cue is incomplete. -/
def Core.anyIncomplete (c : Core) : Bool := c.maskIncomplete 0xFF

/-- The accumulators an array will hold once its issued cues are done are kept (R90, R99). -/
def Arr.keeps (a : Arr) : Bool :=
  match a.jobs.getLast? with
  | some j => j.keep
  | none => a.kept.isSome

/-! ## The issue rule (R96 to R99) -/

/-- The unit of a cue cannot take it: two cues for each array, four for the vector engine, eight for the stream engine, four
for the message port, two for ROOT submissions, beside the one in progress where the unit works on one (R97); a SEND stays in the
port's queue while a piece of its put cannot leave it, a submission in the ROOT queue while its descriptor cannot be read. -/
def Core.unitFull (c : Core) (q : W128) : Bool :=
  let cls := cueClass q
  if cls = 2 then (namesA q && decide (3 ≤ c.arrA.jobs.length)) || (namesB q && decide (3 ≤ c.arrB.jobs.length))
  else if cls = 3 then decide (5 ≤ c.vec.jobs.length)
  else if cls = 4 then decide (8 ≤ c.str.queue.length)
  else if cls = 5 then decide (5 ≤ c.msg.copies.length + (c.msg.sends.filter (fun y => !y.puts.isEmpty)).length)
  else if cls = 6 then decide (2 ≤ c.rootQueue.length)
  else false

/-- An array the cue names is below 16 − JUMP (R96, R100). -/
def rampHold (jump : Nat) (c : Core) (q : W128) : Bool :=
  (namesA q && decide (c.arrA.level.toNat < 16 - jump)) || (namesB q && decide (c.arrB.level.toNat < 16 - jump))

/-- The condition of a SYN cue is not met; a TAKE that also waits on its own token needs one more (R92, R96). -/
def Core.syncHold (c : Core) (q : W128) (pk : Peek) : Bool :=
  let op := cueOp q
  if op = 0 then
    decide (c.token (fld q 37 32) < fld q 41 38 + (if cueWait q = some (fld q 37 32) then 1 else 0))
  else if op = 2 then c.maskIncomplete (fld q 55 48)
  else if op = 3 ∨ op = 4 then pk.syncs.any (fun i => decide ((c.tile i).state = .filling))
  else false

/-- Completion records waiting and reserved (R111). -/
def MsgPort.window (m : MsgPort) : Nat := m.compl.length + m.reserved

/-- Complete messages of a channel not yet taken by a copy under way. -/
def Core.ready (c : Core) (ch : Nat) : Nat :=
  (c.ring ch).msgs.length - (c.msg.copies.filter (fun x => x.channel == some ch)).length

/-- The message port cannot serve the cue (R96, R111). -/
def Core.msgHold (c : Core) (q : W128) : Bool :=
  let op := cueOp q
  if op = 0 then decide (16 ≤ c.msg.sends.length + c.msg.phantoms) || (fld q 51 51 == 1 && decide (8 ≤ c.msg.window))
  else if op = 1 then c.ready (fld q 42 41) == 0
  else decide (c.msg.compl.length ≤ (c.msg.copies.filter (fun x => x.channel.isNone)).length)

/-- What the Prompter decides for the cue at its pointer (R96, R99). -/
inductive Verdict where
  | skip
  | hold (r : HoldReason)
  | stop (cause : StopCause)
  | issue (pk : Peek)
deriving DecidableEq, Repr

/-- A drawn value out of range (R99 RANGE), read by the cue's use of it whatever AG_MODE is (R94; DESIGN CHOICE: log entry 22). -/
def badValue (u : Use) (v : Int) : Bool :=
  match u with
  | .byte _ => decide (v < 0 ∨ 0x400000 ≤ v ∨ v % 8 ≠ 0)
  | .pos => false
  | .op _ => decide (v < 0 ∨ 1023 < v)
  | .dest _ => decide (v < 0 ∨ 1023 < v)
  | .sync => decide (v < 0 ∨ 1023 < v)

/-- A frame that runs past word row 8,191 (R81, R99). -/
def badFrame (frame : Nat) (fmt : Nat) : Bool := decide (8192 < frame + 8 * (fmtOf fmt).wide)

/-- The format a tile is used in. -/
def useFmt (t : Tile) : Use → Option Nat
  | .op _ => some (tagFormat t.tag)
  | .dest f => some f
  | .sync => none
  | .byte _ => none
  | .pos => none

/-- An operand whose format, or MX axis, is not the cue's (R48, R99, R116). -/
def badFormat (t : Tile) (u : Use) : Bool :=
  match u with
  | .op (some f) => tagFormat t.tag != f
  | .op none => false | .dest _ => false | .sync => false | .byte _ => false | .pos => false

/-- A tile that needs a side line and has none (R83, R99): an MX or SLICE8 operand, by the cue's format or by its own tag where the cue
gives none, and an MX destination. -/
def badSide (t : Tile) (u : Use) : Bool :=
  !t.sideValid && match u with
  | .op (some f) => (fmtOf f).isMx || f == 13
  | .op none => (fmtOf (tagFormat t.tag)).isMx || tagFormat t.tag == 13
  | .dest f => (fmtOf f).isMx
  | .sync => false | .byte _ => false | .pos => false

/-- The BLOCK_AXIS an ARR cue's MX operands must carry (R48, R116). -/
def arrAxis (q : W128) (isP : Bool) : Nat :=
  if fld q 29 26 = 3 ∧ isP then fld q 75 75 else 1 - (if isP then fld q 75 75 else fld q 76 76)

/-- An MX operand of an ARR cue blocked along another axis than the reduction (R48). -/
def badAxis (c : Core) (q : W128) (pk : Peek) : Bool :=
  let np := fld q 61 56 + 1
  let check := fun (isP : Bool) (fmt : Nat) (ts : List Nat) =>
    (fmtOf fmt).isMx && ts.any (fun i => tagAxis (c.tile i).tag != arrAxis q isP)
  cueClass q == 2 && (check true (fld q 33 30) (pk.ops.take np) || check false (fld q 37 34) (pk.ops.drop np))

/-- The first destination of each SPLIT group holds the exponents in its side line (R159). -/
def badSplitSide (c : Core) (q : W128) (pk : Peek) : Bool :=
  isVec 0x70 q && (List.range (fld q 63 58 + 1)).any (fun g => !(c.tile (nth 0 pk.dests (7 * g))).sideValid)

/-- A GIVE whose token would pass 15 once its own wait is taken (R92, R99). -/
def Core.giveFull (c : Core) (q : W128) : Bool :=
  isCue 1 1 q && decide (15 < c.token (fld q 37 32) - bit (cueWait q == some (fld q 37 32)) + fld q 41 38)

/-- Stops found once nothing holds the cue, in the order of *Stops* (R99). -/
def Core.lateStop (c : Core) (q : W128) (pk : Peek) : Option StopCause :=
  let tiled := pk.vals.filterMap (fun (u, v) => (useFmt (c.tile v.toNat) u).map (fun f => (c.tile v.toNat, u, f)))
  if c.giveFull q then some .tokenOvf
  else if tiled.any (fun (t, u, _) => badFormat t u) || badAxis c q pk then some .format
  else if tiled.any (fun (t, _, f) => badFrame t.frame.toNat f) ||
      (isCue 0 8 q && badFrame (fld q 54 42) (fld q 86 83)) ||
      pk.vals.any (fun (u, v) => match u with
        | .byte n => decide (0x400000 < v + n)
        | .op _ => false | .dest _ => false | .sync => false | .pos => false) then some .range
  else if tiled.any (fun (t, u, _) => badSide t u) || badSplitSide c q pk then some .side
  else if (cueClass q == 2 && fld q 79 79 == 1 && ((namesA q && !c.arrA.keeps) || (namesB q && !c.arrB.keeps))) ||
      (isCue 0 4 q && (c.arrA.keeps || c.arrB.keeps)) then some .accum
  else if isCue 0 8 q && decide ((c.tile (fld q 41 32)).state ≠ .free) then some .tileLive
  else none

/-- The decision for a cue, in the order of R96, a SCENE held while a shadow is occupied too (R184); values out of range and a tile named twice are found as the tiles are peeked. -/
def Core.verdict (c : Core) (jump : Nat) (q : W128) : Verdict :=
  if (cueWait q).any (fun t => c.token t == 0) then .hold .wait
  else if fld q 18 18 = 1 ∧ bit (flagSet c.p (fld q 22 19)) = fld q 23 23 then .skip
  else
    let pk := peek c.p.gens (c.plan q)
    if pk.vals.any (fun (u, v) => badValue u v) then .stop .range
    else if pk.ops.any (fun i => pk.dests.contains i) then .stop .sameTile
    else if pk.ops.any (fun i => decide ((c.tile i).state ≠ .resident)) then .hold .operand
    else if pk.dests.any (fun i => decide ((c.tile i).state ≠ .free)) then .hold .dest
    else if c.unitFull q then .hold .unit
    else if cueClass q = 2 ∧ rampHold jump c q then .hold .ramp
    else if isCue 0 4 q && (c.anyIncomplete || c.pending.isSome || !c.str.shadowBusy.isEmpty) then .hold .scene
    else if cueClass q = 1 ∧ c.syncHold q pk then .hold .sync
    else if cueClass q = 5 ∧ c.msgHold q then .hold .msg
    else match c.lateStop q pk with
      | some cause => .stop cause
      | none => .issue pk

/-- The Core's Prompter can issue: it runs or holds, and the Core is in service. -/
def Core.live (c : Core) : Bool :=
  !c.dark && !c.inReset && c.takeover.isNone && (decide (c.p.state = .running) || decide (c.p.state = .hold))

/-- The cue at the pointer. -/
def Core.cueAt (c : Core) : W128 := Tab.get 0 c.p.cues c.p.cp.toNat

/-- The pointer moved to the next cue. -/
def Prompter.step (p : Prompter) : Prompter :=
  { p with cp := p.cp + 1, pastEnd := p.cp.toNat == 16383, state := .running, hold := .none }

/-- A token waited on is taken. -/
def Core.takeWait (c : Core) (q : W128) : Core :=
  match cueWait q with
  | none => c
  | some t => c.setToken t (c.token t - 1)

/-- What every issue does: generators advance, the wait token is taken, destinations are FILLING, the pointer moves (R96). -/
def Core.issued (c : Core) (q : W128) (pk : Peek) : Core :=
  ((((c.modP (fun p => { p with gens := pk.gens })).modP (fun p => p.flagIf pk.wrapped flagWrap)).takeWait q).setStates
    .filling pk.dests).modP Prompter.step

/-- After an issue or a skip: the pointer past cue 16,383 stops the Core; a single step ends in IDLE (R87, R99). -/
def State.afterIssue (s : State) (c : Nat) : State :=
  let p := (s.core c).p
  if p.pastEnd then s.stopCore c .cueEnd
  else if p.singleStep ∧ p.state = .running then s.modCore c (fun x => x.modP (fun p => { p with state := .idle, stepped := true }))
  else s

/-- A hold shown in HOLD_REASON. -/
def State.holdCue (s : State) (c : Nat) (r : HoldReason) : State :=
  s.modCore c (fun x => x.modP (fun p => { p with state := .hold, hold := r }))

/-- A cue that stops the Core: nothing of it happens, but that the token a GIVE would take past 15 stands at 15 (R92, R99). -/
def State.stopCue (s : State) (c : Nat) (q : W128) (cause : StopCause) : State :=
  (if cause = .tokenOvf then s.modCore c (fun x => x.setToken (fld q 37 32) 15) else s).stopCore c cause

/-- One attempt at a cue of a kind: held, stopped, or issued with its effect; a cue of another kind, or one that is skipped, is
another row's. -/
def State.attempt (s : State) (c : Nat) (kind : W128 → Bool) (eff : State → W128 → Peek → State) : State :=
  let x := s.core c
  let q := x.cueAt
  if !x.live || !kind q then s
  else match x.verdict (s.stage (stageOfCore c)).jump.toNat q with
    | .skip => s
    | .hold r => s.holdCue c r
    | .stop cause => s.stopCue c q cause
    | .issue pk => (eff (s.setCore c (x.issued q pk)) q pk).afterIssue c

/-- A cue that completes as it issues: its effect on the Core, then its signal (R90). -/
def State.attemptNow (s : State) (c : Nat) (kind : W128 → Bool) (eff : State → W128 → Peek → State) : State :=
  s.attempt c kind (fun s q pk => (eff s q pk).signal c (cueSignal q))

/-! ## CTL cues (R89, R93, R94, R86, R145) -/

/-- NOP. -/
def execNop (c : CoreNo) (s : State) : Out1 := .next (s.attemptNow c.val (isCue 0 0) (fun s _ _ => s))

/-- The pointer moved to a target. -/
def Core.jumpTo (c : Core) (t : Nat) : Core := c.modP (fun p => { p with cp := BitVec.ofNat 14 t, pastEnd := false })

/-- JUMP. -/
def execJump (c : CoreNo) (s : State) : Out1 :=
  .next (s.attemptNow c.val (isCue 0 1) (fun s q _ => s.modCore c.val (fun x => x.jumpTo (fld q 45 32))))

/-- A loop counter. -/
def Core.loop (c : Core) (k : Nat) : BitVec 32 := Tab.get 0 c.p.loops k
def Core.setLoop (c : Core) (k : Nat) (v : BitVec 32) : Core := c.modP (fun p => { p with loops := Tab.set p.loops k v })

/-- LOOP_SET (R93). -/
def execLoopSet (c : CoreNo) (s : State) : Out1 :=
  .next (s.attemptNow c.val (isCue 0 2) (fun s q _ => s.modCore c.val (fun x => x.setLoop (fld q 36 32) (BitVec.ofNat 32 (fld q 95 64)))))

/-- A loop counter that is not zero goes down by 1 and jumps while the result is not zero (R93). -/
def Core.loopBranch (c : Core) (k target : Nat) : Core :=
  if c.loop k = 0 then c
  else
    let c := c.setLoop k (c.loop k - 1)
    if c.loop k = 0 then c else c.jumpTo target

/-- LOOP_BRANCH (R93). -/
def execLoopBranch (c : CoreNo) (s : State) : Out1 :=
  .next (s.attemptNow c.val (isCue 0 3) (fun s q _ => s.modCore c.val (fun x => x.loopBranch (fld q 36 32) (fld q 61 48))))

/-- The shadow state of a Core at a marker (R103). -/
def Core.shadow (c : Core) (sceneId : Nat) : Shadow :=
  { sceneId := BitVec.ofNat 16 sceneId, cp := c.p.cp, loops := c.p.loops, tokens := c.p.tokens, gens := c.p.gens,
    pflags := c.p.pflags, vl := c.p.vl, fillHold := c.p.fillHold, fillBudget := c.p.fillBudget, tiles := c.tiles,
    rings := c.msg.rings, tapA := c.arrA.tap, tapB := c.arrB.tap, descs := c.str.descs, eps := c.str.eps, sendSeq := c.msg.sendSeq }

/-- Messages complete in the rings, not yet consumed (R106). -/
def Core.unconsumed (c : Core) : List MsgReq := ((List.range 4).map (fun ch => (c.ring ch).msgs)).flatten

/-- The marker latches (R102, R103, R106, R107). -/
def Core.latch (c : Core) (sceneId : Nat) : Core :=
  { c with pending := some (c.shadow sceneId), logAtLatch := c.log.length, keptMsgs := c.unconsumed, effectsAtLatch := c.effects.length }

/-- SCENE: the shadow state is latched after the cue's own signal (R102). -/
def execScene (c : CoreNo) (s : State) : Out1 :=
  .next (s.attempt c.val (isCue 0 4) (fun s q _ =>
    (s.signal c.val (cueSignal q)).modCore c.val (fun x => x.latch (fld q 47 32))))

/-- HALT. -/
def execHalt (c : CoreNo) (s : State) : Out1 :=
  .next (s.attemptNow c.val (isCue 0 5) (fun s q _ => s.modCore c.val (fun x =>
    x.modP (fun p => { p with state := .halted, pastEnd := false, haltCode := BitVec.ofNat 16 (fld q 47 32) }))))

/-- A generator of a Core. -/
def Core.gen (c : Core) (g : Nat) : Gen := Tab.get {} c.p.gens g
def Core.setGen (c : Core) (g : Nat) (x : Gen) : Core := c.modP (fun p => { p with gens := Tab.set p.gens g x })

/-- AG_BASE: base and mode, every index 0 (R94). -/
def Gen.setBase (g : Gen) (base : BitVec 32) (byteMode : Bool) : Gen :=
  { base := base, byteMode := byteMode, d0 := { g.d0 with idx := 0 }, d1 := { g.d1 with idx := 0 }, d2 := { g.d2 with idx := 0 },
    d3 := { g.d3 with idx := 0 } }

/-- AG_DIM: count and stride of one dimension, its index 0 (R94). -/
def Gen.setDim (g : Gen) (d : Nat) (x : AgDim) : Gen :=
  if d = 0 then { g with d0 := x } else if d = 1 then { g with d1 := x } else if d = 2 then { g with d2 := x } else { g with d3 := x }

/-- AG_BASE. -/
def execAgBase (c : CoreNo) (s : State) : Out1 :=
  .next (s.attemptNow c.val (isCue 0 6) (fun s q _ => s.modCore c.val (fun x =>
    x.setGen (fld q 35 32) ((x.gen (fld q 35 32)).setBase (BitVec.ofNat 32 (fld q 95 64)) (fld q 36 36 == 1)))))

/-- AG_DIM. -/
def execAgDim (c : CoreNo) (s : State) : Out1 :=
  .next (s.attemptNow c.val (isCue 0 7) (fun s q _ => s.modCore c.val (fun x =>
    x.setGen (fld q 35 32) ((x.gen (fld q 35 32)).setDim (fld q 37 36)
      { count := BitVec.ofNat 16 (fld q 63 48), idx := 0, stride := BitVec.ofNat 32 (fld q 95 64) }))))

/-- The descriptor a TILE_SET writes; FREE before and after, VERSION as it stands (R84, R86). -/
def tileSet (old : Tile) (q : W128) : Tile :=
  { frame := BitVec.ofNat 13 (fld q 54 42), side := BitVec.ofNat 15 (fld q 69 55), sideValid := fld q 70 70 == 1,
    rowsM1 := BitVec.ofNat 6 (fld q 76 71), colsM1 := BitVec.ofNat 6 (fld q 82 77), state := .free,
    version := old.version, tag := mkTag (fld q 86 83) (fld q 87 87) 0 {} }

/-- TILE_SET (R86). -/
def execTileSet (c : CoreNo) (s : State) : Out1 :=
  .next (s.attemptNow c.val (isCue 0 8) (fun s q _ => s.modCore c.val (fun x => x.modTile (fld q 41 32) (fun t => tileSet t q))))

/-- REG_SET of VL: bits [31:0] written, bits [63:32] cleared (R145). -/
def execRegSet (c : CoreNo) (s : State) : Out1 :=
  .next (s.attemptNow c.val (isCue 0 9) (fun s q _ => s.modCore c.val (fun x =>
    x.modP (fun p => { p with vl := BitVec.ofNat 64 (fld q 95 64) }))))

/-- CUE_SKIP: no effect, no signal, generators unmoved; the wait token is taken (R96). -/
def execCueSkip (c : CoreNo) (s : State) : Out1 :=
  let x := s.core c.val
  let q := x.cueAt
  if x.live ∧ x.verdict (s.stage (stageOfCore c.val)).jump.toNat q = .skip then
    .next ((s.setCore c.val ((x.takeWait q).modP Prompter.step)).afterIssue c.val)
  else .next s

/-! ## SYN cues (R86, R92, R95, R96) -/

/-- TAKE. -/
def execSynTake (c : CoreNo) (s : State) : Out1 :=
  .next (s.attemptNow c.val (isCue 1 0) (fun s q _ => s.modCore c.val (fun x =>
    x.setToken (fld q 37 32) (x.token (fld q 37 32) - fld q 41 38))))

/-- GIVE: a token that would pass 15 stops it at issue. -/
def execGive (c : CoreNo) (s : State) : Out1 :=
  .next (s.attemptNow c.val (isCue 1 1) (fun s q _ => s.tokenRise c.val (fld q 37 32) (fld q 41 38)))

/-- FENCE. -/
def execFence (c : CoreNo) (s : State) : Out1 := .next (s.attemptNow c.val (isCue 1 2) (fun s _ _ => s))

/-- TILE_FREE. -/
def execTileFree (c : CoreNo) (s : State) : Out1 :=
  .next (s.attemptNow c.val (isCue 1 3) (fun s _ pk => s.modCore c.val (fun x => x.setStates .free pk.syncs)))

/-- A FREE tile becomes RESIDENT with a stream tag; format and axis are kept (R86). -/
def tileReady (t : Tile) : Tile :=
  match t.state with
  | .free => { t with state := .resident, tag := mkTag (tagFormat t.tag) (tagAxis t.tag) prodStream {} }
  | .filling => t
  | .resident => t

/-- Several tiles changed. -/
def Core.modTiles (c : Core) (f : Tile → Tile) : List Nat → Core
  | [] => c
  | i :: t => Core.modTiles (c.modTile i f) f t

/-- TILE_READY. -/
def execTileReady (c : CoreNo) (s : State) : Out1 :=
  .next (s.attemptNow c.val (isCue 1 4) (fun s _ pk => s.modCore c.val (fun x => x.modTiles tileReady pk.syncs)))

/-- FLAGS: clear, then set. -/
def execFlags (c : CoreNo) (s : State) : Out1 :=
  .next (s.attemptNow c.val (isCue 1 5) (fun s q _ => s.modCore c.val (fun x => x.modP (fun p =>
    { p with pflags := (p.pflags &&& ~~~ BitVec.ofNat 16 (fld q 63 48)) ||| BitVec.ofNat 16 (fld q 79 64) }))))

/-! ## RUN (R87) -/

/-- RUN_START: from IDLE or HALTED, at ENTRY; after a single step, at the cue that comes next. -/
def Core.runStart (c : Core) : Core :=
  match c.p.state with
  | .idle => c.modP (fun p => { p with run := true, state := .running, hold := .none, stepped := false, cp := if p.singleStep && p.stepped then p.cp else p.entry })
  | .halted => c.modP (fun p => { p with run := true, state := .running, hold := .none, stepped := false, cp := p.entry })
  | .running => c.modP (fun p => { p with run := true })
  | .hold => c.modP (fun p => { p with run := true })
  | .stopped => c.modP (fun p => { p with run := true })
  | .suspect => c.modP (fun p => { p with run := true })
  | .other _ => c.modP (fun p => { p with run := true })
  | .reset => c

/-- RUN_STOP: from RUNNING or HOLD to IDLE, CP kept. -/
def Core.runStop (c : Core) : Core :=
  match c.p.state with
  | .running => c.modP (fun p => { p with run := false, state := .idle, hold := .none, stepped := false })
  | .hold => c.modP (fun p => { p with run := false, state := .idle, hold := .none, stepped := false })
  | .idle => c.modP (fun p => { p with run := false, stepped := false })
  | .halted => c.modP (fun p => { p with run := false })
  | .stopped => c.modP (fun p => { p with run := false })
  | .suspect => c.modP (fun p => { p with run := false })
  | .other _ => c.modP (fun p => { p with run := false })
  | .reset => c

/-- A Core that a register write can reach. -/
def Core.open (c : Core) : Bool := !c.dark && !c.inReset && c.takeover.isNone

/-- A write of a register of a Core, as its door lets it: refused until READY, dark or under reset, held during a takeover
(R41, R421, R428, R432). -/
def State.atDoor (s : State) (c : Nat) (i : Instr) (f : State → State) : State :=
  if s.cur.phase ≠ .ready ∨ (s.core c).dark then s
  else if (s.core c).inReset then s.doorCount (stageOfCore c)
  else if s.holding c then s.hold c i
  else f s

/-- RUN_START. -/
def execRunStart (c : CoreNo) (s : State) : Out1 := .next (s.atDoor c.val (.runStart c) (fun s => s.modCore c.val Core.runStart))

/-- RUN_STOP. -/
def execRunStop (c : CoreNo) (s : State) : Out1 := .next (s.atDoor c.val (.runStop c) (fun s => s.modCore c.val Core.runStop))

/-! ## Scene commit and the shadow log (R102, R106, R107) -/

/-- Granules of a message in its ring and in the log (R106, R108). -/
def MsgReq.granules (m : MsgReq) : Nat := ceilDiv m.bytes.length 64

/-- Granules of a log item (R106). -/
def LogItem.granules : LogItem → Nat
  | .msg m => m.granules
  | .token _ => 1
  | .handle _ _ => 1
  | .words ws => ceilDiv (8 * ws.length) 64

/-- Granules of the log in use. -/
def Core.logUsed (c : Core) : Nat := (c.log.map LogItem.granules).foldl (· + ·) 0
/-- Granules of granted messages of every channel, which will enter the log. -/
def Core.grantedGranules (x : Core) : Nat :=
  ((x.msg.granted.map (fun (_, ms) => (ms.map MsgReq.granules).foldl (· + ·) 0))).foldl (· + ·) 0

/-- The log has room for `n` more granules beside those that granted messages will take. -/
def Core.logRoom (c : Core) (n : Nat) : Bool := decide (c.logUsed + c.grantedGranules + n ≤ 1024)

/-- A handle arrives at an endpoint of the Core's own log and list (R179, R180). -/
def Endpoint.arrive (e : Endpoint) (h : BitVec 128) : Endpoint := { e with waiting := e.waiting ++ [h] }

def Core.ep (c : Core) (h : Nat) : Endpoint := Tab.get {} c.str.eps h
def Core.setEp (c : Core) (h : Nat) (e : Endpoint) : Core := { c with str := { c.str with eps := Tab.set c.str.eps h e } }

/-- A token rise from outside the Core: logged, then the token rises (R92, R106). -/
def State.tokenIn (s : State) (c t : Nat) : State :=
  (s.modCore c (fun x => { x with log := x.log ++ [.token t] })).tokenRise c t 1

/-- A token signal reaches a Core: a dark Core or one under reset is skipped; while the log is full or a takeover runs, it is
held at the router (R106, R244). -/
def State.tokenSignal (s : State) (c t : Nat) : State :=
  let x := s.core c
  if x.dark || x.inReset then s
  else if x.takeover.isSome || !x.heldIn.isEmpty || !x.logRoom 1 then s.modCore c (fun x => { x with heldIn := x.heldIn ++ [.token t] })
  else s.tokenIn c t

/-- TOKEN_SIGNAL_ARRIVAL. -/
def execTokenSignalArrival (c : CoreNo) (t : Fin 64) (s : State) : Out1 := .next (s.tokenSignal c.val t.val)

/-- What the router's answer to a handle leaves with its sender comes with the streams; the handle itself is appended (R180). -/
def State.handleIn (s : State) (c ep : Nat) (h : BitVec 128) : State :=
  let e := (s.core c).ep ep
  let s := s.modCore c (fun x => { x.setEp ep (e.arrive h) with log := x.log ++ [.handle ep h] })
  if e.arriveEn then s.tokenRise c e.arriveToken.toNat 1 else s

/-- The marker of a Core commits (R102, R106, R107). -/
def Core.commit (c : Core) (m : Shadow) : Core :=
  { c.modP (fun p => { p with sceneId := m.sceneId, sceneCp := m.cp, scenes := p.scenes + 1 }) with
    marker := some m
    pending := none
    log := c.keptMsgs.map LogItem.msg ++ c.log.drop c.logAtLatch
    keptMsgs := []
    effects := c.effects.drop c.effectsAtLatch
    logAtLatch := 0
    effectsAtLatch := 0 }

/-! ## Gap fill (R100, R101) -/

/-- Work ends at an array: hold fill begins if the budget allows, else the ramp down (R100, R101). -/
def Core.workEnds (c : Core) (a : ArrayId) : Core :=
  let x := c.arr a
  if !x.jobs.isEmpty then c
  else c.setArr a { x with holdLeft :=
    if c.p.fillHold = 0 ∨ c.p.fillBudget.toNat ≤ c.p.fillUsed.toNat then none else some c.p.fillHold.toNat }

/-- Steps of hold fill that remain at an array. -/
def Arr.holdSteps (a : Arr) : Nat := a.holdLeft.getD 0

/-- Steps of an array's hold fill that have run when something interrupts it: a free number, never more than remain of it. -/
def Core.holdRun (c : Core) (a : ArrayId) (k : Nat) : Nat :=
  Config.holdSteps k (match a with | .arrA => 0 | .arrB => 1) % ((c.arr a).holdSteps + 1)

/-- Hold-fill steps counted, never past the budget (R101). -/
def Prompter.countFill (p : Prompter) (n : Nat) : Prompter :=
  { p with fillUsed := satInc p.fillUsed (min n (p.fillBudget.toNat - p.fillUsed.toNat)) }

/-- New work at an array ends its hold fill: the steps that have run are counted (R101). -/
def Core.holdCut (c : Core) (a : ArrayId) (k : Nat) : Core :=
  if (c.arr a).holdLeft.isNone then c
  else (c.setArr a { c.arr a with holdLeft := none }).modP (fun p => p.countFill (c.holdRun a k))

/-- The cue at the pointer is held for RAMP and names the array. -/
def Core.rampHeld (c : Core) (jump : Nat) (a : ArrayId) : Bool :=
  decide (c.p.state = .hold ∧ c.p.hold = .ramp) && rampHold jump c c.cueAt && namesArr c.cueAt a

/-- An array that rises: named by a cue held for RAMP, below 16 (R100). -/
def Core.rising (c : Core) (jump : Nat) (a : ArrayId) : Bool := c.rampHeld jump a && decide ((c.arr a).level.toNat < 16)

/-- RAMP_LEVEL_STEP: up while a cue is held for RAMP, down without work or hold fill (R100); the steps of the hold are counted
once where two arrays rise. -/
def execRampLevelStep (c : CoreNo) (a : ArrayId) (s : State) : Out1 :=
  let st := s.stage (stageOfCore c.val)
  let x := s.core c.val
  let y := x.arr a
  if x.rampHeld st.jump.toNat a then
    if x.rising st.jump.toNat a then
      let counts := match a with
        | .arrA => true
        | .arrB => !x.rising st.jump.toNat .arrA
      .next (s.setCore c.val ((x.setArr a { y with level := y.level + 1 }).modP (fun p =>
        if counts then { p with rampHolds := satInc p.rampHolds st.rampSteps.toNat } else p)))
    else .next s
  else if y.jobs.isEmpty ∧ y.holdLeft = none ∧ 0 < y.level.toNat then
    .next (s.setCore c.val (x.setArr a { y with level := y.level - 1 }))
  else .next s

/-- HOLD_FILL_END: the steps of the hold count, and the ramp down begins (R100, R101). -/
def execHoldFillEnd (c : CoreNo) (a : ArrayId) (s : State) : Out1 :=
  let x := s.core c.val
  let y := x.arr a
  match y.holdLeft with
  | none => .next s
  | some n =>
    if x.p.fillBudget.toNat < x.p.fillUsed.toNat + n then .next s
    else .next (s.setCore c.val ((x.setArr a { y with holdLeft := none }).modP (fun p => { p with fillUsed := satInc p.fillUsed n })))

/-- FILL_BUDGET_EXHAUSTED: hold fill of both arrays ends (R101). -/
def execFillBudgetExhausted (c : CoreNo) (s : State) : Out1 :=
  let x := s.core c.val
  let left := x.arrA.holdSteps + x.arrB.holdSteps
  if left = 0 ∨ x.p.fillUsed.toNat + left < x.p.fillBudget.toNat then .next s
  else .next (s.setCore c.val ({ x with arrA := { x.arrA with holdLeft := none }, arrB := { x.arrB with holdLeft := none } }.modP
    (fun p => { p with fillUsed := p.fillBudget })))

/-- A hold fill goes on into a new window without the steps it ran before (R101). -/
def Core.holdPast (c : Core) (a : ArrayId) (k : Nat) : Core :=
  if (c.arr a).holdLeft.isNone then c
  else c.setArr a { c.arr a with holdLeft := some ((c.arr a).holdSteps - c.holdRun a k) }

/-- FILL_WINDOW_RESET (R101). -/
def execFillWindowReset (c : CoreNo) (s : State) : Out1 :=
  .next ((s.modCore c.val (fun x => ((x.holdPast .arrA s.freeCtr).holdPast .arrB s.freeCtr).modP (fun p => { p with fillUsed := 0 }))).fresh)

/-! ## Outward effects (R107) -/

/-- An outward effect of a Core: suppressed on replay, with what was recorded for it, or counted. -/
def Core.effect (c : Core) (ref : Nat) : Option Effect × Core :=
  match c.replayEffects with
  | e :: t => (some e, { c with replayEffects := t, effects := c.effects ++ [e] })
  | [] => (none, { c with effects := c.effects ++ [{ ref := ref }] })

/-- The status an effect ended with is recorded at the last one of its reference that has none. -/
def recordEffect (ref : Nat) (st : Status) (ws : List W64) : List Effect → List Effect
  | [] => []
  | e :: t => if e.ref = ref ∧ e.status = none then { e with status := some st, words := ws } :: t else e :: recordEffect ref st ws t

def Core.effectEnds (c : Core) (ref : Nat) (st : Status) (ws : List W64) : Core := { c with effects := recordEffect ref st ws c.effects }

/-- The status a suppressed effect completes with. -/
def Effect.statusOr (e : Effect) (k : Nat) : Status := e.status.getD (Config.lostEffectStatus k)

end Sys2Proof.Machine
end

