-- ==== Sys2Proof/Machine/Rng.lean ====
section
/-! DEFINITION. The rounding generators and the entropy source (R52 to R55, R469).
Log entry with the readings and choices that are the model's: 31. -/

namespace Sys2Proof.Machine

/-- Rotation left by 32. -/
def rotl32 (x : W64) : W64 := (x <<< 32) ||| (x >>> 32)

/-- One output of a stream (R55). -/
def Rng.next (r : Rng) : W64 × Rng :=
  let x := r.s0 ^^^ (r.s0 <<< 23)
  let y := r.s1
  let z := x ^^^ y ^^^ (x >>> 17) ^^^ (y >>> 26)
  (z + y, { r with s0 := y, s1 := z })

/-- Outputs discarded. -/
def Rng.skip : Nat → Rng → Rng
  | 0, r => r
  | n + 1, r => Rng.skip n r.next.2

/-- A stream seeded from two words (R55). -/
def Rng.seeded (s0 s1 : W64) : Rng :=
  Rng.skip 16 { s0 := s0, s1 := if s0 = 0 ∧ s1 = 0 then 1 else s1, buf := [], draws := 0 }

/-- Stream k of a Core under FIXED_SEED (R54, R55). -/
def fixedRng (seed : W64) (c k : Nat) : Rng :=
  let s0 := seed ^^^ (BitVec.ofNat 64 (c + 512 * k + 1) * 0x9E3779B97F4A7C15)
  Rng.seeded s0 (rotl32 s0 ^^^ 0xD1B54A32D192ED03)

/-- A stream seeded from the entropy source (R53, R55). -/
def entropyRng (ctr : Nat) : Rng := Rng.seeded (Config.entropy ctr) (Config.entropy (ctr + 1))

/-- The four draws of an output, low bits first (R55). -/
def drawsOf (w : W64) : List (BitVec 16) := [w.setWidth 16, (w >>> 16).setWidth 16, (w >>> 32).setWidth 16, (w >>> 48).setWidth 16]

/-- One draw. -/
def Rng.draw (r : Rng) : Nat × Rng :=
  match r.buf with
  | u :: t => (u.toNat, { r with buf := t, draws := r.draws + 1 })
  | [] =>
    let (w, r) := r.next
    match drawsOf w with
    | u :: t => (u.toNat, { r with buf := t, draws := r.draws + 1 })
    | [] => (0, r)

/-- Draws after which a stream is reseeded (R53). -/
def reseedAfter : Nat := 2 ^ 24

/-- The source a unit of a Core rounds with: its stream, whether it may reseed, the model's counter of entropy words. -/
structure Source where
  rng   : Rng
  fixed : Bool
  ctr   : Nat
deriving DecidableEq, Repr

/-- A draw, after a reseed where the stream has given 2^24 (R53). -/
def Source.draw (x : Source) : Nat × Source :=
  let x := if reseedAfter ≤ x.rng.draws ∧ !x.fixed then { x with rng := entropyRng x.ctr, ctr := x.ctr + 2 } else x
  let (u, r) := x.rng.draw
  (u, { x with rng := r })

/-- A stream of a Core as a source. -/
def State.source (s : State) (c k : Nat) : Source :=
  { rng := Tab.get {} (s.core c).rng k, fixed := (s.troupe (troupeOfCore c)).fixedSeed, ctr := s.freeCtr }

/-- A source returned to its Core. -/
def State.setSource (s : State) (c k : Nat) (x : Source) : State :=
  { (s.modCore c (fun y => { y with rng := Tab.set y.rng k x.rng })) with freeCtr := x.ctr }

/-- Streams of a Core seeded as it leaves reset (R53 to R55). -/
def State.seedCore (s : State) (c : Nat) : State :=
  let t := s.troupe (troupeOfCore c)
  if t.fixedSeed then
    s.modCore c (fun y => { y with rng := [(0, fixedRng t.seed c 0), (1, fixedRng t.seed c 1), (2, fixedRng t.seed c 2)] })
  else
    { (s.modCore c (fun y => { y with rng := [(0, entropyRng s.freeCtr), (1, entropyRng (s.freeCtr + 2)), (2, entropyRng (s.freeCtr + 4))] })) with
      freeCtr := s.freeCtr + 6 }

/-- How a conversion that asks for stochastic rounding is performed in a Core (R53). -/
def State.fallsBack (s : State) (c : Nat) : Bool :=
  let t := s.troupe (troupeOfCore c)
  !t.entropyOk && !t.fixedSeed

/-- RNG_RESEED: a stream that has given 2^24 draws is reseeded, unless FIXED_SEED is set (R53, R54). -/
def execRngReseed (c : CoreNo) (k : Fin 3) (s : State) : Out1 :=
  let x := s.source c.val k.val
  if reseedAfter ≤ x.rng.draws ∧ !x.fixed then
    .next (s.setSource c.val k.val { x with rng := entropyRng x.ctr, ctr := x.ctr + 2 })
  else .next s

/-- The verdict of the health tests turns to failing (R53, R469); one that REG_FORCE makes counts too (DESIGN CHOICE: log entry 31). -/
def State.entropyFails (s : State) (t : Nat) (forced : Bool) : State :=
  if (s.troupe t).entropyOk then
    (s.modTroupe t (fun x => { x with entropyOk := false, healthFails := satInc x.healthFails })).entropyNotice t 1 forced
  else s

/-- The tests pass again (R53, R469). -/
def State.entropyPasses (s : State) (t : Nat) (forced : Bool) : State :=
  if (s.troupe t).entropyOk then s
  else (s.modTroupe t (fun x => { x with entropyOk := true })).entropyNotice t 2 forced

/-- ENTROPY_HEALTH_FAIL. -/
def execEntropyHealthFail (t : TroupeNo) (s : State) : Out1 := .next (s.entropyFails t.val false)

/-- ENTROPY_HEALTH_OK. -/
def execEntropyHealthOk (t : TroupeNo) (s : State) : Out1 :=
  .next (if (s.troupe t.val).started then s.entropyPasses t.val false else s)

end Sys2Proof.Machine
end

