-- ==== Sys2Proof/Machine/Arrays.lean ====
section
/-! DEFINITION. The matrix arrays: modes, accumulation, the tile check, drains, stationary tiles, Gram taps
(R57 to R62, R72 to R77, R112 to R121, R134 to R138). A cue accumulates its tiles as it issues; its check verdicts and drains
are steps of their own.
Log entries with the readings and choices that are the model's: 13, 19, 20, 21, 25, 28. -/

namespace Sys2Proof.Machine

/-! ## ARR fields (R89) -/

def arrMode (q : W128) : Nat := fld q 29 26
def arrP (q : W128) : Fmt := fmtOf (fld q 33 30)
def arrQ (q : W128) : Fmt := fmtOf (fld q 37 34)
def arrOut (q : W128) : Nat := fld q 41 38
def arrRnd (q : W128) : Nat := fld q 43 42
def arrNP (q : W128) : Nat := fld q 61 56 + 1
def pTrans (q : W128) : Bool := fld q 75 75 == 1
def qTrans (q : W128) : Bool := fld q 76 76 == 1
def pRel (q : W128) : Bool := fld q 77 77 == 1
def qRel (q : W128) : Bool := fld q 78 78 == 1
def accCont (q : W128) : Bool := fld q 79 79 == 1
def accKeep (q : W128) : Bool := fld q 80 80 == 1
def arrGram (q : W128) : Bool := fld q 81 81 == 1

/-! ## Accumulation (R57 to R60) -/

/-- An operand of an array: reduction or line indexes to values. -/
abbrev Grid := Nat → Nat → FVal

/-- Bounds of a 48-bit accumulator (R60). -/
def acc48Max : Int := 140737488355327
def acc48Min : Int := -140737488355328

/-- An FP32 accumulator takes an exact addend (R57, R59). -/
def accFloat (acc : FVal × Bool) (x : FVal) : FVal × Bool :=
  let (v, sat) := sat32 (acc.1.add x)
  (v, acc.2 || sat)

/-- Exact sum of products for reduction indexes k, k + 1, …, k + n − 1. -/
def dotFrom (a b : Nat → FVal) : Nat → Nat → FVal
  | _, 0 => FVal.zero
  | k, n + 1 => ((a k).mul (b k)).add (dotFrom a b (k + 1) n)

/-- One product at a time, rounding at each (R57). -/
def accEach (a b : Nat → FVal) : Nat → Nat → FVal × Bool → FVal × Bool
  | _, 0, acc => acc
  | k, n + 1, acc => accEach a b (k + 1) n (accFloat acc ((a k).mul (b k)))

/-- One block pair of 32 products at a time, rounding once per block (R57). -/
def accBlocks (a b : Nat → FVal) : Nat → Nat → FVal × Bool → FVal × Bool
  | _, 0, acc => acc
  | k, n + 1, acc => accBlocks a b (k + 32) n (accFloat acc (dotFrom a b k 32))

/-- The integer a value is; operands of integer formats always are. -/
def FVal.int (v : FVal) : Int := v.toInt.getD 0

/-- One integer product at a time in 48 bits, held at its bound (R57, R60). -/
def accInt (a b : Nat → FVal) : Nat → Nat → Int × Bool → Int × Bool
  | _, 0, acc => acc
  | k, n + 1, acc =>
    let (v, c) := clampInt acc48Min acc48Max (acc.1 + (a k).int * (b k).int)
    accInt a b (k + 1) n (v, acc.2 || c)

/-- How a cue's accumulators work. -/
inductive AccKind where
  | each | blocks | integer
deriving DecidableEq, Repr

def accKind (q : W128) : AccKind :=
  if (arrP q).isInt then .integer else if (arrP q).isMx then .blocks else .each

/-- One cell: its word after `n` products from its word before, and whether it saturated (R57 to R60, R62). -/
def cellRun (kind : AccKind) (init : W64) (n : Nat) (a b : Nat → FVal) : W64 × Bool :=
  match kind with
  | .integer =>
    let (v, c) := accInt a b 0 n (init.toInt, false)
    (BitVec.ofInt 64 v, c)
  | .each =>
    let (v, c) := accEach a b 0 n (f32 init.toNat, false)
    (BitVec.ofNat 64 (r32 v), c)
  | .blocks =>
    let (v, c) := accBlocks a b 0 (n / 32) (f32 init.toNat, false)
    (BitVec.ofNat 64 (r32 v), c)

/-- A feeder's sum over 64 values (R72): exact for integers, FP32 otherwise. -/
def feederSum (kind : AccKind) (f : Nat → FVal) : FVal :=
  match kind with
  | .integer => (List.range 64).foldl (fun acc i => acc.add (f i)) FVal.zero
  | .each => f32 (Config.feederSum ((List.range 64).map (fun i => r32 (f i))))
  | .blocks => f32 (Config.feederSum ((List.range 64).map (fun i => r32 (f i))))

/-- Word (r, c) of an accumulator image after a run (R62, R72): accumulators, signed and magnitude checksum cells, zero corners. -/
def imageWord (kind : AccKind) (init : Tab W64) (n : Nat) (a b : Grid) (r c : Nat) : W64 × Bool :=
  let i := Tab.get 0 init (66 * r + c)
  if r < 64 ∧ c < 64 then cellRun kind i n (fun k => a r k) (fun k => b k c)
  else if r < 64 ∧ c = 64 then cellRun kind i n (fun k => a r k) (fun k => feederSum kind (fun x => b k x))
  else if r < 64 ∧ c = 65 then cellRun kind i n (fun k => (a r k).abs) (fun k => feederSum kind (fun x => (b k x).abs))
  else if r = 64 ∧ c < 64 then cellRun kind i n (fun k => feederSum kind (fun x => a x k)) (fun k => b k c)
  else if r = 65 ∧ c < 64 then cellRun kind i n (fun k => feederSum kind (fun x => (a x k).abs)) (fun k => (b k c).abs)
  else (0, false)

/-- An image after a run, whether an accumulator proper saturated, and the rows and columns with a saturated or NaN cell. -/
structure Image where
  cells : Tab W64
  sat   : Bool
  excluded : List Nat

/-- A cell lies in the part of the image that the check of row or column `k` looks at (R73, R74). -/
def inCheck (k i : Nat) : Bool :=
  if k < 64 then i / 66 == k else decide (i % 66 = k - 64)

/-- All words of an image (R57 to R60, R62, R72, R74). -/
def imageRun (kind : AccKind) (init : Tab W64) (n : Nat) (a b : Grid) : Image :=
  let ws := (List.range 4356).map (fun i => (i, imageWord kind init n a b (i / 66) (i % 66)))
  let bad := ws.filter (fun (_, w) => w.2 || (kind != .integer && (f32 w.1.toNat).isNan))
  { cells := ws.filterMap (fun (i, w) => if w.1 = 0 then none else some (i, w.1))
    sat := ws.any (fun (i, w) => w.2 && decide (i / 66 < 64 ∧ i % 66 < 64))
    excluded := (List.range 128).filter (fun k => bad.any (fun (i, _) => inCheck k i)) }

/-! ## Operands by mode (R114 to R117) -/

/-- Elements of a list at even places, and at odd places. -/
def evens : List Nat → List Nat
  | [] => []
  | [x] => [x]
  | x :: _ :: t => x :: evens t
def odds : List Nat → List Nat
  | [] => []
  | [_] => []
  | _ :: y :: t => y :: odds t

/-- P as the outer-product operand: element m of line k, k running over the tiles of a run (R116). -/
def gridP (s : State) (c : Nat) (f : Fmt) (trans : Bool) (ts : List Nat) : Grid := fun m k =>
  let t := (s.core c).tile (nth 0 ts (k / 64))
  if trans then s.fed c t f m (k % 64) else s.fed c t f (k % 64) m

/-- Q as the outer-product operand: element n of line k. -/
def gridQ (s : State) (c : Nat) (f : Fmt) (trans : Bool) (ts : List Nat) : Grid := fun k n =>
  let t := (s.core c).tile (nth 0 ts (k / 64))
  if trans then s.fed c t f n (k % 64) else s.fed c t f (k % 64) n

/-- Moving lines: element k within line m, over a tile or pair (R116, R117). -/
def gridMoving (s : State) (c : Nat) (f : Fmt) (trans : Bool) (ts : List Nat) : Grid := fun m k =>
  let t := (s.core c).tile (nth 0 ts (k / 64))
  if trans then s.fed c t f (k % 64) m else s.fed c t f m (k % 64)

/-- One destination tile of a cue before it is accumulated: its operand tiles and grids. -/
structure TilePlan where
  dest : Option Nat
  outFmt : Nat
  n    : Nat
  a    : Grid
  b    : Grid
  ins  : List Nat
  first : Nat

/-- A P run and a Q run of one array in an OS mode. -/
def planOs (s : State) (c : Nat) (q : W128) (ps qs : List Nat) (dest : Option Nat) : TilePlan :=
  { dest := dest, outFmt := arrOut q, n := 64 * ps.length, a := gridP s c (arrP q) (pTrans q) ps,
    b := gridQ s c (arrQ q) (qTrans q) qs, ins := ps ++ qs, first := qs.headD 0 }

/-- Runs of `t` tiles. -/
def runsOf (t : Nat) : Nat → List Nat → List (List Nat)
  | 0, _ => []
  | h + 1, l => l.take t :: runsOf t h (l.drop t)

/-- Tiles of an OS_HELD cue on one array: one for each row block. -/
def planHeld (s : State) (c : Nat) (q : W128) (qs : List Nat) : List (List Nat) → List Nat → List TilePlan
  | [], _ => []
  | ps :: t, ds => planOs s c q ps qs ds.head? :: planHeld s c q qs t ds.tail

/-- Tiles of a WS cue on one array: one for each moving tile or pair. -/
def planWs (s : State) (c : Nat) (q : W128) (qs : List Nat) : List (List Nat) → List Nat → List TilePlan
  | [], _ => []
  | ps :: t, ds =>
    { dest := ds.head?, outFmt := arrOut q, n := 64 * ps.length, a := gridMoving s c (arrP q) (pTrans q) ps,
      b := gridQ s c (arrQ q) (qTrans q) qs, ins := ps ++ qs, first := qs.headD 0 } :: planWs s c q qs t ds.tail

/-- dX tiles of a BWD_DUAL cue: W reduced along its stored rows (R116). -/
def planDx (s : State) (c : Nat) (q : W128) (w : Nat) : List Nat → List Nat → List TilePlan
  | [], _ => []
  | p :: t, ds =>
    { dest := ds.head?, outFmt := arrOut q, n := 64, a := gridMoving s c (arrP q) (pTrans q) [p],
      b := gridQ s c (arrQ q) true [w], ins := [p, w], first := w } :: planDx s c q w t ds.tail

/-- The dW tile of a BWD_DUAL cue: X lines and dY lines, FP32 out (R117). -/
def planDw (s : State) (c : Nat) (q : W128) (ps xs : List Nat) (dest : Option Nat) : TilePlan :=
  { dest := dest, outFmt := 0, n := 64 * ps.length, a := gridP s c (arrQ q) (qTrans q) xs,
    b := gridQ s c (arrP q) (pTrans q) ps, ins := ps ++ xs, first := xs.headD 0 }

/-- Stationary tiles per array and moving tiles per line: 2 where both operands are MXFP4 (R114). -/
def wsDepth (q : W128) : Nat := if arrP q = .mxE2m1 ∧ arrQ q = .mxE2m1 then 2 else 1

/-- The tiles each array forms, in the order they complete (R114, R117). -/
def arrTiles (s : State) (c : Nat) (q : W128) (pk : Peek) (a : ArrayId) : List TilePlan :=
  let ps := pk.ops.take (arrNP q)
  let qs := pk.ops.drop (arrNP q)
  let ds := pk.dests
  let both := bothArrays q
  let mine := fun (l : List Nat) => if !both then l else match a with
    | .arrA => evens l
    | .arrB => odds l
  if arrMode q = 0 then [planOs s c q ps (mine qs) (mine ds).head?]
  else if arrMode q = 1 then [planOs s c q (mine ps) qs (mine ds).head?]
  else if arrMode q = 2 then
    let qs' := mine qs
    planHeld s c q qs' (runsOf qs'.length (ps.length / qs'.length) ps) (mine ds)
  else if arrMode q = 3 then
    let d := wsDepth q
    let qs' := if !both then qs else match a with
      | .arrA => qs.take d
      | .arrB => qs.drop d
    planWs s c q qs' (runsOf d (ps.length / d) ps) (mine ds)
  else match a with
    | .arrA => planDx s c q (qs.headD 0) ps ds
    | .arrB => [planDw s c q ps qs.tail ds.getLast?]

/-- The image a cue starts from: the kept accumulators it continues, or zero (R90, R99). -/
def Arr.keptJob (x : Arr) : Option TileJob :=
  match x.jobs.getLast? with
  | some j => if j.keep then j.tiles.head? else none
  | none => x.kept

/-- Nominal steps of one tile pair or line set: products per cell and step, as numerator and denominator (R57). -/
def rateOf (p q : Fmt) : Nat × Nat :=
  if p = .mxE2m1 ∧ q = .mxE2m1 then (2, 1)
  else if p = .bf16 ∨ p = .fp16 then (1, 2)
  else if p = .fp32 then (1, 8)
  else (1, 1)

/-- A tile accumulated (R57 to R60, R64, R72, R74, R86). -/
def formTile (s : State) (c : Nat) (q : W128) (kept : Option TileJob) (p : TilePlan) : TileJob :=
  let im := imageRun (accKind q) ((kept.map (·.cells)).getD []) p.n p.a p.b
  let d := (s.core c).tile (p.dest.getD 0)
  let (rn, rd) := rateOf (arrP q) (arrQ q)
  { dest := p.dest.getD 0, cells := im.cells, integer := (arrP q).isInt, products := p.n + (kept.map (·.products)).getD 0,
    outFmt := BitVec.ofNat 4 p.outFmt, rnd := BitVec.ofNat 2 (arrRnd q), rows := d.rows, cols := d.cols,
    sat := im.sat || (kept.map (·.sat)).getD false,
    satIn := p.ins.any (fun i => tagSat ((s.core c).tile i).tag) || (kept.map (·.satIn)).getD false,
    slice := arrP q == .slice8, version := (kept.map (·.version)).getD ((s.core c).tile p.first).version,
    excluded := dedup ((kept.map (·.excluded)).getD [] ++ im.excluded), steps := p.n / max 1 (rn / rd) }

/-- The job of a cue on one array. -/
def arrJob (s : State) (c num : Nat) (q : W128) (pk : Peek) (a : ArrayId) : ArrJob :=
  let kept := if accCont q then ((s.core c).arr a).keptJob else none
  { cue := { num := num, cls := 2, signal := cueSignal q }, mode := BitVec.ofNat 4 (arrMode q),
    tiles := (arrTiles s c q pk a).map (formTile s c q kept), keep := accKeep q,
    pTiles := pk.ops.take (arrNP q), qTiles := if bothArrays q && arrMode q != 1 then (match a with
      | .arrA => evens (pk.ops.drop (arrNP q))
      | .arrB => odds (pk.ops.drop (arrNP q))) else pk.ops.drop (arrNP q),
    needsStationary := decide (3 ≤ arrMode q) && (match a with
      | .arrA => true
      | .arrB => arrMode q == 3),
    shared := bothArrays q, cont := accCont q }

/-! ## Steps of a cue (R118, R119) -/

/-- Line bytes of an operand (R118). -/
def lineBytes (f : Fmt) : Nat := 64 * f.wide + (if f.isMx then 2 else 0)

/-- The parts of a cue that have a demand of their own: Wings bytes that each moves, and its steps at the nominal rate (R118). In
OS_HELD the first row block and the later ones are two parts. -/
def arrParts (q : W128) (pk : Peek) : List (Nat × Nat) :=
  let (rn, rd) := rateOf (arrP q) (arrQ q)
  let lp := lineBytes (arrP q)
  let lq := lineBytes (arrQ q)
  let eD := (fmtOf (arrOut q)).wide
  let o := 4096 * eD
  let np := arrNP q
  let nq := pk.ops.length - np
  let arrays := if bothArrays q then 2 else 1
  let nd := pk.dests.length
  let c := 64 * np * rd / rn
  if arrMode q ≤ 1 then [(64 * (np * lp + nq * lq) + nd * o, 64 * (if arrMode q = 0 then np else nq) * rd / rn)]
  else if arrMode q = 2 then
    let t := nq / arrays
    [(64 * (t * lp + nq * lq) + arrays * o, 64 * t * rd / rn),
     (64 * (np - t) * lp + (nd - arrays) * o, 64 * (np - t) * rd / rn)]
  else if arrMode q = 3 then [(64 * np * lp + 64 * arrays * eD * c * min rn rd / rd + 4096 * (arrQ q).wide * nq, c)]
  else [(64 * np * (lp + lq) + 64 * eD * c * min rn rd / rd + 4096 * (arrQ q).wide + 16384, c)]

/-- Steps with products, and steps lost to pacing: a part draws at most 256 bytes a step (R118, R119). -/
def arrSteps (q : W128) (pk : Peek) : Nat × Nat :=
  let (rn, rd) := rateOf (arrP q) (arrQ q)
  let parts := arrParts q pk
  ((parts.map (·.2)).foldl (· + ·) 0 * rn / rd / max 1 (rn / rd),
   (parts.map (fun (b, c) => ceilDiv b 256 - c)).foldl (· + ·) 0)

/-! ## Gram taps (R134 to R138) -/

/-- The tap a tapped cue's runs on an array go to: of lines shared by both arrays A's tap if it is enabled, otherwise B's (R134). -/
def tapRole (x : Core) (q : W128) (a : ArrayId) : Bool :=
  if !namesArr q a then false
  else if arrMode q = 1 ∨ !bothArrays q then (x.arr a).tap.on
  else match a with
    | .arrA => x.arrA.tap.on
    | .arrB => !x.arrA.tap.on && x.arrB.tap.on

/-- The runs of a cue on an array (R136). -/
def tapRuns (q : W128) (pk : Peek) (a : ArrayId) : List (List Nat) :=
  let ps := pk.ops.take (arrNP q)
  let nq := pk.ops.length - arrNP q
  if arrMode q = 0 then [ps]
  else if arrMode q = 1 then [match a with
    | .arrA => evens ps
    | .arrB => odds ps]
  else if arrMode q = 2 then
    let t := if bothArrays q then nq / 2 else nq
    runsOf t (ps.length / t) ps
  else if arrMode q = 3 then runsOf (wsDepth q) (ps.length / wsDepth q) ps
  else ps.map (fun p => [p])

/-- The accumulator a cue's runs go to (R135). -/
def tapLine (t : Tap) (q : W128) : Nat :=
  if arrMode q = 4 ∨ (arrMode q = 3 ∧ qTrans q) then t.yyLine.toNat else t.xxLine.toNat

/-- Element of a P tile arranged with tokens as rows (R135), rounded to BF16. -/
def tapElem (s : State) (c : Nat) (q : W128) (p token feature : Nat) : FVal :=
  let t := (s.core c).tile p
  let across := decide (3 ≤ arrMode q)
  let v := if across != pTrans q then s.fed c t (arrP q) token feature else s.fed c t (arrP q) feature token
  ofLayout bf16 (v.toLayout bf16 .toMax none).code

/-- Valid token rows of a P tile (R137). -/
def tapRows (s : State) (c : Nat) (q : W128) (p : Nat) : Nat :=
  let t := (s.core c).tile p
  if decide (3 ≤ arrMode q) != pTrans q then t.rows else t.cols

/-- FP32 values added one after another from a Gallery address; a line that is lost, shut or outside the Gallery keeps its bytes (R204, R206). -/
def State.lineAdds (s : State) (a : Nat) : List Nat → State
  | [] => s
  | v :: t => State.lineAdds (if inGallery a && !s.lineLost a && !s.sectorShut (troupeUnder a) then s.lineAdd a v else s) (a + 4) t

/-- The 64 × 64 values of a tile pair, row-major (R135, R137). -/
def pairValues (s : State) (c : Nat) (q : W128) (p p' : Nat) : List Nat :=
  (List.range 4096).map (fun i =>
    Config.gramDot ((List.range 64).map (fun m => (r32 (tapElem s c q p m (i / 64)), r32 (tapElem s c q p' m (i % 64))))))

/-- A tile pair's place: its first Gallery line within the region (R137). -/
def pairLine (tb β a b : Nat) : Nat := 1 + 64 * (β * (tb * (tb + 1) / 2) + a * tb - a * (a - 1) / 2 + b - a)

/-- Tile positions of a run that are paired: (block, a, b, position of a, position of b), in order (R137). -/
def runPairs (tb blocks n : Nat) : List (Nat × Nat × Nat) :=
  let lim := min n (blocks * tb)
  ((List.range lim).map (fun i => ((List.range lim).filter (fun j => decide (i ≤ j ∧ j / tb = i / tb))).map (fun j =>
    (pairLine tb (i / tb) (i % tb) (j % tb), i, j)))).flatten

/-- The adds of a run, each one effect (R107, R137); `ROWS` travels with the last. -/
def State.tapAdds (s : State) (c : Nat) (q : W128) (region : Nat) (run : List Nat) (rows : Nat) : List (Nat × Nat × Nat) → State
  | [] => s
  | (line, i, j) :: t =>
    let (seen, x) := (s.core c).effect 0
    let s := s.setCore c (x.effectEnds 0 .ok [])
    let s := if seen.isSome then s else
      let s := s.lineAdds (region + 256 * line) (pairValues s c q (nth 0 run i) (nth 0 run j))
      if t.isEmpty then s.pokeNum (region + 8) 8 (s.num (region + 8) 8 + rows) else s
    State.tapAdds s c q region run rows t

/-- The entry of a line moved to the end, the most recently used; a new one may replace the oldest of 64 (R136). -/
def useLine (n line : Nat) (ls : List TapLine) : List TapLine :=
  let e := (ls.find? (fun x => x.line == line)).getD { line := line, w := 0, seen := false, run := 0 }
  let e := if e.seen then e else { e with w := (e.w + 1) % n, seen := true }
  let rest := ls.filter (fun x => x.line != line)
  (if 64 ≤ rest.length then rest.tail else rest) ++ [e]

/-- The tap of an array changed. -/
def Core.modTap (x : Core) (a : ArrayId) (f : Tap → Tap) : Core := x.setArr a { x.arr a with tap := f (x.arr a).tap }

/-- Runs offered to a tap in order: run r is taken when (r + w) mod n = 0 (R136). -/
def State.tapTake (s : State) (c : Nat) (a : ArrayId) (q : W128) (line region tb blocks : Nat) : List (List Nat) → State
  | [] => s
  | run :: t =>
    let tap := ((s.core c).arr a).tap
    let e := (tap.lines.getLast?).getD { line := line, w := 0, seen := true, run := 0 }
    let n := tap.sampleM1.toNat + 1
    let taken := (e.run + e.w) % n == 0
    let pairs := runPairs tb blocks run.length
    let s := s.modCore c (fun x => x.modTap a (fun y => { y with
      lines := y.lines.dropLast ++ [{ e with run := e.run + 1 }]
      runs := if taken then satInc y.runs else y.runs
      adds := if taken then satInc y.adds pairs.length else y.adds }))
    let s := if taken then s.tapAdds c q region run (tapRows s c q (run.headD 0)) pairs else s
    State.tapTake s c a q line region tb blocks t

/-- A reserved BLOCK_TILES raises one notice a window (R137). -/
def State.tapBad (s : State) (c : Nat) (a : ArrayId) : State :=
  if ((s.core c).arr a).tap.badHeader then s
  else (s.modCore c (fun x => x.modTap a (fun y => { y with badHeader := true }))).raise [s.queueOf (.core c)] kTap (.core c) .badParam 0 []

/-- What a tapped cue does at the tap of an array (R134 to R138). A header that cannot be read is not tapped. -/
def State.tapCue (s : State) (c : Nat) (q : W128) (pk : Peek) (a : ArrayId) : State :=
  if !arrGram q || !tapRole (s.core c) q a then s
  else
    let tap := ((s.core c).arr a).tap
    let line := tapLine tap q
    let region := galleryBase + 256 * line
    match s.readMem .unit region 256 with
    | .error _ => s
    | .ok h =>
      let v := ofLe h
      let tb := bitsOf v 4 0
      if tb ≠ 1 ∧ tb ≠ 2 ∧ tb ≠ 4 ∧ tb ≠ 8 ∧ tb ≠ 16 then s.tapBad c a
      else
        (s.modCore c (fun x => x.modTap a (fun y => { y with lines := useLine (y.sampleM1.toNat + 1) line y.lines }))).tapTake
          c a q line region tb (bitsOf v 31 16) (tapRuns q pk a)

/-- Steps a tap holds its array during a cue: none where it takes no run of it, or where a taken run costs no array steps
(n × S ≥ 128 (t_b + 1), each tile occupying S steps); otherwise a free number (R138). -/
def State.tapHold (s : State) (c num : Nat) (q : W128) (pk : Peek) (a : ArrayId) : Nat :=
  let tap := ((s.core c).arr a).tap
  let line := tapLine tap q
  let n := tap.sampleM1.toNat + 1
  let (rn, rd) := rateOf (arrP q) (arrQ q)
  match s.readMem .unit (galleryBase + 256 * line) 256 with
  | .error _ => 0
  | .ok h =>
    let tb := bitsOf (ofLe h) 4 0
    let e := ((useLine n line tap.lines).getLast?).getD { line := line, w := 0, seen := true, run := 0 }
    let takes := (List.range (tapRuns q pk a).length).any (fun i => (e.run + i + e.w) % n == 0)
    if !arrGram q || !tapRole (s.core c) q a || !takes || !([1, 2, 4, 8, 16].contains tb) || decide (128 * (tb + 1) ≤ n * (64 * rd / rn)) then 0
    else Config.tapHold num

/-- A tap as a GRM cue leaves it (R134, R136). -/
def Tap.configure (t : Tap) (q : W128) : Tap :=
  if fld q 26 26 = 1 then
    let m : BitVec 6 := BitVec.ofNat 6 (fld q 32 27)
    { t with on := true, sampleM1 := m, xxLine := BitVec.ofNat 27 (fld q 59 33), yyLine := BitVec.ofNat 27 (fld q 86 60),
             badHeader := false,
             lines := t.lines.map (fun e => { e with seen := false, run := 0, w := if m = t.sampleM1 then e.w else 0 }) }
  else { t with on := false }

/-- GRM (R134). -/
def execGrm (c : CoreNo) (s : State) : Out1 :=
  .next (s.attemptNow c.val (fun q => cueClass q == clsGrm) (fun s q _ => s.modCore c.val (fun x =>
    let x := if namesA q then x.modTap .arrA (fun t => t.configure q) else x
    if namesB q then x.modTap .arrB (fun t => t.configure q) else x)))

/-! ## Issue (R90, R96, R100, R112, R119) -/

/-- An array as a cue issues to it: the job queued, kept accumulators taken, activity 16, steps counted. -/
def Arr.start (x : Arr) (j : ArrJob) (steps paced held : Nat) : Arr :=
  { x with
    jobs := x.jobs ++ [j], kept := none, level := 16, holdLeft := none,
    stationaryValid := x.stationaryValid || (x.jobs.isEmpty && j.needsStationary),
    productSteps := x.productSteps + BitVec.ofNat 48 steps, pacedSteps := satInc x.pacedSteps paced,
    tapHoldSteps := satInc x.tapHoldSteps held }

/-- The jobs of a cue queued at the arrays it names. -/
def startArrays (s : State) (c num : Nat) (q : W128) (pk : Peek) (x : Core) : Core :=
  let (steps, paced) := arrSteps q pk
  let held := s.tapHold c num q pk
  let x := if namesA q then { x with arrA := x.arrA.start (arrJob s c num q pk .arrA) steps paced (held .arrA) } else x
  if namesB q then { x with arrB := x.arrB.start (arrJob s c num q pk .arrB) steps paced (held .arrB) } else x

/-- What an ARR cue does as it issues. -/
def State.issueArr (s : State) (c : Nat) (q : W128) (pk : Peek) : State :=
  let num := s.freeCtr
  let np := arrNP q
  let t := ((s.tapCue c q pk .arrA).tapCue c q pk .arrB).fresh
  t.modCore c (fun x =>
    let x := if namesA q then x.holdCut .arrA num else x
    let x := if namesB q then x.holdCut .arrB num else x
    let x := startArrays s c num q pk x
    let x := if pRel q then x.setStates .free (pk.ops.take np) else x
    if qRel q then x.setStates .free (pk.ops.drop np) else x)

/-- ARR in OS mode (R117). -/
def execArrOs (c : CoreNo) (s : State) : Out1 := .next (s.attempt c.val (isArr 0) (fun s q pk => s.issueArr c.val q pk))
/-- ARR in OS_SQ mode (R117). -/
def execArrOsSq (c : CoreNo) (s : State) : Out1 := .next (s.attempt c.val (isArr 1) (fun s q pk => s.issueArr c.val q pk))
/-- ARR in OS_HELD mode (R117). -/
def execArrOsHeld (c : CoreNo) (s : State) : Out1 := .next (s.attempt c.val (isArr 2) (fun s q pk => s.issueArr c.val q pk))
/-- ARR in WS mode (R117). -/
def execArrWs (c : CoreNo) (s : State) : Out1 := .next (s.attempt c.val (isArr 3) (fun s q pk => s.issueArr c.val q pk))
/-- ARR in BWD_DUAL mode (R117). -/
def execArrBwdDual (c : CoreNo) (s : State) : Out1 := .next (s.attempt c.val (isArr 4) (fun s q pk => s.issueArr c.val q pk))

/-! ## The tile check (R73 to R76) -/

/-- The value of a cell. -/
def TileJob.cell (t : TileJob) (r c : Nat) : FVal :=
  let w := Tab.get 0 t.cells (66 * r + c)
  if t.integer then FVal.ofInt w.toInt else f32 w.toNat

/-- A sum of 64 cells, exact (R73; DESIGN CHOICE: log entry 13). -/
def sum64 (f : Nat → FVal) : FVal := (List.range 64).foldl (fun a i => a.add (f i)) FVal.zero

/-- A row (below 64) or column agrees with its checksum cells (R73). -/
def TileJob.agrees (t : TileJob) (k : Nat) : Bool :=
  let (sum, signed, mag) :=
    if k < 64 then (sum64 (fun n => t.cell k n), t.cell k 64, t.cell k 65)
    else (sum64 (fun m => t.cell m (k - 64)), t.cell 64 (k - 64), t.cell 65 (k - 64))
  let diff := (sum.sub signed).abs
  if t.integer then diff.isZero
  else
    let tol := (FVal.ofInt (t.products + 130)).mul ((mag.scale (-23)).add (.fin false 1 (-149)))
    !tol.lt diff

/-- A tile with some bits of an accumulator flipped. -/
def TileJob.upset (t : TileJob) (u : Upset) : TileJob :=
  let i := 66 * u.row.val + u.col.val
  let w := Tab.get 0 t.cells i ^^^ (if t.integer then u.bits else u.bits &&& 0xFFFFFFFF)
  let nan := !t.integer && (f32 w.toNat).isNan
  { t with cells := Tab.set t.cells i w, excluded := if nan then dedup (t.excluded ++ [u.row.val, 64 + u.col.val]) else t.excluded }

/-- The check passes: intact accumulators never fail it (R73). -/
def TileJob.passes (t : TileJob) : Option Upset → Bool
  | none => true
  | some u =>
    let y := t.upset u
    [u.row.val, 64 + u.col.val].all (fun k => y.excluded.contains k || y.agrees k)

/-- The tile a pass leaves in the array: an upset within the tolerance stays in it. -/
def TileJob.afterPass (t : TileJob) (u : Option Upset) : TileJob :=
  { (match u with
      | none => t
      | some u => t.upset u) with verdict := some true }

/-- The first tile of a list that has no verdict, replaced. -/
def onUnchecked (f : TileJob → TileJob) : List TileJob → List TileJob
  | [] => []
  | t :: r => if t.verdict = none then f t :: r else t :: onUnchecked f r

/-- A change of the head job's tiles. -/
def Arr.modHead (x : Arr) (f : List TileJob → List TileJob) : Arr :=
  match x.jobs with
  | [] => x
  | j :: r => { x with jobs := { j with tiles := f j.tiles } :: r }

/-- The tile an array's check unit has before it: the next of the cue in progress, unless its accumulators are kept, since a chain is
checked whole at its last cue (R68; DESIGN CHOICE: log entry 20). -/
def Arr.toCheck (x : Arr) : Option TileJob :=
  match x.jobs with
  | [] => none
  | j :: _ => if j.keep then none else j.tiles.find? (fun t => decide (t.verdict = none))

/-- A second failed check: the Core is SUSPECT, with its FAULT notice (R76). -/
def State.suspect (s : State) (c : Nat) (a : ArrayId) (t : TileJob) : State :=
  let s := s.modCore c (fun x => (x.setArr a { x.arr a with image := t.cells }).modP (fun p => { p with state := .suspect, hold := .none }))
  (s.modTroupe (troupeOfCore c) (fun y => { y with suspects := satInc y.suspects, lastSuspect := BitVec.ofNat 4 (c % 16) })).fault
    { event := 0x03, src := .core c, phys := (s.core c).phys.toNat, logical := c }

/-- An array of a Core that is in service works on. -/
def Core.works (x : Core) : Bool := !x.dark && !x.inReset && x.takeover.isNone && x.p.state != .suspect

/-! ## Drain and completion (R61, R85, R90, R120) -/

/-- One accumulator as an output element (R56, R61). -/
def TileJob.out (t : TileJob) (fmt : Fmt) (draw : Option Nat) (i j : Nat) : Conv :=
  convert fmt .toMax draw (t.cell i j)

/-- Elements drained row-major from element k on: the draws, the stores, what the tag will say. -/
def drainFrom (c : Nat) (d : Tile) (t : TileJob) (fmt : Fmt) (stoch : Bool) : Nat → Nat → State × Source × TagFlags → State × Source × TagFlags
  | _, 0, r => r
  | k, n + 1, (s, src, f) =>
    let i := k / t.cols
    let j := k % t.cols
    let (u, src') := if stoch then let (u, y) := src.draw; (some u, y) else (none, src)
    let v := t.out fmt u i j
    drainFrom c d t fmt stoch (k + 1) n (s.putElem c d fmt i j v.code, src',
      { f with sat := f.sat || v.sat, nonfinite := f.nonfinite || v.nonfinite })

/-- Stream of the generator an array rounds with (R55). -/
def arrStream : ArrayId → Nat
  | .arrA => 0
  | .arrB => 1

def arrProducer : ArrayId → Nat
  | .arrA => prodArrA
  | .arrB => prodArrB

/-- A tile's elements written into its frame, and the tag they make (R61 to R64). -/
def State.drainRows (s : State) (c : Nat) (a : ArrayId) (t : TileJob) : State × BitVec 32 :=
  let d := (s.core c).tile t.dest
  let fmt := fmtOf t.outFmt.toNat
  let ask := t.rnd == 1 && fmt.stochasticOk
  let fb := ask && s.fallsBack c
  let (s, src, f) := drainFrom c d t fmt (ask && !fb) 0 (t.rows * t.cols) (s, s.source c (arrStream a),
    { sat := t.sat, satIn := t.satIn, stochastic := ask && !fb, fallback := fb, recomputed := t.retried,
      checkPartial := !t.excluded.isEmpty, slice := t.slice && fmt == .fp64 })
  (s.setSource c (arrStream a) src, mkTag t.outFmt.toNat 0 (arrProducer a) f)

/-- A destination tile RESIDENT, with its tag and VERSION (R63, R86, R94). -/
def State.settleTile (s : State) (c : Nat) (t : TileJob) (tag : BitVec 32) : State :=
  s.modCore c (fun x =>
    (x.modTile t.dest (fun d => { d with state := .resident, version := t.version, tag := tag })).modP (fun p => p.noteTag (.of tag)))

/-- A destination tile drained and RESIDENT; the rows of a WS or BWD_DUAL tile are there already (R61, R121). -/
def State.drain (s : State) (c : Nat) (a : ArrayId) (t : TileJob) : State :=
  match t.drained with
  | some tag => s.settleTile c t tag
  | none =>
    let (s, tag) := s.drainRows c a t
    s.settleTile c t tag

/-- The rows of an attempt at a WS or BWD_DUAL tile, written while it is FILLING (R121); nothing in the other modes. -/
def State.attemptRows (s : State) (c : Nat) (a : ArrayId) (t : TileJob) : State × Option (BitVec 32) :=
  if 3 ≤ (((s.core c).arr a).jobs.head?.map (·.mode.toNat)).getD 0 then
    let (s, tag) := s.drainRows c a t
    (s, some tag)
  else (s, none)

/-- A tile that passed only on recomputation is counted (R75, R78). -/
def State.countRetry (s : State) (c : Nat) (t : TileJob) : State :=
  if t.retried then s.modTroupe (troupeOfCore c) (fun y => { y with checkRetries := satInc y.checkRetries }) else s

/-- TILE_CHECK_VERDICT: passed, recomputed from the same operands at the steps of one tile, or suspect (R73 to R77, R121). -/
def execTileCheckVerdict (c : CoreNo) (a : ArrayId) (u : Option Upset) (s : State) : Out1 :=
  let x := s.core c.val
  match (x.arr a).toCheck with
  | none => .next s
  | some t =>
    if !x.works then .next s
    else
      let w := (u.map t.upset).getD t
      let (s, tag) := s.attemptRows c.val a w
      if t.passes u then
        .next ((s.modCore c.val (fun x => x.setArr a { (x.arr a).modHead (onUnchecked (fun t => { t.afterPass u with drained := tag })) with
          bank := !(x.arr a).bank })).countRetry c.val t)
      else if t.retried then .next (s.suspect c.val a w)
      else .next (s.modCore c.val (fun x => x.setArr a { (x.arr a).modHead (onUnchecked (fun t => { t with retried := true })) with
        productSteps := (x.arr a).productSteps + BitVec.ofNat 48 t.steps }))

/-- The other array. -/
def other : ArrayId → ArrayId
  | .arrA => .arrB
  | .arrB => .arrA

/-- Jobs of cues that name both arrays. -/
def Arr.sharedJobs (x : Arr) : Nat := (x.jobs.filter (·.shared)).length

/-- The array's cue in progress ends: the next starts, its shadow tile becoming the stationary one (R112, R120). -/
def Arr.popJob (x : Arr) : Arr :=
  match x.jobs with
  | [] => x
  | [_] => { x with jobs := [] }
  | _ :: k :: r => { x with
      jobs := k :: r
      stationaryValid := x.stationaryValid || k.needsStationary
      shadowValid := x.shadowValid && !k.preloaded }

/-- The cue in progress at an array is done there; it completes when no array works on it (R90). -/
def State.endArrJob (s : State) (c : Nat) (a : ArrayId) : State :=
  match ((s.core c).arr a).jobs with
  | [] => s
  | j :: _ =>
    let x := s.core c
    let y := (x.arr a).popJob
    let x := (x.setArr a y).workEnds a
    let s := s.setCore c x
    if !j.shared || (x.arr (other a)).sharedJobs ≤ y.sharedJobs then s.signal c j.cue.signal else s

/-- ARR_DESTINATION_RESIDENT: a tile whose check passed has drained (R120). -/
def execArrDestinationResident (c : CoreNo) (a : ArrayId) (s : State) : Out1 :=
  let x := s.core c.val
  match (x.arr a).jobs with
  | [] => .next s
  | j :: _ => match j.tiles with
    | [] => .next s
    | t :: r =>
      if !x.works ∨ j.keep ∨ t.verdict ≠ some true then .next s
      else
        let s := (s.drain c.val a t).modCore c.val (fun x => x.setArr a { (x.arr a).modHead List.tail with image := t.cells })
        .next (if r.isEmpty then s.endArrJob c.val a else s)

/-- ACCUMULATORS_KEPT: the cue's last product is accumulated and its accumulators stay (R90). -/
def execAccumulatorsKept (c : CoreNo) (s : State) : Out1 :=
  let keep := fun (s : State) (a : ArrayId) =>
    let x := s.core c.val
    match (x.arr a).jobs with
    | [] => s
    | j :: r =>
      if !x.works || !j.keep then s
      else
        let t := j.tiles.head?
        (s.modCore c.val (fun x => x.setArr a { x.arr a with
          kept := if (r.head?.map (·.cont)).getD false then none else t
          image := (t.map (·.cells)).getD (x.arr a).image })).endArrJob c.val a
  .next (keep (keep s .arrA) .arrB)

/-- STATIONARY_PRELOAD_DONE: the stationary tile of the cue queued behind a WS or BWD_DUAL cue is in the shadow register (R112, R120). -/
def execStationaryPreloadDone (c : CoreNo) (a : ArrayId) (s : State) : Out1 :=
  let x := s.core c.val
  let y := x.arr a
  match y.jobs with
  | [] => .next s
  | [_] => .next s
  | j :: k :: r =>
    if x.works && decide (3 ≤ j.mode.toNat) && k.needsStationary && !k.preloaded then
      .next (s.setCore c.val (x.setArr a { y with jobs := j :: { k with preloaded := true } :: r, shadowValid := true }))
    else .next s

/-! ## Registers (unit code 0x400 + c, R139) -/

/-- Tiles in the operand store (R112). -/
def Arr.storeTiles (x : Arr) : Nat :=
  match x.jobs with
  | [] => 0
  | j :: _ => if j.mode = 2 then j.qTiles.length else 0

/-- The status word of an array. -/
def Arr.word0 (x : Arr) : Nat :=
  pack [(0, 4, ((x.jobs.head?.map (·.mode.toNat)).getD 0)), (4, 1, bit (!x.jobs.isEmpty)), (5, 1, bit x.bank),
    (6, 1, bit x.stationaryValid), (8, 5, x.storeTiles)]

/-- The two tap words. -/
def Tap.word0 (t : Tap) : Nat :=
  pack [(0, 1, bit t.on), (1, 6, t.sampleM1.toNat), (8, 7, t.lines.length), (16, 16, t.runs.toNat), (32, 32, t.adds.toNat)]
def Tap.word1 (t : Tap) : Nat := pack [(0, 27, t.xxLine.toNat), (32, 27, t.yyLine.toNat)]

end Sys2Proof.Machine
end

