-- ==== Sys2Proof/Machine/CueCheck.lean ====
section
/-! DEFINITION. What a cue must be to enter a cue store (R13, R43, R52, R57, R61, R91, R114, R115, R130, R145, R147, R149).
Log entry with the readings and choices that are the model's: 55. -/

namespace Sys2Proof.Machine

/-- Every bit outside the cue header and the ranges is zero (R91). -/
def onlyBits (q : W128) (l : List (Nat × Nat)) : Bool :=
  q.toNat &&& (2 ^ 128 - 1 - ((23, 0) :: l).foldl (fun m (r : Nat × Nat) => m ||| (2 ^ (r.1 + 1) - 2 ^ r.2)) 0) == 0

/-- A length field of VL: 0 to 64. -/
def vlFieldOk (v : Nat) : Bool := decide (v ≤ 64)

/-- A CTL cue. -/
def ctlOk (q : W128) : Bool :=
  let op := cueOp q
  if op = 0 then onlyBits q [(27, 24)]
  else if op = 1 then onlyBits q [(27, 24), (45, 32)]
  else if op = 2 then onlyBits q [(27, 24), (36, 32), (95, 64)]
  else if op = 3 then onlyBits q [(27, 24), (36, 32), (61, 48)]
  else if op = 4 then onlyBits q [(27, 24), (47, 32)]
  else if op = 5 then onlyBits q [(27, 24), (47, 32)]
  else if op = 6 then onlyBits q [(27, 24), (35, 32), (36, 36), (95, 64)]
  else if op = 7 then onlyBits q [(27, 24), (35, 32), (37, 36), (63, 48), (95, 64)]
  else if op = 8 then onlyBits q [(27, 24), (87, 32)] && (Fmt.ofCode (fld q 86 83)).isSome
  else if op = 9 then
    onlyBits q [(27, 24), (39, 32), (70, 64), (78, 72)] && fld q 39 32 == 0 && vlFieldOk (fld q 70 64) && vlFieldOk (fld q 78 72)
  else false

/-- A SYN cue. -/
def synOk (q : W128) : Bool :=
  let op := cueOp q
  if op ≤ 1 then onlyBits q [(27, 24), (41, 32)] && fld q 41 38 != 0
  else if op = 2 then onlyBits q [(27, 24), (55, 48)]
  else if op ≤ 4 then onlyBits q [(27, 24), (42, 32)] && decide (1 ≤ fld q 42 36 ∧ fld q 42 36 ≤ 64)
  else if op = 5 then onlyBits q [(27, 24), (63, 48), (79, 74)]
  else false

/-- FP8, MXFP8 or MXFP6, MX (R57). -/
def Fmt.isFp8 (f : Fmt) : Bool := f == .e4m3 || f == .e5m2

/-- An operand pair of the arrays (R57). -/
def pairOk (p q : Fmt) : Bool :=
  (p.isFp8 && q.isFp8) || (p.isMx && q.isMx) || (p == q && [Fmt.int8, .bf16, .fp16, .fp32, .slice8].contains p)

/-- An output of the arrays for an operand pair (R61). -/
def arrOutOk (p out : Fmt) : Bool :=
  if p = .int8 then out == .int32 || out == .fp32
  else if p = .slice8 then out == .fp64
  else [Fmt.fp32, .bf16, .fp16, .e4m3, .e5m2].contains out

/-- A target of stochastic rounding (R52). -/
def stochOk (f : Fmt) : Bool := f == .bf16 || f.isFp8 || f.isMx

/-- RND: nearest even, or stochastic toward an allowed target. -/
def rndOk (rnd : Nat) (f : Fmt) : Bool := rnd == 0 || (rnd == 1 && stochOk f)

/-- The counts of an ARR cue (R114), its modes and arrays (R113, R115). -/
def arrCountsOk (q : W128) (pf qf : Fmt) : Bool :=
  let arrays := fld q 25 24
  let both := arrays == 3
  let np := fld q 61 56 + 1
  let nq := fld q 67 62 + 1
  let nd := fld q 74 68
  let keep := fld q 80 80 == 1
  let carry := keep || fld q 79 79 == 1
  let mode := fld q 29 26
  let k := if both then 2 else 1
  if mode = 0 then nq == k * np && nd == (if keep then 0 else k)
  else if mode = 1 then both && np == 2 * nq && nd == (if keep then 0 else 2)
  else if carry then false
  else if mode = 2 then
    nq % k == 0 && decide (nq / k * qf.wide ≤ 16) && np % (nq / k) == 0 && nd == k * (np / (nq / k))
  else if mode = 3 then
    let d := if pf = .mxE2m1 ∧ qf = .mxE2m1 then 2 else 1
    np % d == 0 && nq == d * k && nd == k * (np / d)
  else if mode = 4 then
    both && nq == np + 1 && nd == np + 1 && !(pf.isMx || qf.isMx || pf == .slice8 || qf == .slice8)
  else false

/-- An ARR cue. -/
def arrOk (q : W128) : Bool :=
  match Fmt.ofCode (fld q 33 30), Fmt.ofCode (fld q 37 34), Fmt.ofCode (fld q 41 38) with
  | some p, some f, some o =>
    onlyBits q [(81, 24)] && fld q 25 24 != 0 && pairOk p f && arrOutOk p o && rndOk (fld q 43 42) o && arrCountsOk q p f
  | _, _, _ => false

/-- Operations of the vector engine (R148). -/
def vecOps : List Nat :=
  List.range 0x0E ++ (List.range 7).map (0x10 + ·) ++ [0x20, 0x21] ++ (List.range 8).map (0x30 + ·) ++ (List.range 8).map (0x40 + ·) ++
    [0x50, 0x51, 0x60, 0x70, 0x71]

/-- Operations that take no integer format (R149). -/
def noIntOps : List Nat := [0x0A, 0x0B, 0x0C, 0x0D, 0x12, 0x13, 0x14, 0x15, 0x16, 0x20, 0x21, 0x46, 0x47, 0x51]

/-- IMM of a VEC cue (R130, R147, R149, R153, R161). -/
def immOk (op imm : Nat) (a : Fmt) : Bool :=
  if op = 0x04 ∨ op = 0x05 ∨ op = 0x06 then a.isMx || decide (32 ≤ 8 * a.wide) || decide (imm < 2 ^ (8 * a.wide))
  else if op = 0x46 ∨ op = 0x47 then true
  else if op = 0x15 ∨ op = 0x51 then decide (imm < 2)
  else if op = 0x20 then decide (imm < 16)
  else if op = 0x21 then
    decide (imm < 32) && !(16 ≤ imm && (decide (24 ≤ imm) || imm == 22)) && imm != 4
  else if op = 0x31 then
    let pat := imm % 4
    let r := bitsOf imm 13 8
    imm == pat + 256 * r && (pat == 0 || (pat == 1 && r == 0) || (pat == 2 && decide (r ≤ 5)))
  else if op = 0x50 then decide (imm < 2 ^ 25)
  else if op = 0x60 then decide (imm < 2 ^ 9) && decide (1 ≤ imm % 128 ∧ imm % 128 ≤ 64)
  else imm == 0

/-- A VEC cue. -/
def vecOk (q : W128) : Bool :=
  match Fmt.ofCode (fld q 35 32), Fmt.ofCode (fld q 39 36), Fmt.ofCode (fld q 43 40) with
  | some a, some b, some d =>
    let op := fld q 31 24
    let sh := vecShape op
    let fs := a :: ((if sh.b = 0 then [] else [b]) ++ (if sh.d = 0 then [] else [d]))
    onlyBits q [(67, 24), (127, 96)] && vecOps.contains op && rndOk (fld q 45 44) d && immOk op (fld q 127 96) a &&
      (op == 0x70 || op == 0x71 || !fs.contains .slice8) && (!noIntOps.contains op || !fs.any (fun f => f == .int8 || f == .int32)) &&
      (op != 0x36 || (fld q 63 58 == 0 && a == .int8)) && (op != 0x37 || (fld q 63 58 == 0 && a == .fp32))
  | _, _, _ => false

/-- A STR cue: REARM uses DESC and T_GEN, RELEASE and TAKE their endpoint (R176, R182). -/
def strOk (q : W128) : Bool :=
  let op := cueOp q
  if op = 0 then onlyBits q [(27, 24), (50, 28), (95, 64)] && decide (fld q 47 41 ≤ 64)
  else if op = 1 then onlyBits q [(27, 24), (32, 28), (40, 37)]
  else if op ≤ 3 then onlyBits q [(27, 24), (36, 33)]
  else false

/-- A MSG cue: RECV uses CHANNEL and D_GEN, COMPL D_GEN. -/
def msgOk (q : W128) : Bool :=
  let op := cueOp q
  if op = 0 then onlyBits q [(27, 24), (51, 28), (127, 64)] && (fld q 50 50 == 1 || fld q 127 112 == 0)
  else if op = 1 then onlyBits q [(27, 24), (35, 32), (42, 41)]
  else if op = 2 then onlyBits q [(27, 24), (35, 32)]
  else false

/-- A cue that may enter a cue store (R91). -/
def cueOk (q : W128) : Bool :=
  let c := cueClass q
  if c = clsCtl then ctlOk q
  else if c = clsSyn then synOk q
  else if c = clsArr then arrOk q
  else if c = clsVec then vecOk q
  else if c = clsStr then strOk q
  else if c = clsMsg then msgOk q
  else if c = clsRoot then onlyBits q [(73, 24)]
  else if c = clsGrm then onlyBits q [(86, 24)] && fld q 25 24 != 0
  else false

end Sys2Proof.Machine
end

