-- ==== Sys2Proof/Machine/LinAlg.lean ====
section
/-! DEFINITION. Dense linear algebra of the Root engines in one compute format, each operation rounded once, each sum in an
order the spec does not give (R267, R275 to R278, R290). Matrices are lists of rows.
Log entry with the readings and choices that are the model's: 42. -/

namespace Sys2Proof.Machine

abbrev Mat := List (List FVal)

/-- The compute format of a job, and what sets the order of its sums (R267): operation, order, engines. -/
structure Prec where
  p32   : Bool
  op    : Nat := 0
  order : Nat := 0
  gang  : Nat := 1
deriving DecidableEq, Repr

def Prec.tag (P : Prec) : List Nat := [P.p32.toNat, P.op, P.order, P.gang]

/-- One operation, rounded to the compute format (R267). An overflow, which saturates and ends the job with NUMERIC (R65, R289), is
carried to the end of the job as NaN. -/
def rp (P : Prec) (v : FVal) : FVal :=
  let r := if P.p32 then rnd32 v else rnd64 v
  if r.isFin then r else .nan
/-- The code of a value of the compute format. -/
def codeP (P : Prec) (v : FVal) : Nat := if P.p32 then r32 v else r64 v
/-- The value of a code of the compute format. -/
def valP (P : Prec) (c : Nat) : FVal := if P.p32 then f32 c else f64 c

/-- A place of a matrix; past its end, zero. -/
def Mat.at (m : Mat) (i j : Nat) : FVal := nth FVal.zero (nth [] m i) j
/-- A matrix from its elements. -/
def matOf (r c : Nat) (f : Nat → Nat → FVal) : Mat := (List.range r).map (fun i => (List.range c).map (f i))
def Mat.trans (m : Mat) (cols : Nat) : Mat := matOf cols m.length (fun i j => m.at j i)
def Mat.flat (m : Mat) : List FVal := m.flatten
/-- Rows of `c` elements of a list. -/
def rowsOf : Nat → Nat → List FVal → Mat
  | 0, _, _ => []
  | n + 1, c, l => l.take c :: rowsOf n c (l.drop c)
def identity (n : Nat) : Mat := matOf n n (fun i j => if i = j then FVal.ofInt 1 else FVal.zero)

/-- A sum of terms in an order the spec does not give: two of them are added until one is left. -/
def pickSum {α : Type} (add : α → α → α) (z : α) (seed : Nat) : Nat → List α → α
  | 0, l => l.headD z
  | n + 1, l => match l with
    | [] => z
    | [a] => a
    | l =>
      let i := Config.pickTerm seed (2 * n) % l.length
      let r := l.eraseIdx i
      let j := Config.pickTerm seed (2 * n + 1) % r.length
      pickSum add z seed n (add (nth z l i) (nth z r j) :: r.eraseIdx j)

/-- Two terms of a sum added (R267): a product, marked `true`, joins a sum by a fused multiply-add, which rounds once; of two products
one is rounded first. -/
def addParts (P : Prec) (a b : Bool × FVal) : Bool × FVal :=
  (false, rp P (a.2.add (if a.1 && b.1 then rp P b.2 else b.2)))

/-- A start plus a sum of products: one product is one fused multiply-add; more are added in an order that the operation, the order, the
gang size and the terms may set. -/
def dotP (P : Prec) (start : FVal) (ps : List (FVal × FVal)) : FVal :=
  match ps with
  | [] => start
  | [(a, b)] => rp P (start.add (a.mul b))
  | _ =>
    let seed := Config.sumOrder P.tag (codeP P start) (ps.map (fun (a, b) => (codeP P a, codeP P b)))
    (pickSum (addParts P) (false, start) seed (ps.length + 1) ((false, start) :: ps.map (fun (a, b) => (true, a.mul b)))).2

/-- Product of a matrix with one of `cols` columns. -/
def Mat.mul (P : Prec) (a b : Mat) (cols : Nat) : Mat :=
  let bt := b.trans cols
  a.map (fun r => bt.map (fun c => dotP P FVal.zero (r.zip c)))

def norm2 (P : Prec) (l : List FVal) : FVal := rp P (dotP P FVal.zero (l.zip l)).sqrt
/-- The largest magnitude; NaN where one is NaN. -/
def maxAbs (l : List FVal) : FVal := l.foldl (fun a b => if a.isNan || b.isNan then .nan else maxMag a b) FVal.zero
def allFinite (l : List FVal) : Bool := l.all FVal.isFin

/-! ## Factorisation with the pivot rule of R290 -/

/-- Pivots replaced so far, the first, and whether STRICT ended the job. -/
structure Pivots where
  repl  : Nat := 0
  first : BitVec 32 := 0xFFFFFFFF
  singular : Bool := false
deriving DecidableEq, Repr

/-- A pivot at index i that is at or below the threshold. -/
def Pivots.hit (p : Pivots) (strict : Bool) (i : Nat) : Pivots :=
  if strict then { p with singular := true, first := BitVec.ofNat 32 i }
  else { p with repl := p.repl + 1, first := if p.repl = 0 then BitVec.ofNat 32 i else p.first }

/-- A factor in the making: the rows below the diagonal, the diagonal (L's for CHOL, D for LDLT), the pivots. -/
structure Factor where
  rows : Mat := []
  diag : List FVal := []
  piv  : Pivots := {}
deriving DecidableEq, Repr

/-- x with a sign. -/
def withSign (neg : Bool) (x : FVal) : FVal := if neg then x.abs.neg else x.abs

/-- The entries of a row left of its diagonal: CHOL, or LDLT where `ldl`. -/
def lowRow (P : Prec) (ldl : Bool) (arow : List FVal) : Mat → List FVal → Nat → List FVal → List FVal → List FVal
  | [], _, _, acc, _ => acc
  | lj :: rest, ds, j, acc, scaled =>
    let d := ds.headD FVal.zero
    let v := rp P ((dotP P (nth FVal.zero arow j) (scaled.zip (lj.map FVal.neg))).div d)
    let w := if ldl then rp P (v.mul d) else v
    lowRow P ldl arow rest ds.tail (j + 1) (acc ++ [v]) (scaled ++ [w])

/-- One row of a factorisation (R290). -/
def Factor.step (P : Prec) (ldl strict : Bool) (θ : FVal) (f : Factor) (arow : List FVal) : Factor :=
  if f.piv.singular then f
  else
    let i := f.rows.length
    let l := lowRow P ldl arow f.rows f.diag 0 [] []
    let w := if ldl then (l.zip f.diag).map (fun (a, d) => rp P (a.mul d)) else l
    let d := dotP P (nth FVal.zero arow i) (w.zip (l.map FVal.neg))
    let low := d.isFin && !θ.lt (if ldl then d.abs else d)
    let piv := if low then f.piv.hit strict i else f.piv
    let d := if low then (if ldl then withSign (d.sign && !d.isZero) θ else θ) else d
    { rows := f.rows ++ [l], diag := f.diag ++ [if ldl then d else rp P d.sqrt], piv := piv }

def factor (P : Prec) (ldl strict : Bool) (θ : FVal) (a : Mat) : Factor := a.foldl (Factor.step P ldl strict θ) {}

def Factor.finite (f : Factor) : Bool := allFinite f.rows.flat && allFinite f.diag

/-- The threshold θ = τ × D. -/
def pivotTheta (P : Prec) (τ D : FVal) : FVal := rp P (τ.mul D)
/-- Largest diagonal magnitude. -/
def diagMax (a : Mat) : FVal := maxAbs ((List.range a.length).map (fun i => a.at i i))

/-- L y = b. -/
def forward (P : Prec) (ldl : Bool) : Mat → List FVal → List FVal → List FVal → List FVal
  | [], _, _, acc => acc
  | l :: rest, ds, bs, acc =>
    let r := dotP P (bs.headD FVal.zero) (acc.zip (l.map FVal.neg))
    forward P ldl rest ds.tail bs.tail (acc ++ [if ldl then r else rp P (r.div (ds.headD FVal.zero))])

/-- Lᵀ x = y, from unknown k − 1 down. -/
def backward (P : Prec) (ldl : Bool) (f : Factor) (y : List FVal) : Nat → List FVal → List FVal
  | 0, acc => acc
  | k + 1, acc =>
    let col := (List.range acc.length).map (fun t => (f.rows.at (k + 1 + t) k).neg)
    let r := dotP P (nth FVal.zero y k) (acc.zip col)
    backward P ldl f y k ((if ldl then r else rp P (r.div (nth FVal.zero f.diag k))) :: acc)

/-- One right-hand side solved by a factor. -/
def Factor.solve (P : Prec) (ldl : Bool) (f : Factor) (b : List FVal) : List FVal :=
  let y := forward P ldl f.rows f.diag b []
  let y := if ldl then (y.zip f.diag).map (fun (a, d) => rp P (a.div d)) else y
  backward P ldl f y f.rows.length []

/-- Columns of right-hand sides solved: n rows of k columns. -/
def Factor.solveAll (P : Prec) (ldl : Bool) (f : Factor) (b : Mat) (k : Nat) : Mat :=
  Mat.trans ((b.trans k).map (f.solve P ldl)) f.rows.length

/-- The factor as it is written: L with D or its own diagonal, zero above. -/
def Factor.out (f : Factor) : Mat :=
  let n := f.rows.length
  matOf n n (fun i j => if j < i then f.rows.at i j else if j = i then nth FVal.zero f.diag i else FVal.zero)

/-! ## INVROOT and NS_ORTHO (R252, R275, R276) -/

/-- T := ((p + 1) I − M) / p. -/
def invT (P : Prec) (p n : Nat) (m : Mat) : Mat :=
  let pv := FVal.ofInt p
  matOf n n (fun i j => rp P ((if i = j then rp P ((FVal.ofInt (p + 1)).sub (m.at i j)) else (m.at i j).neg).div pv))

/-- T raised to 2^k by squarings. -/
def powers (P : Prec) (n : Nat) : Nat → Mat → Mat
  | 0, t => t
  | k + 1, t => powers P n k (t.mul P t n)

/-- So many square roots, each rounded once. -/
def roots (P : Prec) : Nat → FVal → FVal
  | 0, c => c
  | k + 1, c => roots P k (rp P c.sqrt)

/-- c^(−1/p), p = 2^k, by the engine's divide, square root and reciprocal square root (R266, R275); which of them in which order is
open. -/
def invRootOf (P : Prec) (k : Nat) (c : FVal) : FVal :=
  let one := FVal.ofInt 1
  match k with
  | 0 => rp P (one.div c)
  | n + 1 =>
    if Config.rootForm % 3 = 0 then rp P (one.div (roots P k c))
    else if Config.rootForm % 3 = 1 then roots P k (rp P (one.div c))
    else match roots P n c with
      | .fin false m e => rp P (rsqrtFin m e)
      | v => rp P (one.div v.sqrt)

/-- maxabs(M − I). -/
def deviation (P : Prec) (n : Nat) (m : Mat) : FVal :=
  maxAbs (matOf n n (fun i j => if i = j then rp P ((m.at i j).sub (FVal.ofInt 1)) else m.at i j)).flat

/-- One iteration of R252 on an r × c matrix: X := aX + (bG + cG²)X or aX + X(bG + cG²). -/
def orthoStep (P : Prec) (r c : Nat) (ca cb cc : FVal) (x : Mat) : Mat :=
  let xt := x.trans c
  let wide := decide (r ≤ c)
  let k := min r c
  let g := if wide then x.mul P xt r else xt.mul P x c
  let g2 := g.mul P g k
  let p := matOf k k (fun i j => rp P ((rp P (cb.mul (g.at i j))).add (rp P (cc.mul (g2.at i j)))))
  let y := if wide then p.mul P x c else x.mul P p c
  matOf r c (fun i j => rp P ((rp P (ca.mul (x.at i j))).add (y.at i j)))

/-! ## EIG (R284) -/

/-- Insertion of an eigenvalue and its column by ascending value. -/
def insertEig (e : FVal × List FVal) : List (FVal × List FVal) → List (FVal × List FVal)
  | [] => [e]
  | h :: t => if e.1.lt h.1 then e :: h :: t else h :: insertEig e t

/-- Eigenvalues ascending with their vectors, as a row of values and a matrix of columns. -/
def eigen (P : Prec) (n : Nat) (a : Mat) : List FVal × Mat :=
  let cs := a.flat.map (codeP P)
  let vals := (Config.eigValues P.tag n cs).map (valP P)
  let vecs := (rowsOf n n ((Config.eigVectors P.tag n cs).map (valP P))).trans n
  let ps := ((List.range n).map (fun k => (nth FVal.zero vals k, nth [] vecs k))).foldl (fun l e => insertEig e l) []
  (ps.map (·.1), Mat.trans (ps.map (·.2)) n)

/-- Q₀ᵀ A Q₀. -/
def rotated (P : Prec) (n : Nat) (q a : Mat) : Mat := ((q.trans n).mul P a n).mul P q n

/-- The off-diagonal of B is negligible against its diagonal (R284). -/
def nearDiagonal (P : Prec) (n : Nat) (tol : FVal) (b : Mat) : Bool :=
  let off := norm2 P (matOf n n (fun i j => if i = j then FVal.zero else b.at i j)).flat
  let dia := norm2 P ((List.range n).map (fun i => b.at i i))
  !(rp P (tol.mul dia)).lt off

/-- That test's operations stay finite (R289). -/
def nearFinite (P : Prec) (n : Nat) (tol : FVal) (b : Mat) : Bool :=
  let off := norm2 P (matOf n n (fun i j => if i = j then FVal.zero else b.at i j)).flat
  off.isFin && (rp P (tol.mul (norm2 P ((List.range n).map (fun i => b.at i i))))).isFin

/-! ## Steps of GN and LM (R278, R279, R281) -/

/-- H + λ diag(H) + δI. -/
def damped (P : Prec) (n : Nat) (lam δ : FVal) (h : Mat) : Mat :=
  matOf n n (fun i j => if i = j then rp P ((rp P ((h.at i j).add (lam.mul (h.at i j)))).add δ) else h.at i j)

/-- The inverse of a point block by CHOL under its own pivot rule (R279, R281). -/
def invPoint (P : Prec) (strict : Bool) (τ : FVal) (v : Mat) : Mat × Pivots :=
  let f := factor P false strict (pivotTheta P τ (diagMax v)) v
  (f.solveAll P false (identity v.length) v.length, f.piv)

/-- Pivots of one factorisation after another's. -/
def Pivots.join (a b : Pivots) : Pivots :=
  { repl := a.repl + b.repl, first := if a.first = 0xFFFFFFFF then b.first else a.first, singular := a.singular || b.singular }

/-- Pivots of a block that begins at an unknown. -/
def Pivots.shift (p : Pivots) (u : Nat) : Pivots := if p.first = 0xFFFFFFFF then p else { p with first := p.first + BitVec.ofNat 32 u }

/-- The preconditioner of block Jacobi (R277, R290): the inverse of each diagonal block by CHOL, and its pivots. -/
def blockJacobi (P : Prec) (strict : Bool) (θ : FVal) (a : Mat) : List (Nat × Nat) → List Mat × Pivots
  | [] => ([], {})
  | (u, w) :: t =>
    let f := factor P false strict θ (matOf w w (fun i j => a.at (u + i) (u + j)))
    if f.piv.singular then ([], f.piv.shift u)
    else
      let (l, p) := blockJacobi P strict θ a t
      (f.solveAll P false (identity w) w :: l, (f.piv.shift u).join p)

/-- A step on the reduced camera system: camera unknowns, point unknowns in threes, the damped matrix, −g. -/
def schurStep (P : Prec) (strict : Bool) (τ : FVal) (cams : List Nat) (pts : List (List Nat)) (a : Mat) (rhs : List FVal) :
    List (Nat × FVal) × Pivots :=
  let blocks := pts.map (fun p => (p, invPoint P strict τ (p.map (fun i => p.map (fun j => a.at i j)))))
  let along := fun (p : List Nat) (w : Mat) (v : List FVal) =>
    (List.range p.length).map (fun i => dotP P FVal.zero ((nth [] w i).zip v))
  let s := cams.map (fun c => cams.map (fun d => dotP P (a.at c d)
    (blocks.map (fun (p, w, _) => (p.map (fun i => a.at c i)).zip ((along p w (p.map (fun i => a.at d i))).map FVal.neg))).flatten))
  let g := cams.map (fun c => dotP P (nth FVal.zero rhs c)
    (blocks.map (fun (p, w, _) => (p.map (fun i => a.at c i)).zip ((along p w (p.map (fun i => nth FVal.zero rhs i))).map FVal.neg))).flatten)
  let f := factor P false strict (pivotTheta P τ (diagMax s)) s
  let d := f.solve P false g
  let back := blocks.map (fun (p, w, _) =>
    p.zip (along p w (p.map (fun i => dotP P (nth FVal.zero rhs i)
      (d.zip (cams.map (fun c => (a.at c i).neg)))))))
  (cams.zip d ++ back.flatten, (blocks.map (·.2.2)).foldl Pivots.join f.piv)

/-- max(1/3, 1 − (2ρ − 1)³). -/
def lamFactor (P : Prec) (ρ : FVal) : FVal :=
  let u := rp P ((rp P ((FVal.ofInt 2).mul ρ)).sub (FVal.ofInt 1))
  let c := rp P ((rp P (u.mul u)).mul u)
  let v := rp P ((FVal.ofInt 1).sub c)
  let third := rp P ((FVal.ofInt 1).div (FVal.ofInt 3))
  if v.isNan then v else if third.lt v then v else third

end Sys2Proof.Machine
end

