-- ==== Sys2Proof/Machine/Shards.lean ====
section
/-! DEFINITION. Shard records and their fields, SWEEP notices, and the end of a refresh's root jobs (R230, R254, R255, R262).
Log entry with the readings and choices that are the model's: 39. -/

namespace Sys2Proof.Machine

/-- An entry of a Conservator's shard table (R263). -/
def Cons.entry (x : Cons) (i : Nat) : ShardEntry := Tab.get {} x.entries i
def Cons.setEntry (x : Cons) (i : Nat) (e : ShardEntry) : Cons := { x with entries := Tab.set x.entries i e }
def State.shard (s : State) (n i : Nat) : ShardEntry := (s.con n).entry i
def State.modShard (s : State) (n i : Nat) (f : ShardEntry → ShardEntry) : State := s.modCon n (fun x => x.setEntry i (f (x.entry i)))
/-- The record's address. -/
def State.recAt (s : State) (n i : Nat) : Nat := (s.shard n i).record.toNat

/-- Bits [hi:lo] of the record at an address (R230). -/
def State.recGet (s : State) (a hi lo : Nat) : Nat := bitsOf (s.num a 256) hi lo
/-- Bits [hi:lo] of a record, inside one 64-bit word, written. -/
def State.recSet (s : State) (a hi lo v : Nat) : State :=
  let w := lo / 64
  s.store (a + 8 * w) (leBytes 8 (setBits (s.num (a + 8 * w) 8) (hi - 64 * w) (lo - 64 * w) v))

def State.rVersion (s : State) (a : Nat) : Nat := s.recGet a 31 0
def State.rSlot (s : State) (a : Nat) : Nat := s.recGet a 32 32
def State.rRows (s : State) (a : Nat) : Nat := 64 * (s.recGet a 135 128 + 1)
def State.rCols (s : State) (a : Nat) : Nat := 64 * (s.recGet a 143 136 + 1)
def State.rComp (s : State) (a : Nat) : Bool := s.recGet a 144 144 == 1
def State.rDelayed (s : State) (a : Nat) : Bool := s.recGet a 145 145 == 1
/-- Staleness d (R240). -/
def State.rStale (s : State) (a : Nat) : Nat := s.recGet a 148 146 + 1
def State.rWorkFmt (s : State) (a : Nat) : Nat := s.recGet a 152 149
def State.rSource (s : State) (a : Nat) : Nat := s.recGet a 156 155
/-- Block size b (R229). -/
def State.rBlock (s : State) (a : Nat) : Nat := 64 * 2 ^ s.recGet a 159 157
def State.rFab (s : State) (a i : Nat) : Bool := bitOf (s.recGet a 163 160) i
def State.rCloses (s : State) (a : Nat) : Nat := s.recGet a 1055 1024
def State.rCloseState (s : State) (a : Nat) : Nat := s.recGet a 1057 1056
def State.rExpect (s : State) (a : Nat) : Nat := s.recGet a 1119 1088
def State.rVersion0 (s : State) (a : Nat) : Nat := s.recGet a 1151 1120
/-- Gradients committed: VERSION − VERSION0 (R245). -/
def State.rDone (s : State) (a : Nat) : Nat := (BitVec.ofNat 32 (s.rVersion a) - BitVec.ofNat 32 (s.rVersion0 a)).toNat
/-- Held gradient buffers h (R233). -/
def State.rHeld (s : State) (a : Nat) : Nat := if s.rDelayed a then s.rStale a + 1 else 1
/-- Address of the hold word of buffer x (R242). -/
def holdAddr (a x : Nat) : Nat := a + (if x = 0 then 104 else 112)

/-! ## SWEEP notices (R262) -/

def evClosed : Nat := 0x01
def evCommitted : Nat := 0x02
def evSkipped : Nat := 0x03
def evHalted : Nat := 0x04
def evRootStaged : Nat := 0x05
def evRootFail : Nat := 0x06
def evRootLate : Nat := 0x07
def evRootSkipped : Nat := 0x08
def evCompare : Nat := 0x09
def evOverrun : Nat := 0x0A
def evCloseStall : Nat := 0x0B

/-- A SWEEP notice of a shard (R262). -/
def State.sweepNotice (s : State) (n i event : Nat) (st : Status) (close value : Nat) : State :=
  let a := s.recAt n i
  let q := (s.con n).sweepNq.toNat
  s.raise (if event = evHalted ∨ event = evOverrun ∨ event = evRootFail then [0, q] else [q]) kSweep (.stage (stageOfCons n)) st 0
    (payload32 [(0, 8, event), (8, 6, n), (16, 6, i), (32, 32, s.rVersion a), (64, 32, close), (96, 32, value), (128, 48, a)])

/-- LAST_STATUS (R230). -/
def State.rLast (s : State) (a : Nat) (st : Status) : State := s.recSet a 1215 1200 (statusCode st)

/-! ## The jobs of a refresh (R255) -/

/-- A refresh whose last job has ended: staged, or discarded. -/
def State.refreshOver (s : State) (n i : Nat) : State :=
  let e := s.shard n i
  if !e.refreshing || !e.refreshJobs.isEmpty then s
  else
    let a := e.record.toNat
    let s := s.modShard n i (fun e => { e with refreshing := false, refreshBad := false })
    if e.refreshBad then s
    else
      let s := (s.recSet a 1183 1152 e.refreshFrom.toNat).recSet a 1185 1185 1
      s.sweepNotice n i evRootStaged .ok e.refreshFrom.toNat 0

/-- A job of a refresh that failed: counted and reported once for the refresh (R255). -/
def State.refreshFails (s : State) (n i : Nat) (st : Status) : State :=
  let e := s.shard n i
  if e.refreshBad then s
  else
    let s := (s.modShard n i (fun e => { e with refreshBad := true })).modCon n (fun x => { x with rootFails := satInc x.rootFails })
    (s.rLast e.record.toNat st).sweepNotice n i evRootFail st e.refreshFrom.toNat 0

/-- A refresh's job ends (R255). -/
def State.refreshJobEnds (s : State) (n i : Nat) (seq : BitVec 32) (st : Status) : State :=
  if !(s.shard n i).refreshJobs.contains seq then s
  else
    let s := s.modShard n i (fun e => { e with refreshJobs := e.refreshJobs.filter (fun j => j != seq) })
    let s := if st = .ok then s else s.refreshFails n i st
    s.refreshOver n i

/-! ## Asynchronous commands (R372) -/

/-- The work behind a result slot ends: its outcome waits for ASYNC_COMMAND_END. -/
def State.workEnds (s : State) (k : Nat) (st : Status) (fs : List Fld) : State :=
  s.setSlot k { s.slot k with ended := true, status := st, fields := fs }

end Sys2Proof.Machine
end

