-- ==== Sys2Proof/Machine/Trans.lean ====
section
/-! DEFINITION. The functions that R129, R132, R158 and R275 bound a result by: exp, log, erf, the sigmoid, sine and cosine, in
fixed point with 300 bits after the binary point, from their series. A bounded result is a free candidate where it keeps the bound.
Log entries with the readings and choices that are the model's: 15, 68. -/

namespace Sys2Proof.Machine

/-- Bits after the binary point. -/
def fixBits : Nat := 300
/-- One. -/
def fixOne : Nat := 2 ^ fixBits
/-- Product and quotient of magnitudes. -/
def fixMul (a b : Nat) : Nat := a * b / fixOne
def fixDiv (a b : Nat) : Nat := a * fixOne / b

/-- The magnitude of a value in fixed point, and a signed value. -/
def fixOf : FVal → Nat
  | .fin _ m e => scaleFloor m (e + fixBits)
  | _ => 0
def FVal.fixed (v : FVal) : Int := signed v.sign (fixOf v)
/-- A value from fixed point. -/
def ofFix (i : Int) : FVal := .fin (decide (i < 0)) i.natAbs (-(fixBits : Int))

/-- Σ t·r^i / (k·(k+1)⋯), n terms. -/
def expSeries : Nat → Nat → Nat → Nat → Nat
  | 0, _, _, _ => 0
  | n + 1, k, r, t => t + expSeries n (k + 1) r (fixMul t r / k)

/-- Σ z^(2i+1)/(2i+1), n terms: the inverse hyperbolic tangent. -/
def atanhSeries : Nat → Nat → Nat → Nat → Nat
  | 0, _, _, _ => 0
  | n + 1, k, z2, t => t / k + atanhSeries n (k + 2) z2 (fixMul t z2)

/-- Σ (−1)^i / ((2i+1)·d^(2i+1)), n terms: the inverse tangent of 1/d. -/
def atanSeries : Nat → Nat → Nat → Nat → Int
  | 0, _, _, _ => 0
  | n + 1, k, d2, t => ((t / k : Nat) : Int) - atanSeries n (k + 2) d2 (t / d2)

/-- ln m for 1 ≤ m ≤ 2. -/
def fixLn (m : Nat) : Nat :=
  let z := fixDiv (m - fixOne) (m + fixOne)
  2 * atanhSeries 110 1 (fixMul z z) z

def fixLn2 : Nat := fixLn (2 * fixOne)
def fixPi : Nat := (16 * atanSeries 70 1 25 (fixOne / 5) - 4 * atanSeries 70 1 (239 * 239) (fixOne / 239)).toNat

/-- e^x of a finite value, with relative error below 2^−280; 0 and infinity far outside FP64's range. -/
def expVal (x : FVal) : FVal :=
  let bound := FVal.ofInt 2000
  if bound.lt x then .inf false
  else if x.lt bound.neg then FVal.zero
  else
    let n := x.fixed / (fixLn2 : Int)
    FVal.scale (ofFix (expSeries 75 1 (x.fixed - n * fixLn2).toNat fixOne)) n

/-- ln x of a positive finite value. -/
def lnVal (x : FVal) : FVal :=
  let n := x.exponent
  ofFix (fixLn (fixOf (x.scale (-n))) + n * fixLn2)

/-- The sigmoid 1 / (1 + e^−x), to 300 bits. -/
def sigmoidVal (x : FVal) : FVal :=
  let bound := FVal.ofInt 400
  if bound.lt x then FVal.ofInt 1
  else if x.lt bound.neg then FVal.zero
  else ofFix (fixDiv fixOne (fixOne + fixOf (expVal x.neg)))

/-- Σ t·(2x²)^i / ((k)(k+2)⋯), n terms. -/
def erfSeries : Nat → Nat → Nat → Nat → Nat
  | 0, _, _, _ => 0
  | n + 1, k, x2, t => t + erfSeries n (k + 2) x2 (fixMul t x2 / k)

/-- 2/√π · e^(−x²) (R132). -/
def erfDeriv (x : FVal) : FVal := (ofFix (fixDiv (2 * fixOne) (isqrt (fixPi * fixOne)))).mul (expVal (x.mul x).neg)

/-- erf x, for |x| below 8. -/
def erfVal (x : FVal) : FVal :=
  let a := fixOf x
  (erfDeriv x).mul (ofFix (signed x.sign (erfSeries 400 3 (2 * fixMul a a) a)))

/-- sin and cos of y, 0 ≤ y < 2π, by their series. -/
def sinSeries : Nat → Nat → Nat → Nat → Int
  | 0, _, _, _ => 0
  | n + 1, k, y2, t => (t : Int) - sinSeries n (k + 2) y2 (fixMul t y2 / (k * (k + 1)))

/-- sin (`false`) or cos (`true`) of a finite value below 2^200 in magnitude. -/
def circVal (cos : Bool) (x : FVal) : FVal :=
  let y := (x.fixed % (2 * fixPi : Nat)).toNat
  let y2 := fixMul y y
  ofFix (if cos then sinSeries 60 1 y2 fixOne else sinSeries 60 2 y2 y)

/-! ## Values within a bound -/

/-- k units in the last place of FP32 at a value. -/
def ulps (k : Nat) (y : FVal) : FVal :=
  if y.isZero then .fin false k (-149) else .fin false k (max (y.exponent - 23) (-149))

/-- A value lies within a distance of another. -/
def FVal.within (c tol exact : FVal) : Bool := c.isFin && !tol.lt (c.sub exact).abs

/-- A free FP32 value within a distance of the exact one: where the candidate is not, the exact one rounded. -/
def near (site x : Nat) (tol exact : FVal) : FVal :=
  let c := f32 (Config.bounded site x)
  if c.within tol exact then c else rnd32 exact

/-- A computed value that a rule also bounds. -/
def held (site x : Nat) (tol exact c : FVal) : FVal := if c.within tol exact then c else near site x tol exact

/-- The greater of two magnitudes. -/
def larger (a b : FVal) : FVal := if a.lt b then b else a

end Sys2Proof.Machine
end

