-- ==== Sys2Proof/Machine/Tables.lean ====
section
/-! DEFINITION. Function tables: slots, loading, re-reads, evaluation (R125 to R129, R160).
Log entries with the readings and choices that are the model's: 15, 29, 68. -/

namespace Sys2Proof.Machine

/-- A slot of a Core. -/
def Core.tslot (x : Core) (k : Nat) : TableSlot := Tab.get {} x.slots k
def Core.setTslot (x : Core) (k : Nat) (v : TableSlot) : Core := { x with slots := Tab.set x.slots k v }
/-- A slot is VALID. -/
def Core.slotValid (x : Core) (k : Nat) : Bool := decide ((x.tslot k).state = .valid)

/-- A 64-bit word, and a 32-bit half word, of a slot. -/
def TableSlot.word (t : TableSlot) (i : Nat) : W64 := Tab.get 0 t.words i
def TableSlot.half (t : TableSlot) (i : Nat) : Nat := fld (t.word (i / 2)) (32 * (i % 2) + 31) (32 * (i % 2))

/-- The bytes of a slot. -/
def TableSlot.bytes (t : TableSlot) : List Byte := ((List.range 520).map (fun i => leBytes 8 (t.word i).toNat)).flatten

/-! ## CRC-32 (R126) -/

/-- Eight bits of the reflected IEEE 802.3 polynomial. -/
def crcBits : Nat → BitVec 32 → BitVec 32
  | 0, r => r
  | n + 1, r => crcBits n (if r.getLsbD 0 then (r >>> 1) ^^^ 0xEDB88320 else r >>> 1)

/-- The CRC register after some bytes. -/
def crcGo : List Byte → BitVec 32 → BitVec 32
  | [], r => r
  | b :: t, r => crcGo t (crcBits 8 (r ^^^ b.setWidth 32))

/-- CRC-32 of some bytes. -/
def crc32 (l : List Byte) : BitVec 32 := ~~~ crcGo l 0xFFFFFFFF

/-- The CRC of a slot matches (R126). -/
def TableSlot.crcOk (t : TableSlot) : Bool :=
  let b := t.bytes
  (crc32 (b.take 60 ++ b.drop 64)).toNat == t.half 15

/-- No reserved encoding is present (R126). -/
def TableSlot.kind (t : TableSlot) : Nat := fld (t.word 1) 1 0
def TableSlot.leftRule (t : TableSlot) : Nat := fld (t.word 1) 3 2
def TableSlot.rightRule (t : TableSlot) : Nat := fld (t.word 1) 5 4
def TableSlot.encodingOk (t : TableSlot) : Bool := decide (t.kind ≤ 2 ∧ t.leftRule ≤ 1 ∧ t.rightRule ≤ 1)

/-! ## States (R127) -/

/-- A slot becomes FAILED (R127, R139). -/
def Core.slotFails (x : Core) (k : Nat) : Core :=
  { x.setTslot k { x.tslot k with state := .failed } with tableFails := satInc x.tableFails, lastFailed := BitVec.ofNat 5 k }

/-- The bits of word i that are no reserved field of the header: the others read as zero and ignore writes (R13, R126). -/
def slotMask (i : Nat) : W64 :=
  if i = 1 then 0xFFFFFFFF0000003F else if i = 2 then 0xFFFFFFFF else if i = 7 then 0xFFFFFFFF00000000
  else if 3 ≤ i ∧ i ≤ 6 then 0 else 0xFFFFFFFFFFFFFFFF

/-- Words of a slot, those that are zero unlisted. -/
def slotWords (f : Nat → W64) : Tab W64 :=
  (List.range 520).filterMap (fun i => if f i &&& slotMask i = 0 then none else some (i, f i &&& slotMask i))

/-- A word written. -/
def TableSlot.put (t : TableSlot) (off : Nat) (v : W64) (st : SlotState) : TableSlot :=
  let v := v &&& slotMask (off / 8)
  { words := if v = 0 then Tab.erase t.words (off / 8) else Tab.set t.words (off / 8) v, state := st }

/-- A register write to a slot: any word makes it BUSY, the CRC word ends loading (R127). -/
def Core.slotWrite (x : Core) (k off : Nat) (v : W64) : Core :=
  if off % 8 ≠ 0 ∨ 4160 ≤ off then x
  else
    let t := (x.tslot k).put off v .busy
    let x := x.setTslot k t
    if off ≠ 0x38 then x
    else if t.crcOk && t.encodingOk then x.setTslot k { t with state := .valid }
    else x.slotFails k

/-- An uncorrectable error of the store, or a mismatch: the slot fails, with a notice to the Curator. -/
def State.storeFails (s : State) (c k : Nat) : State :=
  (s.modCore c (fun x => x.slotFails k)).raise [0] kTable (.core c) .integrity 0 []

/-- A register write to a slot, with or without an uncorrectable error of the store. -/
def State.slotStore (s : State) (c k off : Nat) (v : W64) (storeError : Bool) : State :=
  let s := s.modCore c (fun x => x.slotWrite k off v)
  if storeError then s.storeFails c k else s

/-- TABLE_SLOT_WRITE: a word other than the CRC word. -/
def execTableSlotWrite (c : CoreNo) (k : SlotLoad) (off : Nat) (v : W64) (s : State) : Out1 :=
  if off = 0x38 then .next s
  else .next (s.atDoor c.val (.tableSlotWrite c k off v) (fun s => s.slotStore c.val k.slot.val off v k.storeError))

/-- TABLE_SLOT_CRC_WRITE. -/
def execTableSlotCrcWrite (c : CoreNo) (k : SlotLoad) (v : W64) (s : State) : Out1 :=
  .next (s.atDoor c.val (.tableSlotCrcWrite c k v) (fun s => s.slotStore c.val k.slot.val 0x38 v k.storeError))

/-- TABLE_REREAD. -/
def execTableReread (c : CoreNo) (k : Fin 32) (storeError : Bool) (s : State) : Out1 :=
  let t := (s.core c.val).tslot k.val
  if t.state ≠ .valid ∨ !(s.core c.val).open then .next s
  else if storeError ∨ !t.crcOk then .next (s.storeFails c.val k.val)
  else .next s

/-- Slots the firmware loads (R125). -/
def standardSlot (k : Nat) : Bool := decide (k < 8 ∨ (16 ≤ k ∧ k < 24 ∧ k ≠ 20 ∧ k ≠ 21))

/-- Header of a standard function table (R129): LO, HI, KIND with the rules, LEFT_C, RIGHT_C. -/
def standardHeader (k : Nat) : Nat × Nat × Nat × Nat × Nat :=
  match k with
  | 0 => (0xC1000000, 0x41000000, 16, 0, 0)
  | 1 => (0xC1A00000, 0x41A00000, 16, 0, 0)
  | 2 => (0xC1200000, 0x41200000, 0, 0xBF800000, 0x3F800000)
  | 3 => (0xC1A00000, 0x41A00000, 0, 0, 0x3F800000)
  | 4 => (0, 0x3F317218, 1, 0, 0)
  | 5 => (0x3F800000, 0x40000000, 2, 0, 0)
  | 6 => (0xC0C00000, 0x40C00000, 0, 0xBF800000, 0x3F800000)
  | _ => (0xC1A00000, 0x41A00000, 16, 0, 0)

/-- Word i of a slot as the firmware holds it, but for the CRC: R129 gives the header of slots 0 to 7, a derivative table is of
kind 0 with rules that are no reserved encoding, and the rest is free. -/
def firmwareWord (k i : Nat) : W64 :=
  let w := Config.firmwareTable k i
  if i = 7 then 0
  else if k < 8 ∧ i < 3 then
    let (lo, hi, kind, l, r) := standardHeader k
    BitVec.ofNat 64 (if i = 0 then lo + 2 ^ 32 * hi else if i = 1 then kind + 2 ^ 32 * l else r)
  else if i = 1 then w &&& 0xFFFFFFFF00000014
  else w

/-- A slot loaded with a standard table, its CRC as R126 forms it. -/
def firmwareSlot (k : Nat) : TableSlot :=
  let b := ({ words := slotWords (firmwareWord k) } : TableSlot).bytes
  let crc := crc32 (b.take 60 ++ b.drop 64)
  { words := slotWords (fun i => if i = 7 then BitVec.ofNat 64 (2 ^ 32 * crc.toNat) else firmwareWord k i), state := .valid, firmware := true }

/-- A slot loaded from bytes (R126, R127). -/
def slotOfBytes (b : List Byte) : TableSlot :=
  let t : TableSlot := { words := slotWords (fun i => BitVec.ofNat 64 (ofLe ((b.drop (8 * i)).take 8))), state := .valid }
  if t.crcOk && t.encodingOk then t else { t with state := .failed }

/-- The standard tables as the Curator loads them when a Core leaves reset (R125). -/
def Core.loadTables (x : Core) : Core :=
  { x with slots := ((List.range 32).filter standardSlot).map (fun k => (k, firmwareSlot k)) }

/-- The bytes of a user slot in the Production loaded on a Core. -/
def State.prodTable (s : State) (c k : Nat) : Option (List Byte) :=
  (s.cur.prods.find? (fun (_, p) => p.used && p.cores.contains c)).bind (fun (_, p) =>
    (p.tables.find? (fun (n, j, _) => n == c && j == k)).map (fun (_, _, b) => b))

/-- A slot reloaded by the Curator; an uncorrectable error of the store fails it again. -/
def State.slotReloaded (s : State) (c k : Nat) (t : TableSlot) (storeError : Bool) : State :=
  let s := s.modCore c (fun x => x.setTslot k t)
  if storeError then s.storeFails c k else s

/-- TABLE_SLOT_RELOAD: from firmware, or from the Production (R127). -/
def execTableSlotReload (c : CoreNo) (k : SlotLoad) (s : State) : Out1 :=
  if ((s.core c.val).tslot k.slot.val).state ≠ .failed ∨ !(s.core c.val).open then .next s
  else if standardSlot k.slot.val then .next (s.slotReloaded c.val k.slot.val (firmwareSlot k.slot.val) k.storeError)
  else match s.prodTable c.val k.slot.val with
    | none => .next s
    | some b => .next (s.slotReloaded c.val k.slot.val (slotOfBytes b) k.storeError)

/-! ## Evaluation (R128) -/

/-- Coefficient i of segment k. -/
def TableSlot.coeff (t : TableSlot) (k i : Nat) : FVal := f32 (t.half (16 + 4 * k + i))

/-- fma rounded to FP32. -/
def fma32 (a b c : FVal) : FVal := rnd32 ((a.mul b).add c)

/-- ⌊x⌋ of a finite value. -/
def FVal.floorInt : FVal → Int
  | .fin s m e => if 0 ≤ e then signed s (shlInt m e) else (signed s m) / ((2 ^ (-e).toNat : Nat) : Int)
  | _ => 0

/-- Segment of u: its floor, at most 255. -/
def segOf (u : FVal) : Nat :=
  match u with
  | .nan => 0
  | .inf s => if s then 0 else 255
  | .fin _ _ _ => min u.floorInt.toNat 255

/-- The cubic of the segment that holds x. -/
def TableSlot.cubic (t : TableSlot) (x : FVal) : FVal :=
  let lo := f32 (t.half 0)
  let hi := f32 (t.half 1)
  let u := rnd32 ((rnd32 (x.sub lo)).mul (rnd32 ((FVal.ofInt 256).div (rnd32 (hi.sub lo)))))
  let k := segOf u
  let d := rnd32 (u.sub (FVal.ofInt k))
  fma32 (fma32 (fma32 (t.coeff k 3) d (t.coeff k 2)) d (t.coeff k 1)) d (t.coeff k 0)

/-- The exact value of standard function k (R129). -/
def standardVal (k : Nat) (x : FVal) : FVal :=
  match k with
  | 0 => x.mul ((FVal.ofInt 1).add (erfVal (x.div (FVal.sqrt (FVal.ofInt 2))))) |>.scale (-1)
  | 1 => x.mul (sigmoidVal x)
  | 2 => ((sigmoidVal (x.scale 1)).scale 1).sub (FVal.ofInt 1)
  | 3 => sigmoidVal x
  | 4 => expVal x
  | 5 => lnVal x
  | 6 => erfVal x
  | _ => lnVal ((FVal.ofInt 1).add (expVal x))

/-- The distance R129 allows there: 2 ulp for exp and log, else 4 ulp or 2^−24. -/
def standardBound (k : Nat) (y : FVal) : FVal :=
  if k = 4 ∨ k = 5 then ulps 2 y else larger (ulps 4 y) (.fin false 1 (-24))

/-- The cubic of slot k, which keeps R129's bound where the firmware loaded the slot. -/
def TableSlot.inside (t : TableSlot) (k : Nat) (x : FVal) : FVal :=
  if t.firmware && decide (k < 8) then
    let y := standardVal k x
    held k (r32 x) (standardBound k y) y (t.cubic x)
  else t.cubic x

/-- A tail rule. -/
def tail (rule : Nat) (x c : FVal) : FVal := if rule = 0 then c else rnd32 (x.add c)

/-- x as m · 2^n with 1 ≤ m < 2. -/
def FVal.mantissa (x : FVal) : FVal := x.scale (-x.exponent)

/-- exp by the table: n = ⌊x / ln 2⌋, r = x − n · ln 2 formed with the exact constant and rounded once. -/
def TableSlot.expAt (t : TableSlot) (k : Nat) (x : FVal) : FVal :=
  let ln2 := ofFix fixLn2
  let n := (rnd32 (x.div (rnd32 ln2))).floorInt
  if 1000 < n then .inf false
  else if n < -1000 then FVal.zero
  else rnd32 ((t.inside k (rnd32 (x.sub ((FVal.ofInt n).mul ln2)))).scale n)

/-- Slot k evaluated at x (R128). -/
def TableSlot.eval (t : TableSlot) (k : Nat) (x : FVal) : FVal :=
  let lo := f32 (t.half 0)
  let hi := f32 (t.half 1)
  if x.isNan then .nan
  else if t.kind = 0 then
    if x.lt lo then tail t.leftRule x (f32 (t.half 3))
    else if !x.lt hi then tail t.rightRule x (f32 (t.half 4))
    else t.inside k x
  else if t.kind = 1 then
    match x with
    | .inf s => if s then FVal.zero else .inf false
    | _ => t.expAt k x
  else if x.lt FVal.zero then .nan
  else if x.isZero then .inf true
  else if x.isInf then .inf false
  else rnd32 ((t.inside k x.mantissa).add (rnd32 ((FVal.ofInt x.exponent).mul (ofFix fixLn2))))

/-- Slot s of a Core at x, an FP32 value. -/
def Core.func (x : Core) (k : Nat) (v : FVal) : FVal := (x.tslot k).eval k (rnd32 v)

/-! ## Derivatives (R130 to R132) -/

/-- A derivative on function slot s takes the formula path (R131). -/
def Core.onFormula (x : Core) (k : Nat) (isOut : Bool) : Bool :=
  isOut || (decide (k < 8) && bitOf x.formulaForce.toNat k) || (decide (k < 8) && !x.slotValid (16 + k))

/-- Slots a derivative needs VALID to start (R131). -/
def Core.derivNeeds (x : Core) (k : Nat) (isOut : Bool) : List Nat :=
  if !x.onFormula k isOut then [16 + k]
  else (if isOut || k == 5 || k == 6 then [] else [k]) ++
    (if k = 6 ∨ k = 7 ∨ (k = 5 ∧ isOut) then [4] else [])

/-- A constant of the formulas as FP32 holds it. -/
def ratio32 (a b : Nat) : FVal := rnd32 ((FVal.ofInt a).div (FVal.ofInt b))
def one32 : FVal := FVal.ofInt 1

/-- σ_r: within 2^−22 of the sigmoid (R132). -/
def sigmaRom (x : FVal) : FVal := if x.isNan then .nan else near 32 (r32 x) (.fin false 1 (-22)) (sigmoidVal x)

/-- GELU and SiLU: s + a · y · (1 − s) with s = σ_r(a · y) (R132). -/
def gateDeriv (a y : FVal) : FVal :=
  let s := sigmaRom (rnd32 (a.mul y))
  rnd32 (s.add (rnd32 ((rnd32 (a.mul y)).mul (rnd32 (one32.sub s)))))

/-- A value formed by slot 4, which keeps its bound where the firmware loaded that slot. -/
def Core.bySlot4 (x : Core) (site arg : Nat) (tol exact c : FVal) : FVal :=
  if (x.tslot 4).firmware && exact.isFin && c.isFin then held site arg tol exact c else c

/-- f′ at the saved value (R131, R132). -/
def Core.deriv (x : Core) (k : Nat) (isOut : Bool) (v : FVal) : FVal :=
  if !x.onFormula k isOut then x.func (16 + k) v
  else
    let v := rnd32 v
    let y := if isOut then v else x.func k v
    if k = 0 then gateDeriv (ratio32 1702 1000) y
    else if k = 1 then gateDeriv one32 y
    else if k = 2 then fma32 y.neg y one32
    else if k = 3 then rnd32 (y.mul (rnd32 (one32.sub y)))
    else if k = 4 then y
    else if k = 5 then (if isOut then x.bySlot4 33 (r32 y) (ulps 3 (expVal y.neg)) (expVal y.neg) (x.func 4 y.neg) else rnd32 (one32.div v))
    else if k = 6 then
      let y := erfDeriv v
      x.bySlot4 34 (r32 v) (ulps 3 y) y (rnd32 ((ratio32 11283792 10000000).mul (x.func 4 (rnd32 (v.mul v)).neg)))
    else
      let e := one32.sub (expVal y.neg)
      x.bySlot4 35 (r32 y) (.fin false 1 (-23)) e (rnd32 (one32.sub (x.func 4 y.neg)))

end Sys2Proof.Machine
end

