-- ==== Sys2Proof/Machine/Vector.lean ====
section
/-! DEFINITION. The vector engine (R142 to R164). A cue joins the queue as it issues; it runs once the cues before it have run
and the table slots it needs are VALID, and its destinations become RESIDENT in a step of its own.
Log entries with the readings and choices that are the model's: 14, 30. -/

namespace Sys2Proof.Machine

/-! ## VEC fields (R89, R147) -/

def vecOp (q : W128) : Nat := fld q 31 24
def vecAFmt (q : W128) : Fmt := fmtOf (fld q 35 32)
def vecBFmt (q : W128) : Fmt := fmtOf (fld q 39 36)
def vecDFmt (q : W128) : Fmt := fmtOf (fld q 43 40)
def vecNT (q : W128) : Nat := fld q 63 58 + 1
def vecATrans (q : W128) : Bool := fld q 66 66 == 1
def vecBTrans (q : W128) : Bool := fld q 67 67 == 1
def vecImm (q : W128) : Nat := fld q 127 96

/-! ## Compute formats (R142, R150, R151) -/

/-- A compute format. -/
inductive CFmt where
  | f64 | f32 | f16 | b16 | i32
deriving DecidableEq, Repr

/-- The compute format of a set of formats (R142). -/
def computeOf (fs : List Fmt) : CFmt :=
  if fs.any (fun f => f == .fp64 || f == .slice8) then .f64
  else if fs.all (fun f => f.isInt) then .i32
  else if fs.any (fun f => f == .fp32 || f.isMx || f.isInt) then .f32
  else if fs.contains .fp16 then (if fs.contains .bf16 then .f32 else .f16)
  else .b16

/-- Formats an operation names (R142, R148). -/
def formatsOf (q : W128) : List Fmt :=
  let sh := vecShape (vecOp q)
  [vecAFmt q] ++ (if sh.b = 0 then [] else [vecBFmt q]) ++ (if sh.d = 0 then [] else [vecDFmt q])

/-- FP32 at the least (R142, R158). -/
def CFmt.atLeast32 : CFmt → CFmt
  | .f16 => .f32
  | .b16 => .f32
  | .f64 => .f64
  | .f32 => .f32
  | .i32 => .i32

/-- Reductions, statistics and rotations compute in FP32 at the least. -/
def vecCompute (q : W128) : CFmt :=
  let op := vecOp q
  if (0x40 ≤ op ∧ op ≤ 0x47) ∨ op = 0x51 then (computeOf (formatsOf q)).atLeast32 else computeOf (formatsOf q)

/-- The layout of a floating compute format. -/
def CFmt.layout : CFmt → FLayout
  | .f64 => fp64 | .f32 => fp32 | .f16 => fp16 | .b16 => bf16 | .i32 => fp64

/-- A value and whether forming it saturated. -/
abbrev VRes := FVal × Bool

/-- A result rounded to the compute format; INT32 takes the nearer bound and saturates (R150, R151). -/
def CFmt.round (c : CFmt) (v : FVal) : VRes :=
  if c = .i32 then
    let (i, sat) := clampInt (-2147483648) 2147483647 v.int
    (FVal.ofInt i, sat)
  else (ofLayout c.layout (v.toLayout c.layout .toInf none).code, false)

/-- A value widened, or a scalar rounded, to the compute format (R142, R147). -/
def CFmt.widen (c : CFmt) (v : FVal) : FVal := (c.round v).1

/-- Rounded toward zero to a layout. -/
def truncCode (f : FLayout) : FVal → Nat
  | .fin _ m e => roundCode f (some 0) m e
  | .inf _ => f.infCode.getD 0
  | .nan => f.nanCode.getD 0

/-- 1 / √v within 1 ulp of a layout: the free pick chooses among the codes that are (R148, R150, R155). -/
def rsqrtOf (f : FLayout) (v : FVal) : FVal :=
  match v with
  | .nan => .nan
  | .inf s => if s then .nan else FVal.zero
  | .fin s m e =>
    if m = 0 then .inf s
    else if s then .nan
    else
      let y := rsqrtFin m e
      let lo := truncCode f y
      let pick := Config.rsqrtPick (r64 v)
      let exact := decide (((ofLayout f lo).sub y).isZero = true)
      ofLayout f (if exact then lo + pick % 3 - 1 else lo + pick % 2)

/-- The greater of two values, NaN if one is (R150). -/
def vmax (a b : FVal) : FVal :=
  if a.isNan || b.isNan then .nan
  else if a.lt b then b
  else if b.lt a then a
  else if a.sign then b else a

/-- The lesser of two values, NaN if one is (R150). -/
def vmin (a b : FVal) : FVal :=
  if a.isNan || b.isNan then .nan
  else if a.lt b then a
  else if b.lt a then b
  else if a.sign then a else b

/-- Magnitude: that of −2^31 in INT32 saturates (R151). -/
def CFmt.vabs (c : CFmt) (v : FVal) : VRes := c.round v.abs

/-! ## The processed region (R145, R146) -/

/-- A length field: 0 means 64. -/
def lenOf (n : Nat) : Nat := if n = 0 ∨ 64 < n then 64 else n

/-- Lines and elements of a tile that a cue processes: (n_l, n_e). -/
def extent (vl : W64) (trans : Bool) (t : Tile) : Nat × Nat :=
  let (l, e) := if trans then (t.cols, t.rows) else (t.rows, t.cols)
  (min (lenOf (fld vl 14 8)) l, min (lenOf (fld vl 6 0)) e)

/-- What an operation sees of the machine: the state, the Core, the cue, the compute format, VL. -/
structure VCtx where
  s  : State
  c  : Nat
  q  : W128
  cf : CFmt
  vl : W64

def VCtx.core (x : VCtx) : Core := x.s.core x.c
def VCtx.tile (x : VCtx) (i : Nat) : Tile := x.core.tile i
def VCtx.ext (x : VCtx) (i : Nat) : Nat × Nat := extent x.vl (vecATrans x.q) (x.tile i)

/-- A decoded element: an MX value beyond the FP32 range is infinite in every compute format (R142). -/
def decoded (f : Fmt) (v : FVal) : FVal := if f.isMx && (rnd32 v).isInf then rnd32 v else v

/-- An element as stored, by its line and place. -/
def VCtx.stored (x : VCtx) (trans : Bool) (f : Fmt) (i l j : Nat) : FVal :=
  decoded f (if trans then x.s.elemVal x.c (x.tile i) f j l else x.s.elemVal x.c (x.tile i) f l j)

/-- Element j of line l of an A tile, widened; zero outside the processed region (R153). -/
def VCtx.a (x : VCtx) (i l j : Nat) : FVal :=
  let (nl, ne) := x.ext i
  if l < nl ∧ j < ne then
    x.cf.widen (x.stored (vecATrans x.q) (vecAFmt x.q) i l j)
  else FVal.zero

/-- Element j of line l of a B tile; zero outside its valid extent (R146). -/
def VCtx.b (x : VCtx) (i l j : Nat) : FVal :=
  let t := x.tile i
  let (r, k) := if vecBTrans x.q then (j, l) else (l, j)
  if r < t.rows ∧ k < t.cols then x.cf.widen (x.stored (vecBTrans x.q) (vecBFmt x.q) i l j) else FVal.zero

/-- A B element where the operation rearranges: zero outside the processed region (R153). -/
def VCtx.bIn (x : VCtx) (i l j : Nat) : FVal :=
  let (nl, ne) := extent x.vl (vecBTrans x.q) (x.tile i)
  if l < nl ∧ j < ne then x.b i l j else FVal.zero

/-- The scalar of FMAS, ADDS and MULS (R147). -/
def VCtx.imm (x : VCtx) : FVal :=
  let f := vecAFmt x.q
  x.cf.widen (if f.isMx || f == .fp64 then f32 (vecImm x.q) else valueOf f (vecImm x.q % 2 ^ f.bits))

/-! ## Element operations (R148, R150) -/

/-- Result (l, j) of an operation on one A tile, one B tile. -/
def VCtx.elem (x : VCtx) (ai bi l j : Nat) : VRes :=
  let op := vecOp x.q
  let r := x.cf.round
  let a := x.a ai l j
  if op = 0x00 then (a, false)
  else if op = 0x01 then r (a.add (x.b bi l j))
  else if op = 0x02 then r (a.sub (x.b bi l j))
  else if op = 0x03 then r (a.mul (x.b bi l j))
  else if op = 0x04 then r ((a.mul x.imm).add (x.b bi l j))
  else if op = 0x05 then r (a.add x.imm)
  else if op = 0x06 then r (a.mul x.imm)
  else if op = 0x07 then (vmax a (x.b bi l j), false)
  else if op = 0x08 then (vmin a (x.b bi l j), false)
  else if op = 0x09 then x.cf.vabs a
  else if op = 0x0A then r (a.div (x.b bi l j))
  else if op = 0x0B then r ((FVal.ofInt 1).div a)
  else if op = 0x0C then r a.sqrt
  else if op = 0x0D then (rsqrtOf x.cf.layout a, false)
  else if op = 0x10 then r (a.sub (x.b bi l 0))
  else if op = 0x11 then r (a.mul (x.b bi l 0))
  else if op = 0x12 then r ((x.cf.widen (a.sub (x.b bi l 0))).mul (x.b bi l 1))
  else if op = 0x13 then r (a.mul (x.b bi 0 j))
  else if op = 0x14 then r (a.add (x.b bi 0 j))
  else if op = 0x15 then
    if x.b bi l 0 = .inf true then (if bitOf (vecImm x.q) 0 then FVal.ofInt 1 else FVal.zero, false)
    else if a = .inf false ∧ (x.b bi l 0).isFin then (a, false)
    else (x.core.func 4 (x.cf.widen (a.sub (x.b bi l 0))), false)
  else if op = 0x16 then (if (x.b bi l 0).isZero then (FVal.zero, false) else r (a.div (x.b bi l 0)))
  else if op = 0x20 then (x.core.func (bitsOf (vecImm x.q) 3 0) a, false)
  else if op = 0x21 then
    r (a.mul (x.cf.widen (x.core.deriv (bitsOf (vecImm x.q) 3 0) (bitOf (vecImm x.q) 4) (x.b bi l j))))
  else if op = 0x30 then
    let i := (Tab.get 0 x.core.vec.idx j).toNat
    (if 128 ≤ i then FVal.zero else if i < 64 then x.a ai l i else x.bIn bi l (i - 64), false)
  else if op = 0x31 then
    let p := bitsOf (vecImm x.q) 13 8
    (x.a ai l (if bitsOf (vecImm x.q) 1 0 = 0 then (j + p) % 64 else if bitsOf (vecImm x.q) 1 0 = 1 then 63 - j else (j ^^^ 2 ^ p) % 64), false)
  else if op = 0x32 then (if j < 32 then x.a ai l (2 * j) else x.bIn bi l (2 * j - 64), false)
  else if op = 0x33 then (if j < 32 then x.a ai l (2 * j + 1) else x.bIn bi l (2 * j - 63), false)
  else if op = 0x34 then (if j % 2 = 0 then x.a ai l (j / 2) else x.bIn bi l ((j - 1) / 2), false)
  else if op = 0x35 then (if j % 2 = 0 then x.a ai l (32 + j / 2) else x.bIn bi l (32 + (j - 1) / 2), false)
  else (a, false)

/-- Cells of a region, line by line. -/
def cellsOf (nl ne : Nat) : List (Nat × Nat) := ((List.range nl).map (fun l => (List.range ne).map (fun j => (l, j)))).flatten

/-- A result and its place. -/
abbrev VOut := Nat × Nat × VRes

/-- Results of an element operation over the processed region. -/
def VCtx.elems (x : VCtx) (ai bi : Nat) : List VOut :=
  let (nl, ne) := x.ext ai
  (cellsOf nl ne).map (fun (l, j) => (l, j, x.elem ai bi l j))

/-! ## Positions (R140, R156 to R158) -/

/-- A position that is no 20-bit index. -/
def badPos (p : Int) : Bool := decide (p < 0 ∨ 1048576 ≤ p)

/-- Every element of a destination is NaN (R140). -/
def allNan : List VOut := (cellsOf 64 64).map (fun (l, j) => (l, j, FVal.nan, false))

/-- MASK (R157). -/
def VCtx.mask (x : VCtx) (ai : Nat) (row col : Int) : List VOut :=
  let (nl, ne) := x.ext ai
  let w : Int := bitsOf (vecImm x.q) 24 5
  if badPos row || badPos col || badPos (row + nl - 1) || badPos (col + ne - 1) then allNan
  else (cellsOf nl ne).map (fun (l, j) =>
    let p := row + l
    let k := col + j
    let out := (bitOf (vecImm x.q) 4 && decide (p < k)) || (decide (w ≠ 0) && decide (w ≤ p - k))
    (l, j, if out then (FVal.inf true, false) else (x.a ai l j, false)))

/-- A sine (`false`) or cosine (`true`): a free value within 2^−23 of the exact one. -/
def circNear (cos : Bool) (θ : FVal) : FVal :=
  let y := circVal cos θ
  let c := f64 (Config.bounded (36 + bit cos) (r64 θ))
  if c.within (.fin false 1 (-23)) y then c else rnd64 y

/-- a·c + b·d in a compute format: whether either product is rounded before the sum is open (R158). -/
def CFmt.dot2 (f : CFmt) (a c b d : FVal) : VRes :=
  let k := Config.rotaryForm % 3
  let p := if k = 1 then a.mul c else f.widen (a.mul c)
  let q := if k = 2 then b.mul d else f.widen (b.mul d)
  f.round (p.add q)

/-- ROTARY (R158). -/
def VCtx.rotary (x : VCtx) (ai : Nat) (row : Int) : List VOut :=
  let (nl, ne) := x.ext ai
  if badPos row || badPos (row + nl - 1) then allNan
  else (cellsOf nl ne).map (fun (l, j) =>
    let f := f32 (Tab.get 0 x.core.vec.freq (j / 2)).toNat
    let θ := rnd64 ((FVal.ofInt (row + l)).mul f)
    let θ := if bitOf (vecImm x.q) 0 then θ.neg else θ
    let a := x.a ai l (j / 2 * 2)
    let b := x.a ai l (j / 2 * 2 + 1)
    if !θ.isFin then (l, j, (FVal.nan, false))
    else
      let sn := x.cf.widen (circNear false θ)
      let cs := x.cf.widen (circNear true θ)
      (l, j, if j % 2 = 0 then x.cf.dot2 a cs b sn.neg else x.cf.dot2 a sn b cs))

/-! ## Row reductions (R155) -/

/-- One level of the tree: adjacent results combined; one that is absent lets the other through. -/
def treeLevel (f : VRes → VRes → VRes) : List (Option VRes) → List (Option VRes)
  | [] => []
  | [a] => [a]
  | some a :: some b :: t => some (f a b) :: treeLevel f t
  | some a :: none :: t => some a :: treeLevel f t
  | none :: b :: t => b :: treeLevel f t

/-- Six levels over 64 positions. -/
def tree (f : VRes → VRes → VRes) (l : List (Option VRes)) : Option VRes :=
  ((treeLevel f (treeLevel f (treeLevel f (treeLevel f (treeLevel f (treeLevel f l)))))).head?).join

/-- Tree results of the tiles of a row, one after another. -/
def chain (f : VRes → VRes → VRes) : List (Option VRes) → Option VRes
  | [] => none
  | r :: t => t.foldl (fun acc x => match acc, x with
      | some a, some b => some (f a b)
      | some a, none => some a
      | none, b => b) r

/-- A reduction of line l over the tiles of a row, of terms g. -/
def VCtx.reduce (x : VCtx) (f : VRes → VRes → VRes) (g : Nat → Nat → VRes) (tiles : List Nat) (l : Nat) : Option VRes :=
  chain f ((List.range tiles.length).map (fun t =>
    let (nl, ne) := x.ext (nth 0 tiles t)
    tree f ((List.range 64).map (fun j => if l < nl ∧ j < ne then some (g t j) else none))))

/-- Processed elements of line l of a row. -/
def VCtx.count (x : VCtx) (tiles : List Nat) (l : Nat) : Nat :=
  (tiles.map (fun i => let (nl, ne) := x.ext i; if l < nl then ne else 0)).foldl (· + ·) 0

/-- Combination by sum. -/
def VCtx.plus (x : VCtx) (a b : VRes) : VRes :=
  let r := x.cf.round (a.1.add b.1)
  (r.1, a.2 || b.2 || r.2)

/-- Combination by a selection. -/
def selBy (f : FVal → FVal → FVal) (a b : VRes) : VRes := (f a.1 b.1, a.2 || b.2)

/-- Results of a row operation on line l: one, or two for RSTATS (R155). -/
def VCtx.row (x : VCtx) (as bs : List Nat) (l : Nat) : List VRes :=
  let op := vecOp x.q
  let a := fun t j => x.a (nth 0 as t) l j
  let n := FVal.ofInt (x.count as l)
  let eps := f32 (vecImm x.q)
  let sum := fun g => x.reduce x.plus g as l
  let one := fun (r : Option VRes) => r.toList
  if op = 0x40 then one (sum (fun t j => (a t j, false)))
  else if op = 0x41 then one (sum (fun t j => x.cf.round ((a t j).mul (a t j))))
  else if op = 0x42 then one (x.reduce (selBy vmax) (fun t j => (a t j, false)) as l)
  else if op = 0x43 then one (x.reduce (selBy vmin) (fun t j => (a t j, false)) as l)
  else if op = 0x44 then one (x.reduce (selBy vmax) (fun t j => x.cf.vabs (a t j)) as l)
  else if op = 0x45 then one (sum (fun t j => x.cf.round ((a t j).mul (x.b (nth 0 bs t) l j))))
  else if op = 0x46 then
    match sum (fun t j => (a t j, false)) with
    | none => []
    | some (m, _) =>
      let mean := x.cf.widen (m.div n)
      let dev := fun t j => let d := x.cf.widen ((a t j).sub mean); x.cf.round (d.mul d)
      match sum dev with
      | none => []
      | some (v, _) => [(mean, false), (rsqrtOf x.cf.layout ((x.cf.widen (v.div n)).add eps), false)]
  else
    match sum (fun t j => x.cf.round ((a t j).mul (a t j))) with
    | none => []
    | some (v, _) => [(rsqrtOf x.cf.layout ((x.cf.widen (v.div n)).add eps), false)]

/-- Results of a row operation. -/
def VCtx.rows (x : VCtx) (as bs : List Nat) : List VOut :=
  ((List.range 64).map (fun l =>
    let rs := x.row as bs l
    (List.range rs.length).map (fun k => (l, k, nth (FVal.zero, false) rs k)))).flatten

/-! ## TOPK (R161, R162) -/

/-- A candidate: its key, value and position. -/
abbrev Cand := FVal × FVal × Nat

/-- Insertion before the first candidate that ranks strictly below. -/
def insertBest (less : FVal → FVal → Bool) (x : Cand) : List Cand → List Cand
  | [] => [x]
  | y :: t => if less y.1 x.1 then x :: y :: t else y :: insertBest less x t

/-- Candidates of a line, best first, equal keys by ascending position. -/
def VCtx.ranked (x : VCtx) (as : List Nat) (l : Nat) : List Cand :=
  let key := fun (v : FVal) => if bitOf (vecImm x.q) 8 then v.abs else v
  let less := fun (a b : FVal) => if bitOf (vecImm x.q) 7 then b.lt a else a.lt b
  let all := ((List.range as.length).map (fun t =>
    let (nl, ne) := x.ext (nth 0 as t)
    if l < nl then (List.range ne).filterMap (fun j =>
      let v := x.a (nth 0 as t) l j
      if v.isNan then none else some (key v, v, t * 64 + j)) else [])).flatten
  all.foldl (fun acc c => insertBest less c acc) []

/-- Lines a row operation processes. -/
def VCtx.lines (x : VCtx) (as : List Nat) : Nat := (as.map (fun i => (x.ext i).1)).foldl max 0

/-- TOPK: values, then positions. -/
def VCtx.topk (x : VCtx) (as : List Nat) : List VOut × List VOut :=
  let k := bitsOf (vecImm x.q) 6 0
  let sel := ((List.range (x.lines as)).map (fun l =>
    let r := x.ranked as l
    (List.range k).map (fun i => match r[i]? with
      | some (_, v, p) => (l, i, v, FVal.ofInt p)
      | none => (l, i, FVal.nan, FVal.ofInt (-1))))).flatten
  (sel.map (fun (l, i, v, _) => (l, i, v, false)), sel.map (fun (l, i, _, p) => (l, i, p, false)))

/-! ## Slice split and join (R66, R69, R71, R159) -/

/-- The exponent mark of a line with NaN or infinity. -/
def nanMark : Nat := 0x4000 + Config.nanExp % 0x4000

/-- Exponent of a line of FP64 values (R66). -/
def splitExp (vs : List FVal) : Option Int :=
  if vs.any (fun v => !v.isFin) then none
  else
    let a := blockAmax vs
    some (if a.isZero then 0 else a.exponent + 1)

/-- Slices 0 to 6 of a value already scaled. -/
def slices : Nat → FVal → List Int
  | 0, _ => []
  | n + 1, r =>
    let k := r.int
    k :: slices n ((r.sub (FVal.ofInt k)).scale 7)

/-- SPLIT: for each slice its results, and the exponents of the processed lines. -/
def VCtx.split (x : VCtx) (ai : Nat) : List (List VOut) × List (Nat × Nat) :=
  let (nl, ne) := x.ext ai
  let exps := (List.range nl).map (fun l => splitExp ((List.range ne).map (x.a ai l)))
  let cut := (cellsOf nl ne).map (fun (l, j) => (l, j, match (exps[l]?).join with
    | some e => slices 7 ((x.a ai l j).scale (6 - e))
    | none => (List.range 7).map (fun i => sext 8 (Config.nanSlice (4096 * i + 64 * l + j)))))
  ((List.range 7).map (fun i => cut.map (fun (l, j, vs) => (l, j, FVal.ofInt (nth 0 vs i), false))),
   (List.range nl).map (fun l => (l, match (exps[l]?).join with
    | some e => wrapInt 16 e
    | none => nanMark)))

/-- The exponent a side line holds for a line; none where it marks NaN or infinity. -/
def VCtx.exponent (x : VCtx) (bi l : Nat) : Option Int :=
  let v := x.s.num (sideAddr x.c (x.tile bi) + 2 * l) 2
  if v = nanMark then none else some (sext 16 v)

/-- Seven sums recombined from the last down (R69). -/
def joinSums : List (Nat × FVal) → FVal
  | [] => FVal.zero
  | (t, p) :: r => rnd64 ((joinSums r).add (p.scale (-7 * t)))

/-- JOIN. -/
def VCtx.join (x : VCtx) (as bs : List Nat) : List VOut :=
  let (nl, ne) := x.ext (as.headD 0)
  (cellsOf nl ne).map (fun (l, j) => (l, j, match x.exponent (bs.headD 0) l, x.exponent (nth 0 bs 1) j with
    | some ea, some eb =>
      (rnd64 ((joinSums ((List.range as.length).map (fun t => (t, x.a (nth 0 as t) l j)))).scale (ea + eb - 12)), false)
    | _, _ => (FVal.nan, false)))

/-! ## Writing results (R56, R146, R152) -/

/-- Results that lie within a destination's valid extent. -/
def inTile (d : Tile) (os : List VOut) : List VOut := os.filter (fun (l, j, _) => decide (l < d.rows ∧ j < d.cols))

/-- The block of an element of an MX tile: its line and number (R47). -/
def blockOf (axis l j : Nat) : Nat := if axis = 0 then 2 * l + j / 32 else 2 * j + l / 32

/-- One draw where rounding is stochastic. -/
def drawIf (b : Bool) (src : Source) : Option Nat × Source :=
  if b then let (u, y) := src.draw; (some u, y) else (none, src)

/-- Elements written in order, with a conversion. -/
def writeAll (c : Nat) (d : Tile) (f : Fmt) (stoch : Bool) (conv : Option Nat → Nat → Nat → FVal → Conv) :
    List VOut → State × Source × TagFlags → State × Source × TagFlags
  | [], r => r
  | (l, j, v, sat) :: t, (s, src, g) =>
    let (u, src) := drawIf stoch src
    let k := conv u l j v
    writeAll c d f stoch conv t (s.putElem c d f l j k.code, src,
      { g with sat := g.sat || sat || k.sat, nonfinite := g.nonfinite || k.nonfinite })

/-- Scale bytes written. -/
def State.putScales (s : State) (a : Nat) : List (Nat × Nat) → State
  | [] => s
  | (b, v) :: t => State.putScales (s.pokeNum (a + b) 1 v) a t

/-- Results written to a destination tile: its flags (R49, R52, R56, R63). -/
def writeTile (s : State) (c di : Nat) (f : Fmt) (rnd : Nat) (satIn slice : Bool) (os : List VOut) : State × BitVec 32 × TagFlags :=
  let d := (s.core c).tile di
  let os := inTile d os
  let ask := rnd == 1 && f.stochasticOk
  let fb := ask && s.fallsBack c
  let stoch := ask && !fb
  let g : TagFlags := { satIn := satIn, stochastic := stoch, fallback := fb, slice := slice }
  let axis := tagAxis d.tag
  let src := s.source c 2
  let (s, src, g) :=
    if f.isMx then
      let blocks := dedup (os.map (fun (l, j, _) => blockOf axis l j))
      let scales := blocks.map (fun b =>
        let vs := (os.filter (fun (l, j, _) => blockOf axis l j == b)).map (fun (_, _, v, _) => v)
        (b, mxScale f vs, (blockAmax vs).isZero))
      let conv := fun u l j v =>
        let (_, k, z) := (scales.find? (fun (b, _) => b == blockOf axis l j)).getD (0, 0, true)
        mxElement f z k u v
      let s := s.putScales (sideAddr c d) (scales.map (fun (b, k, _) => (b, k)))
      writeAll c d f stoch conv os (s, src, g)
    else writeAll c d f stoch (fun u _ _ v => convert f .toInf u v) os (s, src, g)
  let s := s.setSource c 2 src
  (s.modCore c (fun x => { x with vec := { x.vec with elements := x.vec.elements + BitVec.ofNat 48 os.length } }),
   mkTag f.code (if f.isMx then axis else 0) prodVec g, g)

/-! ## Running a cue (R144, R148) -/

/-- One destination of a cue: its results, format, and the tile whose VERSION it copies. -/
structure VDest where
  tile : Nat
  fmt  : Fmt
  outs : List VOut
  from_ : Nat

/-- Destinations of a cue from its operands (R148). -/
def VCtx.dests (x : VCtx) (j : VecJob) : List VDest :=
  let op := vecOp x.q
  let f := vecDFmt x.q
  let nt := vecNT x.q
  if (vecShape op).row then
    let d0 := nth 0 j.dTiles 0
    let v := j.aTiles.headD 0
    if op = 0x60 then
      let (vals, poss) := x.topk j.aTiles
      [{ tile := d0, fmt := f, outs := vals, from_ := v }, { tile := nth 0 j.dTiles 1, fmt := .int32, outs := poss, from_ := v }]
    else [{ tile := d0, fmt := f, outs := x.rows j.aTiles j.bTiles, from_ := v }]
  else if op = 0x70 then
    ((List.range nt).map (fun g =>
      let a := nth 0 j.aTiles g
      let (outs, _) := x.split a
      (List.range 7).map (fun i => { tile := nth 0 j.dTiles (7 * g + i), fmt := f, outs := nth [] outs i, from_ := a : VDest }))).flatten
  else if op = 0x71 then
    (List.range nt).map (fun g =>
      let as := (j.aTiles.drop (7 * g)).take 7
      { tile := nth 0 j.dTiles g, fmt := f, outs := x.join as ((j.bTiles.drop (2 * g)).take 2), from_ := as.headD 0 : VDest })
  else if op = 0x36 ∨ op = 0x37 then []
  else
    (List.range nt).map (fun g =>
      let a := nth 0 j.aTiles g
      let outs := if op = 0x50 then x.mask a (nth 0 j.rowBases g) (nth 0 j.colBases g)
        else if op = 0x51 then x.rotary a (nth 0 j.rowBases g)
        else x.elems a (nth 0 j.bTiles g)
      { tile := nth 0 j.dTiles g, fmt := f, outs := outs, from_ := a : VDest })

/-- Destinations written one after another; their tags and versions. -/
def writeDests (c rnd : Nat) (satIn slice : Bool) : List VDest → State → State × List (BitVec 32 × BitVec 32 × TagFlags)
  | [], s => (s, [])
  | d :: t, s =>
    let ver := ((s.core c).tile d.from_).version
    let (s, tag, g) := writeTile s c d.tile d.fmt rnd satIn slice d.outs
    let (s, r) := writeDests c rnd satIn slice t s
    (s, (tag, ver, g) :: r)

/-- Exponents of a SPLIT stored in the side line of the first destination of a group (R83, R159). -/
def State.putExps (s : State) (a : Nat) : List (Nat × Nat) → State
  | [] => s
  | (l, e) :: t => State.putExps (s.pokeNum (a + 2 * l) 2 e) a t

/-- IDX_LOAD (R153). -/
def VCtx.idxLoad (x : VCtx) (ai : Nat) : Tab Byte :=
  let (nl, ne) := x.ext ai
  (List.range 64).map (fun j => (j, if 0 < nl ∧ j < ne then
    BitVec.ofNat 8 (if vecATrans x.q then x.s.elem x.c (x.tile ai) .int8 j 0 else x.s.elem x.c (x.tile ai) .int8 0 j) else 0x80))

/-- FREQ_LOAD; an entry outside the processed region reads zero. -/
def VCtx.freqLoad (x : VCtx) (ai : Nat) : Tab (BitVec 32) :=
  let (nl, ne) := x.ext ai
  (List.range 32).map (fun j => (j, if 0 < nl ∧ j < ne then
    BitVec.ofNat 32 (if vecATrans x.q then x.s.elem x.c (x.tile ai) .fp32 j 0 else x.s.elem x.c (x.tile ai) .fp32 0 j) else 0))

/-- Slots a cue needs VALID before it starts (R131, R160). -/
def vecNeeds (x : Core) (q : W128) : List Nat :=
  let op := vecOp q
  if op = 0x15 then [4]
  else if op = 0x20 then [bitsOf (vecImm q) 3 0]
  else if op = 0x21 then x.derivNeeds (bitsOf (vecImm q) 3 0) (bitOf (vecImm q) 4)
  else []

/-- A cue run: its operands read and released, its results written, its tags formed (R86, R131, R144). -/
def State.runVec (s : State) (c : Nat) (j : VecJob) : State × VecJob :=
  let x : VCtx := { s := s, c := c, q := j.word, cf := vecCompute j.word, vl := j.vl }
  let op := vecOp j.word
  let satIn := (j.aTiles ++ j.bTiles).any (fun i => tagSat (x.tile i).tag)
  let formula := op == 0x21 && x.core.onFormula (bitsOf (vecImm j.word) 3 0) (bitOf (vecImm j.word) 4)
  let idx := x.idxLoad (j.aTiles.headD 0)
  let freq := x.freqLoad (j.aTiles.headD 0)
  let exps := (List.range (vecNT j.word)).map (fun g => (nth 0 j.dTiles (7 * g), (x.split (nth 0 j.aTiles g)).2))
  let (s, tags) := writeDests c (fld j.word 45 44) satIn (op == 0x71) (x.dests j) s
  let s := if op = 0x70 then exps.foldl (fun s (d, es) => s.putExps (sideAddr c ((s.core c).tile d)) es) s else s
  let s := s.modCore c (fun y =>
    let y := if op = 0x36 then { y with vec := { y.vec with idx := idx } } else y
    let y := if op = 0x37 then { y with vec := { y.vec with freq := freq } } else y
    let y := if formula then { y with formulaOps := satInc y.formulaOps } else y
    let y := if fld j.word 64 64 = 1 then y.setStates .free j.aTiles else y
    let y := if fld j.word 65 65 = 1 then y.setStates .free j.bTiles else y
    let y := { y with vec := { y.vec with wingsBound := satInc y.vec.wingsBound (Config.wingsBound s.freeCtr) } }
    tags.foldl (fun y (_, _, g) => y.modP (fun p => p.noteTag g)) y)
  (s.fresh, { j with ran := true, tags := tags.map (fun (t, v, _) => (t, v)) })

/-- Cues run in issue order until one must wait for a slot (R131, R144, R160). -/
def vecRun (c : Nat) : List VecJob → State → State × List VecJob
  | [], s => (s, [])
  | j :: t, s =>
    if j.ran then let (s, r) := vecRun c t s; (s, j :: r)
    else if (vecNeeds (s.core c) j.word).all (s.core c).slotValid then
      let (s, j) := s.runVec c j
      let (s, r) := vecRun c t s
      (s, j :: r)
    else (s, j :: t)

/-- The engine of a Core goes on as far as it can. -/
def State.vecPump (s : State) (c : Nat) : State :=
  let (t, jobs) := vecRun c (s.core c).vec.jobs s
  t.modCore c (fun x => { x with vec := { x.vec with jobs := jobs } })

/-- A VEC cue joins the queue with what it drew and VL as it stands (R144, R145, R148). -/
def State.issueVec (s : State) (c : Nat) (q : W128) (pk : Peek) : State :=
  let sh := vecShape (vecOp q)
  let na := sh.a * vecNT q
  let j : VecJob := {
    cue := { num := s.freeCtr, cls := 3, signal := cueSignal q }, word := q, vl := (s.core c).p.vl,
    aTiles := pk.ops.take na, bTiles := pk.ops.drop na, dTiles := pk.dests,
    rowBases := pk.poss.take (vecNT q), colBases := pk.poss.drop (vecNT q) }
  ((s.modCore c (fun x => { x with vec := { x.vec with jobs := x.vec.jobs ++ [j] } })).fresh).vecPump c

/-- One attempt at a VEC cue of an operation. -/
def State.attemptVec (s : State) (c op : Nat) : State := s.attempt c (isVec op) (fun s q pk => s.issueVec c q pk)

/-- The destinations of a cue RESIDENT, with their tags and versions (R63, R86). -/
def Core.settle (x : Core) : List Nat → List (BitVec 32 × BitVec 32) → Core
  | d :: ds, (t, v) :: r => Core.settle (x.modTile d (fun y => { y with state := .resident, tag := t, version := v })) ds r
  | _, _ => x

/-- VEC_CUE_COMPLETE (R90, R163). -/
def execVecCueComplete (c : CoreNo) (s : State) : Out1 :=
  if !(s.core c.val).works then .next s
  else
    let s := s.vecPump c.val
    match (s.core c.val).vec.jobs with
    | [] => .next s
    | j :: t =>
      if !j.ran then .next s
      else .next ((s.modCore c.val (fun x =>
        ({ x with vec := { x.vec with jobs := t } }).settle j.dTiles j.tags)).signal c.val j.cue.signal)

/-! ## The operations: each row issues its own OP (R148) -/

def execVecConvert (c : CoreNo) (s : State) : Out1 := .next (s.attemptVec c.val 0x00)
def execVecAdd (c : CoreNo) (s : State) : Out1 := .next (s.attemptVec c.val 0x01)
def execVecSub (c : CoreNo) (s : State) : Out1 := .next (s.attemptVec c.val 0x02)
def execVecMul (c : CoreNo) (s : State) : Out1 := .next (s.attemptVec c.val 0x03)
def execVecFmas (c : CoreNo) (s : State) : Out1 := .next (s.attemptVec c.val 0x04)
def execVecAdds (c : CoreNo) (s : State) : Out1 := .next (s.attemptVec c.val 0x05)
def execVecMuls (c : CoreNo) (s : State) : Out1 := .next (s.attemptVec c.val 0x06)
def execVecMax (c : CoreNo) (s : State) : Out1 := .next (s.attemptVec c.val 0x07)
def execVecMin (c : CoreNo) (s : State) : Out1 := .next (s.attemptVec c.val 0x08)
def execVecAbs (c : CoreNo) (s : State) : Out1 := .next (s.attemptVec c.val 0x09)
def execVecDiv (c : CoreNo) (s : State) : Out1 := .next (s.attemptVec c.val 0x0A)
def execVecRecip (c : CoreNo) (s : State) : Out1 := .next (s.attemptVec c.val 0x0B)
def execVecSqrt (c : CoreNo) (s : State) : Out1 := .next (s.attemptVec c.val 0x0C)
def execVecRsqrt (c : CoreNo) (s : State) : Out1 := .next (s.attemptVec c.val 0x0D)
def execVecSubr (c : CoreNo) (s : State) : Out1 := .next (s.attemptVec c.val 0x10)
def execVecMulr (c : CoreNo) (s : State) : Out1 := .next (s.attemptVec c.val 0x11)
def execVecNormr (c : CoreNo) (s : State) : Out1 := .next (s.attemptVec c.val 0x12)
def execVecMulc (c : CoreNo) (s : State) : Out1 := .next (s.attemptVec c.val 0x13)
def execVecAddc (c : CoreNo) (s : State) : Out1 := .next (s.attemptVec c.val 0x14)
def execVecExpsubr (c : CoreNo) (s : State) : Out1 := .next (s.attemptVec c.val 0x15)
def execVecDivr (c : CoreNo) (s : State) : Out1 := .next (s.attemptVec c.val 0x16)
/-- FUNC; an uncorrectable error of the table store while it evaluates fails the slot, and the cue keeps what it read (R127, R160). -/
def execVecFunc (c : CueStore) (s : State) : Out1 :=
  let x := s.core c.core.val
  let t := s.attemptVec c.core.val 0x20
  let k := bitsOf (vecImm x.cueAt) 3 0
  let ran := isVec 0x20 x.cueAt && x.slotValid k && decide (x.vec.jobs.length < (t.core c.core.val).vec.jobs.length)
  .next (if c.storeError && ran then t.storeFails c.core.val k else t)
def execVecDeriv (c : CoreNo) (s : State) : Out1 := .next (s.attemptVec c.val 0x21)
def execVecPermute (c : CoreNo) (s : State) : Out1 := .next (s.attemptVec c.val 0x30)
def execVecShuffle (c : CoreNo) (s : State) : Out1 := .next (s.attemptVec c.val 0x31)
def execVecPackEven (c : CoreNo) (s : State) : Out1 := .next (s.attemptVec c.val 0x32)
def execVecPackOdd (c : CoreNo) (s : State) : Out1 := .next (s.attemptVec c.val 0x33)
def execVecUnpackLo (c : CoreNo) (s : State) : Out1 := .next (s.attemptVec c.val 0x34)
def execVecUnpackHi (c : CoreNo) (s : State) : Out1 := .next (s.attemptVec c.val 0x35)
def execVecIdxLoad (c : CoreNo) (s : State) : Out1 := .next (s.attemptVec c.val 0x36)
def execVecFreqLoad (c : CoreNo) (s : State) : Out1 := .next (s.attemptVec c.val 0x37)
def execVecRsum (c : CoreNo) (s : State) : Out1 := .next (s.attemptVec c.val 0x40)
def execVecRsumsq (c : CoreNo) (s : State) : Out1 := .next (s.attemptVec c.val 0x41)
def execVecRmax (c : CoreNo) (s : State) : Out1 := .next (s.attemptVec c.val 0x42)
def execVecRmin (c : CoreNo) (s : State) : Out1 := .next (s.attemptVec c.val 0x43)
def execVecRamax (c : CoreNo) (s : State) : Out1 := .next (s.attemptVec c.val 0x44)
def execVecRdot (c : CoreNo) (s : State) : Out1 := .next (s.attemptVec c.val 0x45)
def execVecRstats (c : CoreNo) (s : State) : Out1 := .next (s.attemptVec c.val 0x46)
def execVecRrms (c : CoreNo) (s : State) : Out1 := .next (s.attemptVec c.val 0x47)
def execVecMask (c : CoreNo) (s : State) : Out1 := .next (s.attemptVec c.val 0x50)
def execVecRotary (c : CoreNo) (s : State) : Out1 := .next (s.attemptVec c.val 0x51)
def execVecTopk (c : CoreNo) (s : State) : Out1 := .next (s.attemptVec c.val 0x60)
def execVecSplit (c : CoreNo) (s : State) : Out1 := .next (s.attemptVec c.val 0x70)
def execVecJoin (c : CoreNo) (s : State) : Out1 := .next (s.attemptVec c.val 0x71)

/-! ## Registers (unit code 0x400 + c, R164) -/

/-- Cues in the queue behind the one in progress. -/
def VecEng.queued (v : VecEng) : Nat := v.jobs.length - 1
/-- The status word. -/
def VecEng.word0 (v : VecEng) : Nat :=
  pack [(0, 1, bit (!v.jobs.isEmpty)), (8, 8, ((v.jobs.head?.map (fun j => vecOp j.word)).getD 0)), (16, 3, v.queued)]
def VecEng.idxWord (v : VecEng) (m : Nat) : Nat := ofLe ((List.range 8).map (fun k => Tab.get 0 v.idx (8 * m + k)))
def VecEng.freqWord (v : VecEng) (m : Nat) : Nat :=
  pack [(0, 32, (Tab.get 0 v.freq (2 * m)).toNat), (32, 32, (Tab.get 0 v.freq (2 * m + 1)).toNat)]

end Sys2Proof.Machine
end

