-- ==== Sys2Proof/Machine/Fabric.lean ====
section
/-! DEFINITION. The Mioder fabric from the requester's side and the service of memory: the Accession table, associations, packets
sent, versioned reads, atomics and adds (R165 to R174, R243, R304 to R322, R331).
Log entries with the readings and choices that are the model's: 34, 44, 45, 46, 48. -/

namespace Sys2Proof.Machine

/-! ## LINK notices (R331) -/

/-- What a LINK notice reports. -/
structure LinkInfo where
  event : Nat
  port  : Nat := 0
  sub   : Nat := 0
  lane  : Nat := 0x3F
  peer  : Nat := 0
  assoc : Nat := 0
  entry : Nat := 0
  count : Nat := 0
  status : Status := .ok
deriving DecidableEq, Repr

/-- A LINK notice to queue 0 and the queue LINK_NQ names (R331). -/
def State.link (s : State) (i : LinkInfo) : State :=
  s.raise [0, s.mio.linkNq.toNat] kLink .device i.status 0
    (payload32 [(0, 8, i.event), (8, 2, i.port), (10, 3, i.sub), (13, 6, i.lane), (32, 16, i.peer), (48, 14, i.assoc),
      (64, 15, i.entry), (128, 64, i.count)])

/-! ## The Accession table (R320 to R322) -/

/-- An entry that is not EMPTY covers an address. -/
def AccEntry.covers (e : AccEntry) (a : Nat) : Bool :=
  e.state != .empty && decide (e.base.toNat ≤ a ∧ a < e.base.toNat + 2 ^ e.sizeLog.toNat)

/-- The entry that covers an address (R321). -/
def State.accFind (s : State) (a : Nat) : Option (Nat × AccEntry) := s.mio.accession.find? (fun (_, e) => e.covers a)

/-- The UP association with a device. -/
def State.upAssoc (s : State) (dev : Nat) : Option Nat :=
  (s.mio.assocs.find? (fun (_, a) => decide (a.state = .up) && a.peer.toNat == dev)).map (·.1)

/-- Permission bits of an operation (R320). -/
def permRead : Nat := 0
def permWrite : Nat := 1
def permAdd : Nat := 2
def permAtomic : Nat := 3

/-- Where an access goes: memory of this device, another device over an association, nowhere, or held by a migration. -/
inductive Place where
  | here (addr : Nat)
  | far (assoc : Nat) (fwd : Bool) (target : W64)
  | refused (st : Status)
  | wait
deriving DecidableEq, Repr

/-- The entry of an active migration. -/
def State.migrating (s : State) (e : Nat) : Option Migration := s.mio.migration.filter (fun m => m.entry == e)

/-- A request resolved by an entry, permissions already checked (R321, R322, R323). -/
def State.resolved (s : State) (k : Nat) (e : AccEntry) (a : Nat) : Place :=
  if (s.migrating k).any (·.holding) then .wait
  else
    let t := e.targetAddr.toNat + (a - e.base.toNat)
    if e.targetDev.toNat = s.mio.deviceNumber.toNat then .here t
    else match s.upAssoc e.targetDev.toNat with
      | none => .refused .gone
      | some x => .far x true (BitVec.ofNat 64 (e.targetDev.toNat * 2 ^ 48 + t))

/-- A fabric address homed here, as a local requester or a peer with a KEY_CLASS asks for it (R321). -/
def State.resolve (s : State) (remote : Option (BitVec 16)) (need a n : Nat) : Place :=
  match s.accFind a with
  | none => .refused .gone
  | some (k, e) =>
    if e.base.toNat + 2 ^ e.sizeLog.toNat < a + n then .refused .badParam
    else
      let perm := if remote.isSome then e.permRemote else e.permLocal
      if !bitOf perm.toNat need then .refused .denied
      else if remote.any (fun kc => e.assocKey != 0 && e.assocKey != kc) then .refused .denied
      else s.resolved k e a

/-- Where an access of a unit of this device goes (R166, R321). -/
def State.place (s : State) (fabric : Bool) (need : Nat) (addr : W64) (n : Nat) : Place :=
  let a := fld addr 47 0
  let h := fld addr 63 48
  if !fabric then (if h = 0 then .here a else .refused .badParam)
  else if h = s.mio.deviceNumber.toNat then s.resolve none need a n
  else match s.upAssoc h with
    | none => .refused .gone
    | some x => .far x false addr

/-- A registered working buffer on another device that a packet to an address would touch (R235). -/
def State.farWindow (s : State) (t : W64) (n : Nat) : Bool :=
  s.windows.any (fun (_, w) => w.used && w.far && decide (w.base < t.toNat + n ∧ t.toNat < w.base + 2 * w.size))

/-- A place as a requester finds it that is no Conservator: a working buffer on another device may only be read (R235). -/
def State.writeBar (s : State) (need n : Nat) (p : Place) : Place :=
  match p with
  | .far k fwd t => if need ≠ permRead ∧ s.farWindow t n then .refused .denied else .far k fwd t
  | .here a => .here a
  | .refused e => .refused e
  | .wait => .wait

/-- Where a stream's or message's access goes. -/
def State.placeOf (s : State) (fabric : Bool) (need : Nat) (addr : W64) (n : Nat) : Place := s.writeBar need n (s.place fabric need addr n)

/-- A failed read of a place of this device, counted where it failed (R224, R444). -/
def State.placeCount (s : State) (fabric : Bool) (need : Nat) (addr : W64) (n : Nat) (e : Status) : State :=
  match s.place fabric need addr n with
  | .here a => s.countRead a n e
  | .far _ _ _ => s
  | .refused _ => s
  | .wait => s

/-- A read of another device's memory: its bytes, or the status it ends with, both open (the other device is not in the model). -/
def State.remote (s : State) (a n : Nat) : Except Status (List Byte) :=
  match nth Status.ok [Status.ok, .gone, .denied, .reset, .dark, .integrity, .versionGone, .badParam] (Config.remoteEnd a s.freeCtr % 8) with
  | .ok => .ok ((List.range n).map (fun i => Config.remoteByte a i s.freeCtr))
  | e => .error e

/-- A write, add or atomic through a MIGRATING entry marks its granules dirty (R323). -/
def State.markDirty (s : State) (a n : Nat) : State :=
  match s.mio.migration with
  | none => s
  | some m =>
    let e : AccEntry := Tab.get {} s.mio.accession m.entry
    if !e.covers a || n = 0 then s
    else
      let lo := (a - e.base.toNat) / migGranule
      let hi := (a + n - 1 - e.base.toNat) / migGranule
      let gs := (List.range (hi + 1 - lo)).map (lo + ·)
      { s with mio := { s.mio with migration := some { m with dirty := dedup (m.dirty ++ gs) } } }

/-! ## Packets sent (R309, R311 to R313) -/

/-- A path can carry new packets (R313, R316). -/
def State.pathUsable (s : State) (p : Path) : Bool :=
  !p.suspect && !p.down && bitOf (s.port p.port).linkUp.toNat p.sub

/-- Bytes in flight on a path. -/
def Assoc.inFlight (a : Assoc) (k : Nat) : Nat :=
  ((a.reqs.filter (fun r => r.path == k && !r.acked && !r.queued)).map (fun r => r.out.data.length)).foldl (· + ·) 0

/-- Free window of a path (R314). -/
def Assoc.freeWindow (a : Assoc) (k : Nat) (p : Path) : Nat := p.window - a.inFlight k

/-- The better of two candidate paths: more free window, ties to the one that comes first after the last used (R313). -/
def betterPath (last : Nat) (x y : Nat × Nat) : Nat × Nat :=
  let rank := fun k => (k + 64 - (last + 1) % 64) % 64
  if x.2 < y.2 then y else if y.2 < x.2 then x else if rank y.1 < rank x.1 then y else x

/-- The path a new packet of n bytes takes; none where no usable path has room for it in its window. -/
def State.choosePath (s : State) (a : Assoc) (n : Nat) : Option Nat :=
  match (a.paths.filter (fun (k, p) => s.pathUsable p && decide (n ≤ a.freeWindow k p))).map (fun (k, p) => (k, a.freeWindow k p)) with
  | [] => none
  | c :: t => some (t.foldl (betterPath a.lastPath) c).1

/-- Lowest PSN this side has sent and not seen acknowledged. -/
def Assoc.txCum (a : Assoc) : BitVec 32 :=
  match (a.reqs.filter (fun r => !r.acked)).head? with
  | some r => r.psn
  | none => a.txPsn

/-- What a packet puts on the wire. -/
def wire (a : Nat) (r : PendReq) (path : Nat) : Out :=
  match r.out.status with
  | none => .mioReq a r.psn r.reqId path r.out
  | some st => .mioResp a r.psn r.reqId st r.out.gen r.out.data

/-- A packet leaves by a path, and is counted at its port (R303). -/
def State.pktOut (s : State) (k p : Nat) (o : Out) : State :=
  let s := s.modPort (Tab.get {} (s.assoc k).paths p : Path).port (fun x => { x with txFrames := x.txFrames + 1 })
  { s with out := s.out ++ [o] }

/-- 4,096 PSNs are outstanding (R311). -/
def Assoc.full (a : Assoc) : Bool := decide (4096 ≤ (a.txPsn - a.txCum).toNat)

/-- Everything an association keeps: packets with a PSN, and those still without one. -/
def Assoc.kept (a : Assoc) : List PendReq := a.reqs ++ a.backlog

/-- A packet takes the next PSN: sent on a path, or queued where no path is free (R311, R313). -/
def State.sendNew (s : State) (k : Nat) (r : PendReq) : State :=
  let a := s.assoc k
  let r := { r with psn := a.txPsn }
  match s.choosePath a r.out.data.length with
  | none => s.setAssoc k { a with txPsn := a.txPsn + 1, reqs := a.reqs ++ [{ r with queued := true }] }
  | some p =>
    (s.setAssoc k { a with
      txPsn := a.txPsn + 1, txCounter := a.txCounter + 1, lastPath := p
      reqs := a.reqs ++ [{ r with path := p, resend := true, sentAt := s.now }] }).pktOut k p (wire k r p)

/-- A packet handed to an association: it waits without a PSN while none may be held (R311). -/
def State.packet (s : State) (k : Nat) (r : PendReq) : State :=
  let a := s.assoc k
  if a.full || !a.backlog.isEmpty then s.setAssoc k { a with backlog := a.backlog ++ [r] } else s.sendNew k r

/-- A new request with a REQ_ID of its own (R307). -/
def State.request (s : State) (k : Nat) (o : MioOut) (p : Purpose) : State :=
  let id := (s.assoc k).nextReq
  (s.modAssoc k (fun a => { a with nextReq := a.nextReq + 1 })).packet k
    { psn := 0, reqId := id, path := 0, out := o, purpose := p, gen := o.gen }

/-- Parts of a long message under one REQ_ID (R310). -/
def State.parts (s : State) (k : Nat) (id : BitVec 32) (o : MioOut) (p : Purpose) (last : Nat) : Nat → List (List Byte) → State
  | _, [] => s
  | i, b :: t =>
    let o' := { o with
      data := b, length := b.length, aux := o.aux ||| BitVec.ofNat 48 (i * 2 ^ 16 + last * 2 ^ 20) }
    State.parts (s.packet k { psn := 0, reqId := id, path := 0, out := o', purpose := p, gen := o.gen }) k id o p last (i + 1) t

/-- The packet limit of an association (R304). -/
def Assoc.limit (a : Assoc) : Nat := if a.mtu1k then 1024 else 4096

/-- The packet limit toward an address of a unit of this device (R304, R309). -/
def State.limitAt (s : State) (fabric : Bool) (addr : W64) : Nat :=
  let h := fld addr 63 48
  let dev := if !fabric then s.mio.deviceNumber.toNat
    else if h = s.mio.deviceNumber.toNat then ((s.accFind (fld addr 47 0)).map (fun (_, e) => e.targetDev.toNat)).getD h
    else h
  match s.upAssoc dev with
  | some k => (s.assoc k).limit
  | none => 4096

/-- A message request, in parts where it exceeds the packet limit (R310). -/
def State.requestMsg (s : State) (k : Nat) (o : MioOut) (p : Purpose) : State :=
  let id := (s.assoc k).nextReq
  let bs := chunksOf 8 (s.assoc k).limit o.data
  (s.modAssoc k (fun a => { a with nextReq := a.nextReq + 1 })).parts k id o p (bs.length - 1) 0 bs

/-- A response (R308), while the association is UP: the status, the generation of the unit that served, its data. -/
def State.respond (s : State) (k : Nat) (reqId : BitVec 32) (op : BitVec 8) (st : Status) (gen : BitVec 32) (data : List Byte) : State :=
  if (s.assoc k).state ≠ .up then s
  else s.packet k {
    psn := 0, reqId := reqId, path := 0, out := {
    op := op, target := 0, gen := gen, status := some st, data := data,
    length := data.length }, purpose := .response, gen := gen }

/-! ## Memory served (R172, R198, R206, R243) -/

/-- A versioned read's place (R235, R243): the working buffer that holds version v. -/
def State.versioned (s : State) (a n : Nat) (v : BitVec 32) : Except Status Nat :=
  match s.windowAt a n with
  | none => .ok a
  | some (_, w) =>
    if a < w.base ∨ w.base + 2 * w.size < a + n ∨ (a - w.base) / w.size ≠ (a + n - 1 - w.base) / w.size then .error .badParam
    else
      let ver : BitVec 32 := BitVec.ofNat 32 (s.num w.record 4)
      let prev := bitOf (s.num (w.record + 4) 4) 1
      if v = ver ∨ (v = ver - 1 ∧ prev) then .ok (w.base + v.toNat % 2 * w.size + (a - w.base) % w.size)
      else .error .versionGone

/-- A get of device-local memory, versioned where it names a working buffer. -/
def State.serveGet (s : State) (w : Asker) (a n : Nat) (v : BitVec 32) : Except Status (List Byte) :=
  match s.versioned a n v with
  | .error e => .error e
  | .ok a => s.readMem w a n

/-- A get that failed: its read is counted where it was served (R224, R444). -/
def State.countGet (s : State) (a n : Nat) (v : BitVec 32) (e : Status) : State :=
  match s.versioned a n v with
  | .error _ => s
  | .ok b => s.countRead b n e

/-- FP32 elements added one by one at a Gallery address (R206). -/
def State.addAll (s : State) (a : Nat) : List Nat → State
  | [] => s
  | v :: t => State.addAll (s.lineAdd a v) (a + 4) t

/-- FP32 words of bytes. -/
def words32 : Nat → List Byte → List Nat
  | 0, _ => []
  | n + 1, b => if b.isEmpty then [] else ofLe (b.take 4) :: words32 n (b.drop 4)

/-- An add of FP32 elements: only into a Gallery, poisoned lines refused (R168, R174, R204). -/
def State.serveAdd (s : State) (w : Asker) (a : Nat) (b : List Byte) : Except Status State :=
  if b.isEmpty then .ok s
  else if spanRegion a b.length ≠ some .gallery then .error .badParam
  else match s.writeStatus w a b.length with
    | some e => .error e
    | none =>
      if !(s.galleryPoison a b.length).isEmpty then .error .integrity
      else .ok (s.addAll a (words32 b.length b))

/-- One atomic on a word: its new value (R172). -/
def atomicNew (op : Nat) (old operand compare : W64) : W64 :=
  if op = 0 then old + operand
  else if op = 1 then operand
  else if old = compare then operand else old

/-- An atomic on an 8-byte word of memory: the previous value (R172). -/
def State.serveAtomic (s : State) (w : Asker) (op a : Nat) (operand compare : W64) : Except Status (W64 × State) :=
  match s.readMem w a 8 with
  | .error e => .error e
  | .ok b =>
    let old : W64 := BitVec.ofNat 64 (ofLe b)
    match s.writeMem w a (leBytes 8 (atomicNew op old operand compare).toNat) with
    | .error e => .error e
    | .ok s => .ok (old, s)

/-- A write the device itself makes to a fabric address (R194, R386), held by a migration or the door of a Core under takeover. -/
def State.deviceWrite (s : State) (addr : W64) (b : List Byte) : State :=
  let hold := { s with mio := { s.mio with heldWrites := s.mio.heldWrites ++ [(addr, b)] } }
  match s.place true permWrite addr b.length with
  | .here a =>
    if (s.heldBy a b.length).isSome then hold
    else match s.writeMem .unit a b with
    | .ok s => s.markDirty (fld addr 47 0) b.length
    | .error e => s.countWrite a b.length e
  | .far k fwd t =>
    (s.request k { op := 0x01, target := t, fwd := fwd, gen := s.cur.deviceGen, length := b.length, data := b } .token).markDirty
      (fld addr 47 0) b.length
  | .refused _ => s
  | .wait => hold

/-- Writes made again. -/
def State.deviceWrites (s : State) : List (W64 × List Byte) → State
  | [] => s
  | (a, b) :: t => State.deviceWrites (s.deviceWrite a b) t

/-- The writes that were held are made again. -/
def State.retryWrites (s : State) : State :=
  ({ s with mio := { s.mio with heldWrites := [] } }).deviceWrites s.mio.heldWrites

/-- A write to a fabric address would be held. -/
def State.writeHeld (s : State) (addr : W64) (n : Nat) : Bool :=
  match s.place true permWrite addr n with
  | .here a => (s.heldBy a n).isSome
  | .wait => true
  | .far _ _ _ => false
  | .refused _ => false

/-- NQ_ANNOUNCE_WRITE: the latest NQ_TAIL to the announce address after records are published; a write that would be held stays due, so
that the latest value is the one written (R194). -/
def execNqAnnounceWrite (q : QueueNo) (s : State) : Out1 :=
  let n := s.nq q.val
  if n.announceDue ∧ n.announce ≠ 0 ∧ !s.activating ∧ !s.writeHeld n.announce 8 then
    .next (((s.setNq q.val { n with announceDue := false }).deviceWrite n.announce (leBytes 8 n.tail.toNat)))
  else .next s

/-! ## Units named: expansions and token signals (R24 to R30, R244) -/

/-- What a unit name expands to on this device: leaf Cores, names on other devices, branches that reach an EMPTY entry. -/
structure Expansion where
  leaves : List Nat := []
  far    : List UnitName := []
  gone   : Nat := 0
deriving DecidableEq, Repr

def Expansion.join (a b : Expansion) : Expansion := { leaves := a.leaves ++ b.leaves, far := a.far ++ b.far, gone := a.gone + b.gone }

/-- A name expanded through at most `fuel` levels of Ensembles of this device; a name that is no unit reaches nothing. -/
def State.expandN (s : State) : Nat → UnitName → Expansion
  | 0, _ => {}
  | fuel + 1, u =>
    if !s.isHere u then { far := [u] }
    else match nameRef u with
      | none => {}
      | some (.ensemble e) =>
        let x := s.ensemble e
        if !x.defined then { gone := 1 }
        else x.members.foldl (fun acc m => acc.join (State.expandN s fuel m)) {}
      | some r => { leaves := r.leaves }

/-- A name expanded; each leaf is reached once (R28). -/
def State.expand (s : State) (u : UnitName) : Expansion :=
  let x := s.expandN 4097 u
  { x with leaves := dedup x.leaves }

/-- Token signals at leaves. -/
def State.tokenLeaves (s : State) (t : Nat) : List Nat → State
  | [] => s
  | c :: r => State.tokenLeaves (s.tokenSignal c t) t r

/-- TOKEN requests to members on other devices; a branch without an UP association, or at its 256th boundary, is lost (R26, R244). -/
def State.tokenFar (s : State) (t bounds : Nat) : List UnitName → State
  | [] => s
  | u :: r =>
    let s := match s.upAssoc (nameDevice u) with
      | none => s
      | some k =>
        if 255 ≤ bounds then s
        else s.request k {
                           op := 0x06, target := u.setWidth 64, gen := s.cur.deviceGen,
                           aux := BitVec.ofNat 48 (t + (bounds + 1) * 2 ^ 32) } .token
    State.tokenFar s t bounds r

/-- A token raised at every leaf of a unit (R244, R282). -/
def State.signalUnit (s : State) (u : UnitName) (t bounds : Nat) : State :=
  let x := s.expand u
  (s.tokenLeaves t x.leaves).tokenFar t bounds x.far

end Sys2Proof.Machine
end

