-- ==== Sys2Proof/Machine/Messages.lean ====
section
/-! DEFINITION. Messages: SEND, RECV, COMPL, credit, rings, completion records (R28, R29, R106 to R111).
Log entries with the readings and choices that are the model's: 27, 32, 33. -/

namespace Sys2Proof.Machine

/-! ## Sends in flight (R29, R111) -/

/-- A send of a Core changed. -/
def Core.modSend (x : Core) (seq : BitVec 16) (f : Send → Send) : Core :=
  { x with msg := { x.msg with sends := x.msg.sends.map (fun y => if y.seq = seq then f y else y) } }

/-- Leaves that accepted or refused, and what a branch came to. -/
structure Tally where
  accepted : Nat := 0
  refused  : Nat := 0
  boundary : Bool := false
  gone     : Bool := false
  reset    : Bool := false
  gen      : BitVec 32 := 0
deriving DecidableEq, Repr

/-- An answer to a send: one fewer is awaited. -/
def Send.answer (y : Send) (t : Tally) : Send :=
  { y with
    waiting := y.waiting - 1, accepted := y.accepted + t.accepted, refused := y.refused + t.refused,
    anyBoundary := y.anyBoundary || t.boundary, anyGone := y.anyGone || t.gone, anyReset := y.anyReset || t.reset,
    destGen := if y.unicast then t.gen else 0 }

/-- A landed message's leaf answered (R310, R317). -/
def Landing.answer (y : Landing) (t : Tally) : Landing :=
  { y with
    waiting := y.waiting - 1, accepted := y.accepted + t.accepted, refused := y.refused + t.refused,
    anyBoundary := y.anyBoundary || t.boundary, anyGone := y.anyGone || t.gone, anyReset := y.anyReset || t.reset }

/-- Status of a completion (R29). -/
def outcome (refused : Nat) (boundary gone reset : Bool) : Status :=
  if refused = 0 ∧ !boundary ∧ !gone then .ok
  else if boundary then .badParam
  else if gone then .gone
  else if reset then .reset
  else .dark

/-- The counts a MSG response carries (R308). -/
def countBytes (accepted refused : Nat) : List Byte := leBytes 4 accepted ++ leBytes 4 refused

/-- Landed messages whose leaves have all answered are answered to their senders (R310). -/
def State.answerLandings (s : State) : List Landing → State
  | [] => s
  | l :: t =>
    let st := outcome l.refused l.anyBoundary l.anyGone l.anyReset
    let gen := match nameRef l.target with
      | some r => s.genOf r
      | none => s.cur.deviceGen
    State.answerLandings (s.respond l.assoc l.reqId 0x05 st gen (countBytes l.accepted l.refused)) t

/-- Landings that have been delivered and await no leaf leave the store. -/
def State.settleLandings (s : State) : State :=
  let settled := fun (l : Landing) => l.delivered && l.waiting == 0
  let done := s.mio.landing.filter settled
  ({ s with mio := { s.mio with landing := s.mio.landing.filter (fun l => !settled l) } }).answerLandings done

/-- The sender of a message request is answered (R29, R310). -/
def State.answerMsg (s : State) (src : MsgSrc) (t : Tally) : State :=
  match src with
  | .localCore c seq => s.modCore c (fun x => x.modSend seq (fun y => y.answer t))
  | .remote a _ id _ =>
    ({ s with
      mio := { s.mio with
      landing := s.mio.landing.map (fun (l : Landing) =>
      if l.assoc = a ∧ l.reqId = id ∧ l.delivered then l.answer t else l) } }).settleLandings

/-! ## Delivery (R28, R108) -/

/-- A message request reaches a leaf: refused by a dark Core or a Stage door, else it waits for credit (R28, R108, R432). -/
def State.deliver (s : State) (m : MsgReq) (c : Nat) : State :=
  let x := s.core c
  if x.inReset then (s.doorCount (stageOfCore c)).answerMsg m.src { refused := 1, reset := true, gen := x.resetGen }
  else if x.dark then s.answerMsg m.src { refused := 1, gen := x.resetGen }
  else s.modCore c (fun x => { x with msg := { x.msg with waiting := Tab.modify [] x.msg.waiting m.channel (· ++ [m]) } })

/-- A request delivered to several leaves. -/
def State.deliverAll (s : State) (m : MsgReq) : List Nat → State
  | [] => s
  | c :: t => State.deliverAll (s.deliver m c) m t

/-- The 16-byte message header (R110). -/
def msgHeader (src : UnitName) (wordsM1 ch : Nat) (multicast : Bool) (gen seq : Nat) : List Byte :=
  leBytes 16 (pack [(0, 32, fld src 31 0), (32, 16, fld src 47 32), (48, 9, wordsM1), (57, 2, ch), (59, 1, bit multicast),
    (64, 32, gen), (96, 16, seq)])

/-- A message as it enters a ring: the header padded to 64 bytes, then the payload (R110). -/
def ringBytes (header payload : List Byte) : List Byte := fitBytes 64 header ++ payload

/-- Names on other devices: a MSG request each, or a refused branch (R26, R29, R308). `bounds` counts boundaries crossed so far.
The association is tested before the 256th boundary (DESIGN CHOICE: log entry 32). -/
def State.msgFar (s : State) (p : Purpose) (gen : BitVec 32) (aux bounds : Nat) (data : List Byte) (ans : State → Tally → State) :
    List UnitName → State
  | [] => s
  | u :: r =>
    let s := match s.upAssoc (nameDevice u) with
      | none => ans s { refused := 1, gone := true }
      | some k =>
        if 255 ≤ bounds then ans s { refused := 1, boundary := true }
        else s.requestMsg k {
                              op := 0x05, target := u.setWidth 64, gen := gen, data := data,
                              aux := BitVec.ofNat 48 (aux + (bounds + 1) * 2 ^ 32) } p
    State.msgFar s p gen aux bounds data ans r

/-- EMPTY branches refused. -/
def State.msgGone (s : State) (ans : State → Tally → State) : Nat → State
  | 0 => s
  | n + 1 => State.msgGone (ans s { refused := 1, gone := true }) ans n

/-! ## SEND (R108, R110) -/

/-- Pieces of a put: place in the data and length, none crossing a boundary of `lim` bytes of the target (R309). -/
def putPieces : Nat → Nat → Nat → Nat → Nat → List (Nat × Nat)
  | 0, _, _, _, _ => []
  | fuel + 1, lim, a, off, n =>
    if n = 0 then []
    else
      let k := min n (lim - a % lim)
      (off, k) :: putPieces fuel lim (a + k) (off + k) (n - k)

/-- A send's answer with a status of its own, the first that is not OK kept. -/
def Send.note (y : Send) (st : Status) : Send :=
  { y with direct := if y.direct = none ∧ st ≠ .ok then some st else y.direct }

/-- A message to a fabric address: a put (R108); pieces that a migration or the door of a Core under takeover holds wait (R323, R428). -/
def State.sendPut (s : State) (c : Nat) (seq : BitVec 16) : List (W64 × List Byte) → State
  | [] => s
  | (a, b) :: t =>
    let n := b.length
    let mod := fun (s : State) (f : Send → Send) => s.modCore c (fun x => x.modSend seq f)
    let s := match s.placeOf true permWrite a n with
      | .here l =>
        if (s.heldBy l n).isSome then mod s (fun y => { y with puts := y.puts ++ [(a, b)] })
        else match s.writeMem .stream l b with
        | .ok s => s.markDirty (fld a 47 0) n
        | .error e => mod (s.countWrite l b.length e) (fun y => y.note e)
      | .far k fwd u =>
        ((mod s (fun y => { y with waiting := y.waiting + 1 })).request k
          { op := 0x01, target := u, fwd := fwd, gen := (s.core c).resetGen, length := n, data := b } (.send c seq)).markDirty (fld a 47 0) n
      | .refused e => mod s (fun y => y.note e)
      | .wait => mod s (fun y => { y with puts := y.puts ++ [(a, b)] })
    State.sendPut s c seq t

/-- Pieces of a message's put. -/
def msgPieces (lim : Nat) (addr : W64) (data : List Byte) : List (W64 × List Byte) :=
  (putPieces 9 lim addr.toNat 0 data.length).map (fun (off, n) => (addr + BitVec.ofNat 64 off, (data.drop off).take n))

/-- A message to a unit (R28, R108). -/
def State.sendUnit (s : State) (c : Nat) (seq : BitVec 16) (u : UnitName) (q : W128) (payload : List Byte) : State :=
  let src := s.nameOf (.core c)
  let gen := (s.core c).resetGen
  let ch := fld q 42 41
  let here := s.isHere u
  let ref := nameRef u
  let x := s.expand u
  let multi := match ref with
    | some (.core _) => false
    | _ => true
  if ref.isNone then s.modCore c (fun x => x.modSend seq (fun y => y.note .badParam))
  else
    let header := msgHeader src (fld q 40 32) ch multi gen.toNat seq.toNat
    let m : MsgReq := {
                        src := .localCore c seq, channel := ch, rtoken := if fld q 43 43 = 1 then some (fld q 49 44) else none,
                        bytes := ringBytes header payload }
    let s := s.modCore c (fun y => y.modSend seq (fun z => { z with
      waiting := x.leaves.length + x.far.length + x.gone, unicast := !multi }))
    let ans := fun (s : State) (t : Tally) => s.answerMsg (.localCore c seq) t
    let s := if here && x.leaves.isEmpty && x.far.isEmpty && x.gone == 0 then s else s.deliverAll m x.leaves
    let aux := ch + bit (fld q 43 43 == 1) * 4 + fld q 49 44 * 8
    (s.msgFar (.send c seq) gen aux 0 (header ++ payload) ans x.far).msgGone ans x.gone

/-- A double error that a read of a Core's Wings meets (R201). -/
def eccHits (e : WingsEcc) (c off n : Nat) : Bool :=
  match e with
  | .double d o => d.val == c && decide (off ≤ o ∧ o < off + n)
  | .clean => false
  | .corrected _ => false

/-- Single errors corrected in a read of a Core's Wings (R201). -/
def Core.corrects (x : Core) : WingsEcc → Core
  | .corrected n => { x with wingsCorrected := satInc x.wingsCorrected n }
  | .clean => x
  | .double _ _ => x

/-- What a SEND does as it issues; a double error in its payload ends it with INTEGRITY (R201). -/
def State.issueSend (s : State) (c : Nat) (q : W128) (pk : Peek) (ecc : WingsEcc) : State :=
  let payload := s.bytes (wingsOf c + pk.byteVal) (8 * (fld q 40 32 + 1))
  let x := s.core c
  let seq := x.msg.sendSeq
  let record := fld q 51 51 == 1
  let (seen, x) := x.effect (2 * seq.toNat + 2)
  let cue : CueTag := { num := s.freeCtr, cls := 5, signal := cueSignal q }
  let base : Send := { cue := cue, seq := seq, record := record, unicast := false, waiting := 0 }
  let y := match seen with
    | none => base
    | some e => { base with
        direct := some (e.statusOr s.freeCtr), accepted := (nth 0 e.words 0).toNat, refused := (nth 0 e.words 1).toNat,
        destGen := (nth (0 : W64) e.words 2).setWidth 32 }
  let s := (s.setCore c { x with
    msg := { x.msg with
    sendSeq := seq + 1, sends := x.msg.sends ++ [y], reserved := x.msg.reserved + bit record } }).fresh
  let s := s.modCore c (fun x => x.corrects ecc)
  if seen.isSome then s
  else if eccHits ecc c pk.byteVal payload.length then s.modCore c (fun x => x.modSend seq (fun y => y.note .integrity))
  else if fld q 50 50 = 1 then
    let a : W64 := BitVec.ofNat 64 (fld q 127 64)
    s.sendPut c seq (msgPieces (s.limitAt true a) a payload)
  else s.sendUnit c seq (BitVec.ofNat 48 (fld q 111 64)) q payload

/-- SEND. -/
def execSend (c : CueEcc) (s : State) : Out1 :=
  .next (s.attempt c.core.val (isCue 5 0) (fun s q pk => s.issueSend c.core.val q pk c.ecc))

/-- Status of a send that has been answered everywhere (R29, R108). -/
def Send.status (y : Send) : Status := y.direct.getD (outcome y.refused y.anyBoundary y.anyGone y.anyReset)

/-- Pieces that were held, tried again. -/
def State.retryPuts (s : State) (c : Nat) (seq : BitVec 16) : State :=
  match (s.core c).msg.sends.find? (fun y => y.seq == seq) with
  | none => s
  | some y => (s.modCore c (fun x => x.modSend seq (fun y => { y with puts := [] }))).sendPut c seq y.puts

/-- SEND_COMPLETE: status, counts, record, flag 6, signal (R29, R111). -/
def execSendComplete (c : CoreNo) (seq : BitVec 16) (s : State) : Out1 :=
  let s := s.retryPuts c.val seq
  let x := s.core c.val
  match x.msg.sends.find? (fun y => y.seq == seq) with
  | none => .next s
  | some y =>
    if y.waiting ≠ 0 ∨ !y.puts.isEmpty ∨ !x.works then .next s
    else
      let st := y.status
      let r : ComplRec := { status := st, seq := seq, refused := BitVec.ofNat 32 y.refused, accepted := BitVec.ofNat 32 y.accepted, destGen := y.destGen }
      let x := { x with
        msg := { x.msg with
        sends := x.msg.sends.erase y
        reserved := x.msg.reserved - bit y.record
        compl := if y.record then x.msg.compl ++ [r] else x.msg.compl } }
      let x := x.effectEnds (2 * seq.toNat + 2) st [BitVec.ofNat 64 y.accepted, BitVec.ofNat 64 y.refused, y.destGen.setWidth 64]
      let x := x.modP (fun p => p.flagIf (decide (st ≠ .ok)) flagSend)
      .next ((s.setCore c.val x).signal c.val y.cue.signal)

/-! ## Rings (R108 to R110) -/

/-- Granules of a ring, and those in use. -/
def Ring.granules (r : Ring) : Nat := 2 ^ r.size.toNat
def Ring.used (r : Ring) : Nat := (r.tail - r.head).toNat

/-- A ring of a Core changed. -/
def Core.modRing (x : Core) (ch : Nat) (f : Ring → Ring) : Core :=
  { x with msg := { x.msg with rings := Tab.modify {} x.msg.rings ch f } }

/-- Wings address of granule k of a ring, counted from any start. -/
def ringAddr (c : Nat) (r : Ring) (k : Nat) : Nat := wingsOf c + (r.base.toNat * 512 + k % r.granules * 64) % 0x400000

/-- Bytes written into a ring from granule k on. -/
def State.ringWrite (s : State) (c : Nat) (r : Ring) : Nat → List (List Byte) → State
  | _, [] => s
  | k, g :: t => State.ringWrite (s.poke (ringAddr c r k) g) c r (k + 1) t

/-- Granules read from a ring. -/
def State.ringRead (s : State) (c : Nat) (r : Ring) : Nat → Nat → List Byte
  | _, 0 => []
  | k, n + 1 => s.bytes (ringAddr c r k) 64 ++ State.ringRead s c r (k + 1) n

/-- MSG_CREDIT_GRANT: the oldest waiting request of a channel gets its granules (R106, R108). -/
def execMsgCreditGrant (c : CoreNo) (ch : Fin 4) (s : State) : Out1 :=
  let x := s.core c.val
  let r := x.ring ch.val
  match Tab.get [] x.msg.waiting ch.val with
  | [] => .next s
  | m :: t =>
    let n := m.granules
    if !x.open || !r.enable || decide (r.granules < r.used + n) || !x.logRoom n then .next s
    else
      let x := { x with
        msg := { x.msg with
        waiting := Tab.set x.msg.waiting ch.val t
        granted := Tab.modify [] x.msg.granted ch.val (· ++ [m]) } }
      .next (s.setCore c.val (x.modRing ch.val (fun r => { r with tail := r.tail + BitVec.ofNat 16 n })))

/-- A message enters a ring: its bytes, its place among the complete ones, its token (R110). -/
def State.enterRing (s : State) (c ch start : Nat) (m : MsgReq) : State :=
  let r := (s.core c).ring ch
  let s := (s.ringWrite c r start (chunksOf m.granules 64 m.bytes)).modCore c (fun x =>
    x.modRing ch (fun r => { r with msgs := r.msgs ++ [m] }))
  match m.rtoken with
  | none => s
  | some t => s.tokenRise c t 1

/-- MSG_COMPLETE_IN_RING: the oldest granted message of a channel is complete, logged and accepted (R106, R110, R29). -/
def execMsgCompleteInRing (c : CoreNo) (ch : Fin 4) (s : State) : Out1 :=
  let x := s.core c.val
  let ms := Tab.get [] x.msg.granted ch.val
  match ms with
  | [] => .next s
  | m :: t =>
    if !x.open then .next s
    else
      let start := ((x.ring ch.val).tail.toNat + 65536 - (ms.map MsgReq.granules).foldl (· + ·) 0) % 65536
      let x := { x with msg := { x.msg with granted := Tab.set x.msg.granted ch.val t }, log := x.log ++ [.msg m] }
      .next (((s.setCore c.val x).enterRing c.val ch.val start m).answerMsg m.src { accepted := 1, gen := x.resetGen })

/-! ## RECV and COMPL (R110, R111) -/

/-- The granule at which the message that a further copy takes begins. -/
def Core.nextStart (x : Core) (ch : Nat) : Nat :=
  ((x.ring ch).head.toNat + ((x.msg.copies.filter (fun y => y.channel == some ch)).map (·.granules)).foldl (· + ·) 0) % 65536

/-- A copy queued at the port. -/
def Core.addCopy (x : Core) (y : RecvCopy) : Core := { x with msg := { x.msg with copies := x.msg.copies ++ [y] } }

/-- RECV. -/
def execRecv (c : CoreNo) (s : State) : Out1 :=
  .next (s.attempt c.val (isCue 5 1) (fun s q pk =>
    let x := s.core c.val
    let ch := fld q 42 41
    match x.nextMsg ch with
    | none => s
    | some m =>
      let b := s.ringRead c.val (x.ring ch) (x.nextStart ch) m.granules
      (s.setCore c.val (x.addCopy {
        cue := { num := s.freeCtr, cls := 5, signal := cueSignal q }, dest := pk.byteVal,
        bytes := b.take 16 ++ ((b.drop 64).take (m.bytes.length - 64)), channel := some ch, granules := m.granules })).fresh))

/-- A completion record as stored (R111). -/
def ComplRec.store (r : ComplRec) : List Byte :=
  leBytes 16 (pack [(0, 16, statusCode r.status), (16, 16, r.seq.toNat), (32, 32, r.refused.toNat), (64, 32, r.accepted.toNat), (96, 32, r.destGen.toNat)])

/-- COMPL. -/
def execCompl (c : CoreNo) (s : State) : Out1 :=
  .next (s.attempt c.val (isCue 5 2) (fun s q pk =>
    let x := s.core c.val
    match (x.msg.compl.drop (x.msg.copies.filter (fun y => y.channel.isNone)).length).head? with
    | none => s
    | some r =>
      (s.setCore c.val (x.addCopy {
        cue := { num := s.freeCtr, cls := 5, signal := cueSignal q }, dest := pk.byteVal, bytes := r.store, channel := none,
        granules := 0 })).fresh))

/-- RECV_COPY_DONE: the copy is written, the granules or the record are free, the cue completes (R90, R110, R111). -/
def execRecvCopyDone (c : CoreNo) (s : State) : Out1 :=
  let x := s.core c.val
  match x.msg.copies with
  | [] => .next s
  | y :: t =>
    if !x.works then .next s
    else
      let x := { x with msg := { x.msg with copies := t } }
      let x := match y.channel with
        | some ch => x.modRing ch (fun r => { r with head := r.head + BitVec.ofNat 16 y.granules, msgs := r.msgs.tail })
        | none => { x with msg := { x.msg with compl := x.msg.compl.tail } }
      .next (((s.setCore c.val x).poke (wingsOf c.val + y.dest) y.bytes).signal c.val y.cue.signal)

end Sys2Proof.Machine
end

