-- ==== Sys2Proof/Machine/Streams.lean ====
section
/-! DEFINITION. The stream engine: descriptors, transfers, handle queues, re-arming (R165 to R184), and the commit of a scene
marker, which releases held inputs (R102, R106).
Log entries with the readings and choices that are the model's: 27, 34. -/

namespace Sys2Proof.Machine

/-! ## Descriptors (R165) -/

/-- A stream descriptor's word, by field. -/
abbrev Desc := BitVec 512

def dOp (d : Desc) : Nat := fld d 3 0
def dLayout (d : Desc) : Nat := fld d 5 4
def dFmt (d : Desc) : Nat := fld d 9 6
def dAxis (d : Desc) : Nat := fld d 10 10
def dFabric (d : Desc) : Bool := fld d 11 11 == 1
def dFabric2 (d : Desc) : Bool := fld d 12 12 == 1
def dUseHandle (d : Desc) : Bool := fld d 13 13 == 1
def dNotify (d : Desc) : Bool := fld d 14 14 == 1
def dNq (d : Desc) : Nat := fld d 20 15
def dAtomic (d : Desc) : Nat := fld d 23 21
def dTag (d : Desc) : Nat := fld d 63 32
def dAddr (d : Desc) : W64 := BitVec.ofNat 64 (fld d 127 64)
def dAddr2 (d : Desc) : W64 := BitVec.ofNat 64 (fld d 191 128)
def dLen0 (d : Desc) : Nat := fld d 223 192
def dCount1 (d : Desc) : Nat := countOf (BitVec.ofNat 16 (fld d 239 224))
def dCount2 (d : Desc) : Nat := countOf (BitVec.ofNat 16 (fld d 255 240))
def dStride1 (d : Desc) : Int := sext 48 (fld d 303 256)
def dStride2 (d : Desc) : Int := sext 48 (fld d 351 304)
def dPitch (d : Desc) : Nat := fld d 383 352
def dWings (d : Desc) : Nat := fld d 405 384
def dVersion (d : Desc) : BitVec 32 := BitVec.ofNat 32 (fld d 447 416)

def opGet : Nat := 0
def opPut : Nat := 1
def opAdd : Nat := 2
def opMove : Nat := 3
def opAtomic : Nat := 4

/-- No reserved encoding, no reserved bit set, and every field in the range its layout gives (R165). -/
def descOk (d : Desc) : Bool :=
  let raw := dLayout d == 0
  decide (dOp d ≤ 4 ∧ dLayout d ≤ 2 ∧ dFmt d ≤ 13 ∧ dAtomic d ≤ 2) && fld d 31 24 == 0 && fld d 415 406 == 0 && fld d 511 448 == 0 &&
    (!raw || (dFmt d == 0 && dAxis d == 0)) && ((fmtOf (dFmt d)).isMx || dAxis d == 0) &&
    (dOp d == opAtomic || dAtomic d == 0) &&
    (if raw && dOp d != opAtomic then dLen0 d % 8 == 0 && dLen0 d != 0 else raw || dLen0 d == 0) &&
    dWings d % 8 == 0 && (dFabric d || fld d 127 112 == 0) && (dFabric2 d || fld d 191 176 == 0)

/-! ## Handles (R175) -/

def hBuf (h : BitVec 128) : W64 := BitVec.ofNat 64 (fld h 63 0)
def hVersion (h : BitVec 128) : BitVec 32 := BitVec.ofNat 32 (fld h 95 64)
/-- Length of a handle's buffer in bytes. -/
def hLen (h : BitVec 128) : Nat := 64 * (if fld h 119 96 = 0 then 2 ^ 24 else fld h 119 96)
def hId (h : BitVec 128) : Nat := fld h 125 120
def hFabric (h : BitVec 128) : Bool := fld h 126 126 == 1
/-- A handle with another VERSION. -/
def hSetVersion (h : BitVec 128) (v : BitVec 32) : BitVec 128 := BitVec.ofNat 128 (setBits h.toNat 95 64 v.toNat)

/-! ## Cue fields (R89) -/

def strDesc (q : W128) : Nat := fld q 32 28
def strHq (q : W128) : Nat := fld q 36 33
def strNT (q : W128) : Nat := fld q 47 41
def strIn (q : W128) : Bool := fld q 48 48 == 1
def strOut (q : W128) : Bool := fld q 49 49 == 1
def strRel (q : W128) : Bool := fld q 50 50 == 1

/-! ## The pieces of a transfer (R167 to R169, R309) -/

/-- Address of run or tile k (R167). -/
def position (d : Desc) (base : W64) (k : Nat) : W64 :=
  base + BitVec.ofInt 64 ((k % dCount1 d : Nat) * dStride1 d + (k / dCount1 d : Nat) * dStride2 d)

/-- A run or row cut where its address, and a MOVE's destination, cross the packet limits toward them (R309). -/
def cutGo (two : Bool) (la lb : Nat) (whole : Piece) : Nat → W64 → W64 → Nat → Nat → List Piece
  | 0, _, _, _, _ => []
  | fuel + 1, a, b, off, n =>
    if n = 0 then []
    else
      let k := min n (la - a.toNat % la)
      let k := if two then min k (lb - b.toNat % lb) else k
      { whole with addr := a, dst := b, off := off, n := k } ::
        cutGo two la lb whole fuel (a + BitVec.ofNat 64 k) (b + BitVec.ofNat 64 k) (off + k) (n - k)

/-- The pieces of a run or row, taken whole. -/
def Piece.cut (p : Piece) (two : Bool) (la lb : Nat) : List Piece := cutGo two la lb p (p.n / 512 + 4) p.addr p.dst p.off p.n

/-- A run, row or block as a piece. -/
def wholePiece (unit : Nat) (a b : W64) (off n : Nat) : Piece := { unit := unit, addr := a, dst := b, off := off, n := n, run := a, runLen := n }

/-- Bytes of a tile's packed block (R47, R169). -/
def blockBytes (f : Fmt) : Nat := 4096 * f.bits / 8 + (if f.isMx then 128 else 0)

/-- Runs of a RAW, MOVE or ATOMIC transfer. -/
def runCount (d : Desc) : Nat := dCount1 d * dCount2 d

/-- One tile in memory: its block, or its valid rows one by one, in MATRIX form or where an ADD adds them to a block (R169). -/
def tileRuns (d : Desc) (t : Tile) (k : Nat) (a : W64) : List Piece :=
  let f := fmtOf (dFmt d)
  if dLayout d = 1 ∧ dOp d ≠ opAdd then [wholePiece k a 0 0 (blockBytes f)]
  else
    let pitch := if dLayout d = 1 then 64 * f.wide else dPitch d
    (List.range t.rows).map (fun i => wholePiece k (a + BitVec.ofNat 64 (i * pitch)) 0 (i * 64 * f.wide) (t.cols * f.wide))

/-- Runs, rows and blocks of a transfer in order. -/
def Xfer.runs (x : Xfer) (c : Core) : List Piece :=
  let d := x.word
  if dOp d = opAtomic then (List.range (runCount d)).map (fun k => wholePiece k (position d x.base k) 0 (dWings d + 16 * k) 8)
  else if dLayout d = 0 then
    (List.range (runCount d)).map (fun k =>
      wholePiece k (position d x.base k) (dAddr2 d + BitVec.ofNat 64 (k * dLen0 d)) (dWings d + k * dLen0 d) (dLen0 d))
  else ((List.range x.tiles.length).map (fun k => tileRuns d (c.tile (nth 0 x.tiles k)) k (position d x.base k))).flatten

/-- The base of a transfer is a fabric address. -/
def Xfer.fabric (x : Xfer) : Bool :=
  match x.handle with
  | some h => hFabric h
  | none => dFabric x.word

/-- The version a GET asks for, and gives its tiles (R170, R243). -/
def Xfer.version (x : Xfer) : BitVec 32 :=
  match x.handle with
  | some h => hVersion h
  | none => dVersion x.word

/-! ## Conditions of a START (R168) -/

/-- Cue and descriptor match a row of *Stream operations*. -/
def rowOk (d : Desc) (q : W128) : Bool :=
  let raw := dLayout d == 0
  let bare := !strIn q && !strOut q && !strRel q && strNT q == 0
  let tiles := decide (1 ≤ strNT q ∧ strNT q ≤ 64)
  if dFmt d = 13 then false
  else if dLayout d = 2 ∧ ((fmtOf (dFmt d)).isMx) then false
  else if dOp d = opGet then (if raw then bare else strIn q && !strOut q && !strRel q && tiles)
  else if dOp d = opPut then (if raw then bare else strOut q && !strIn q && tiles)
  else if dOp d = opAdd then !raw && strOut q && !strIn q && tiles && dFmt d == 0
  else if dOp d = opMove then raw && bare
  else raw && bare && dCount2 d == 1

/-- Wings bytes a RAW or ATOMIC transfer spans from WINGS_OFF. -/
def wingsSpan (d : Desc) : Nat :=
  if dLayout d ≠ 0 ∨ dOp d = opMove then 0
  else if dOp d = opAtomic then 16 * runCount d
  else runCount d * dLen0 d

/-- Memory a transfer touches: its runs and rows, and the whole block of a TILED tile. -/
def Xfer.spans (x : Xfer) (c : Core) : List (Nat × Nat) :=
  if dLayout x.word = 1 then (List.range x.tiles.length).map (fun k => ((position x.word x.base k).toNat, blockBytes (fmtOf (dFmt x.word))))
  else (x.runs c).map (fun p => (p.addr.toNat, p.n))

/-- The pieces of a transfer as the packet limits of its paths cut them (R309). -/
def State.piecesOf (s : State) (x : Xfer) (c : Core) : List Piece :=
  ((x.runs c).map (fun p => p.cut (dOp x.word == opMove) (s.limitAt x.fabric p.addr) (s.limitAt (dFabric2 x.word) p.dst))).flatten

/-- Every condition of R168 that is found before any byte moves. -/
def Xfer.startOk (x : Xfer) (c : Core) (q : W128) : Bool :=
  let d := x.word
  let units := if dLayout d = 0 then runCount d else x.tiles.length
  let low := match x.handle with
    | some h => hBuf h
    | none => 0
  rowOk d q && (List.range units).all (fun k => (position d x.base k).toNat % 8 == 0) &&
    (dOp d != opMove || (dAddr2 d).toNat % 8 == 0) && (dLayout d != 2 || dPitch d % 8 == 0) &&
    decide (dWings d + wingsSpan d ≤ 0x400000) && decide (units ≤ runCount d) &&
    (match x.handle with
      | none => true
      | some h => (x.spans c).all (fun (a, n) => decide (low.toNat ≤ a ∧ a + n ≤ low.toNat + hLen h)))

/-! ## Tiles to and from bytes (R47, R81, R169) -/

/-- Codes of a tile's elements as a number, row-major, `bits` each; zero outside the valid extent. -/
def packTile (s : State) (c : Nat) (t : Tile) (f : Fmt) : List (Nat × Nat) → Nat
  | [] => 0
  | (i, j) :: r =>
    (if i < t.rows ∧ j < t.cols then s.elem c t f i j % 2 ^ f.bits else 0) + 2 ^ f.bits * packTile s c t f r

/-- The packed block of a tile. -/
def tileBlock (s : State) (c : Nat) (t : Tile) (f : Fmt) : List Byte :=
  leBytes (4096 * f.bits / 8) (packTile s c t f (cellsOf 64 64)) ++ (if f.isMx then s.bytes (sideAddr c t) 128 else [])

/-- Rows of a tile laid 64 elements wide, as MATRIX pieces take them. -/
def tileRows (s : State) (c : Nat) (t : Tile) (f : Fmt) : List Byte :=
  leBytes (4096 * f.wide) ((cellsOf 64 64).foldr (fun (i, j) acc =>
    (if i < t.rows ∧ j < t.cols then s.elem c t f i j else 0) + 2 ^ (8 * f.wide) * acc) 0)

/-- Elements stored from a number of codes, row-major, `w` bits apart; only those in the valid extent. -/
def unpackTile (c : Nat) (t : Tile) (f : Fmt) (w v : Nat) : List (Nat × Nat) → State → State
  | [], s => s
  | (i, j) :: r, s =>
    unpackTile c t f w v r (if i < t.rows ∧ j < t.cols then s.putElem c t f i j (v / 2 ^ (w * (64 * i + j)) % 2 ^ f.bits) else s)

/-- Bytes of several pieces laid at their places in a block. -/
def assemble : List (Nat × List Byte) → Nat
  | [] => 0
  | (off, b) :: t => ofLe b * 2 ^ (8 * off) + assemble t

/-- A tile written from its bytes (R85, R169). -/
def State.fillTile (s : State) (c : Nat) (t : Tile) (d : Desc) (v : Nat) : State :=
  let f := fmtOf (dFmt d)
  if dLayout d = 2 then unpackTile c t f (8 * f.wide) v (cellsOf 64 64) s
  else
    let s := unpackTile c t f f.bits v (cellsOf 64 64) s
    if f.isMx then s.poke (sideAddr c t) (leBytes 128 (v / 2 ^ (4096 * f.bits))) else s

/-! ## Running a transfer -/

/-- The transfer of a cue in a Core, changed. -/
def Core.modXfer (y : Core) (num : Nat) (f : Xfer → Xfer) : Core :=
  { y with str := { y.str with xfers := y.str.xfers.map (fun x => if x.cue.num = num then f x else x) } }
def Core.xfer (y : Core) (num : Nat) : Option Xfer := y.str.xfers.find? (fun x => x.cue.num == num)

/-- The first status that is not OK is kept, with its address (R174, R309). -/
def Xfer.fail (x : Xfer) (st : Status) (a : W64) : Xfer :=
  if x.status = .ok ∧ st ≠ .ok then { x with status := st, faultAddr := a } else x

/-- Permission an operation needs (R321). -/
def needOf (op : Nat) : Nat :=
  if op = opPut then permWrite else if op = opAdd then permAdd else if op = opAtomic then permAtomic else permRead

/-- A read of Wings, by device address, meets the double error (R201). -/
def Xfer.hitsDouble (x : Xfer) (a n : Nat) : Bool :=
  match x.doubleAt with
  | none => false
  | some o => decide (a ≤ o ∧ o < a + n)

/-- The Wings bytes a piece of a PUT, ADD or ATOMIC reads. -/
def Xfer.source (x : Xfer) (s : State) (c : Nat) (p : Piece) : Except Status (List Byte) :=
  let d := x.word
  if dOp d = opAtomic then
    if x.hitsDouble (wingsOf c + p.off) 16 then .error .integrity else .ok (s.bytes (wingsOf c + p.off) 16)
  else if dLayout d = 0 then
    if x.hitsDouble (wingsOf c + p.off) p.n then .error .integrity else .ok (s.bytes (wingsOf c + p.off) p.n)
  else
    let t := (s.core c).tile (nth 0 x.tiles p.unit)
    let f := fmtOf (dFmt d)
    if x.hitsDouble (wingsOf c + t.frame.toNat * 512) (4096 * f.wide) || (f.isMx && x.hitsDouble (sideAddr c t) 128) then .error .integrity
    else .ok (((if dLayout d = 1 then tileBlock s c t f else tileRows s c t f).drop p.off).take p.n)

/-- The bytes an ADD adds: those of valid elements, in their places (R169). -/
def Xfer.addBytes (x : Xfer) (s : State) (c : Nat) (p : Piece) : List (Nat × Nat) :=
  let t := (s.core c).tile (nth 0 x.tiles p.unit)
  (List.range (p.n / 4)).filterMap (fun i =>
    let k := (p.off + 4 * i) / 4
    if k / 64 < t.rows ∧ k % 64 < t.cols then some (4 * i, s.elem c t .fp32 (k / 64) (k % 64)) else none)

/-- Adds of valid elements at their places. -/
def State.addAt (s : State) (a : Nat) : List (Nat × Nat) → State
  | [] => s
  | (off, v) :: t => State.addAt (s.lineAdd (a + off) v) a t

/-- Pieces numbered in order. -/
def numbered {α : Type} : Nat → List α → List (Nat × α)
  | _, [] => []
  | i, x :: t => (i, x) :: numbered (i + 1) t

/-- Numbered pieces of a transfer's run or tile. -/
def Xfer.unitPieces (x : Xfer) (k : Nat) : List (Nat × Piece) := (numbered 0 x.pieces).filter (fun (_, p) => p.unit == k)

/-- A piece has been read from Wings: with T_REL its tile is FREE once all of it is (R171). -/
def State.noteRead (s : State) (c num i : Nat) : State :=
  match (s.core c).xfer num with
  | none => s
  | some x =>
    if x.read.contains i then s
    else
      let y := { x with read := x.read ++ [i] }
      let k := (x.pieces[i]?.map (·.unit)).getD 0
      s.modCore c (fun z =>
        let z := z.modXfer num (fun _ => y)
        if x.rel && (y.unitPieces k).all (fun (j, _) => y.read.contains j) then z.modTile (nth 0 x.tiles k) (fun t => { t with state := .free }) else z)

/-- A piece has not been asked, answered or carried out; an atomic's run comes after all those before it (R172). -/
def Xfer.ready (x : Xfer) (i : Nat) : Bool :=
  decide (x.status = .ok) && !x.settled.contains i && !x.waiting.contains i && !(x.got.any (fun (k, _) => k == i)) &&
    (dOp x.word != opAtomic || (List.range i).all x.settled.contains)

/-- Requests of the pieces that lie on other devices (R309). -/
def State.launch (s : State) (c num : Nat) : List (Nat × Piece) → State
  | [] => s
  | (i, p) :: t =>
    match (s.core c).xfer num with
    | none => s
    | some x =>
      let d := x.word
      if !x.ready i then State.launch s c num t
      else
        let ask := fun (s : State) (k : Nat) (fwd : Bool) (o : MioOut) =>
          ((s.modCore c (fun y => y.modXfer num (fun x => { x with waiting := x.waiting ++ [i] }))).request k
            { o with fwd := fwd, gen := (s.core c).resetGen } (.stream c num i)).markDirty (if needOf (dOp d) = permRead then 0 else fld p.addr 47 0)
              (if needOf (dOp d) = permRead then 0 else p.n)
        let bad := fun (s : State) (st : Status) => s.modCore c (fun y => y.modXfer num (fun x => x.fail st p.addr))
        State.launch (match s.placeOf x.fabric (needOf (dOp d)) p.addr p.n with
          | .here _ => s
          | .wait => s
          | .refused st => bad s st
          | .far k fwd u =>
            if dOp d = opGet ∨ dOp d = opMove then ask s k fwd { op := 0x02, target := u, length := p.n, version := if dOp d = opGet then x.version else 0 }
            else match x.source s c p with
              | .error e => bad (s.noteRead c num i) e
              | .ok b =>
                if dOp d = opPut then ask (s.noteRead c num i) k fwd { op := 0x01, target := u, length := p.n, data := b }
                else if dOp d = opAdd then ask (s.noteRead c num i) k fwd { op := 0x04, target := u, length := p.n, data := b }
                else ask s k fwd { op := 0x03, target := u, length := 16, data := b, aux := BitVec.ofNat 48 (dAtomic d) }) c num t

/-- Requests of a transfer's far pieces. -/
def State.launchAll (s : State) (c num : Nat) : State :=
  match (s.core c).xfer num with
  | none => s
  | some x => if x.suppressed.isSome then s else s.launch c num (numbered 0 x.pieces)

/-- A read of a piece of this device: a GET is versioned, run by run (R243). -/
def Xfer.readHere (x : Xfer) (s : State) (a : Nat) (p : Piece) : Except Status (List Byte) :=
  if x.hitsDouble a p.n then .error .integrity
  else if dOp x.word = opGet then
    match s.versioned (a - (p.addr - p.run).toNat) p.runLen x.version with
    | .error e => .error e
    | .ok _ => s.serveGet .stream a p.n x.version
  else s.readMem .stream a p.n

/-- Data of a piece that memory supplies: none while it is still to come. -/
def Xfer.data (x : Xfer) (s : State) (i : Nat) (p : Piece) : Option (Except Status (List Byte)) :=
  match x.got.find? (fun (k, _) => k == i) with
  | some (_, b) => some (.ok b)
  | none => match s.placeOf x.fabric permRead p.addr p.n with
    | .here a => some (x.readHere s a p)
    | .refused e => some (.error e)
    | .far _ _ _ => none
    | .wait => none

/-- Wings of a Core under takeover that a piece would touch: its door holds the access (R428). -/
def State.pieceHeld (s : State) (x : Xfer) (p : Piece) : Bool :=
  let held := fun (fab : Bool) (need : Nat) (a : W64) => match s.placeOf fab need a p.n with
    | .here l => (s.heldBy l p.n).isSome
    | .wait => true
    | .far _ _ _ => false
    | .refused _ => false
  held x.fabric (needOf (dOp x.word)) p.addr || (dOp x.word == opMove && held (dFabric2 x.word) permWrite p.dst)

/-- A piece settled, with its bytes. -/
def Xfer.settle (x : Xfer) (i n : Nat) : Xfer := { x with settled := x.settled ++ [i], bytes := x.bytes + n }

/-- A write of a piece's bytes at a place of this device, or a PUT request to another. -/
def State.pieceWrite (s : State) (c num i : Nat) (fab : Bool) (a : W64) (b : List Byte) : State :=
  let mod := fun (s : State) (f : Xfer → Xfer) => s.modCore c (fun y => y.modXfer num f)
  match s.placeOf fab permWrite a b.length with
  | .here l => match s.writeMem .stream l b with
    | .ok s => mod (s.markDirty (fld a 47 0) b.length) (fun x => x.settle i b.length)
    | .error e => mod (s.countWrite l b.length e) (fun x => x.fail e a)
  | .refused e => mod s (fun x => x.fail e a)
  | .wait => s
  | .far k fwd u =>
    ((mod s (fun x => { x with waiting := x.waiting ++ [i] })).request k
      { op := 0x01, target := u, fwd := fwd, gen := (s.core c).resetGen, length := b.length, data := b } (.stream c num i)).markDirty (fld a 47 0) b.length

/-- One piece of a RAW, MOVE or ATOMIC transfer, or of a PUT or ADD, carried out where it lies here (R168 to R174). -/
def State.runPiece (s : State) (c num i : Nat) (p : Piece) : State :=
  match (s.core c).xfer num with
  | none => s
  | some x =>
    let d := x.word
    let mod := fun (s : State) (f : Xfer → Xfer) => s.modCore c (fun y => y.modXfer num f)
    let bad := fun (s : State) e => mod s (fun x => x.fail e p.addr)
    let badAt := fun e => bad (s.placeCount x.fabric (needOf (dOp d)) p.addr p.n e) e
    if x.status ≠ .ok ∨ x.settled.contains i ∨ x.waiting.contains i then s
    else if dOp d = opGet then match x.data s i p with
      | none => s
      | some (.error e) => badAt e
      | some (.ok b) => mod (s.poke (wingsOf c + p.off) b) (fun x => x.settle i p.n)
    else if dOp d = opMove then match x.data s i p with
      | none => s
      | some (.error e) => badAt e
      | some (.ok b) => s.pieceWrite c num i (dFabric2 d) p.dst b
    else if !x.ready i then s
    else match x.source s c p with
      | .error e => bad (s.noteRead c num i) e
      | .ok b =>
        if dOp d = opPut then (s.noteRead c num i).pieceWrite c num i x.fabric p.addr b
        else match s.placeOf x.fabric (needOf (dOp d)) p.addr p.n with
          | .refused e => bad (s.noteRead c num i) e
          | .wait => s
          | .far _ _ _ => s
          | .here a =>
            if dOp d = opAdd then
              let s := s.noteRead c num i
              if spanRegion a p.n ≠ some .gallery then bad s .badParam
              else match s.writeStatus .stream a p.n with
                | some e => bad (s.doorAt a e) e
                | none =>
                  if !(s.galleryPoison a p.n).isEmpty then bad s .integrity
                  else mod ((s.addAt a (x.addBytes s c p)).markDirty (fld p.addr 47 0) p.n) (fun x => x.settle i p.n)
            else if x.hitsDouble a 8 then bad s .integrity
            else match s.serveAtomic .stream (dAtomic d) a (BitVec.ofNat 64 (ofLe (b.take 8))) (BitVec.ofNat 64 (ofLe (b.drop 8))) with
              | .error e => badAt e
              | .ok (old, s) => mod (s.markDirty (fld p.addr 47 0) 8) (fun x => { x.settle i 8 with got := Tab.set x.got i (leBytes 8 old.toNat) })

/-- Pieces carried out in order until one fails or must wait. -/
def State.runPieces (s : State) (c num : Nat) : List (Nat × Piece) → State
  | [] => s
  | (i, p) :: t =>
    match (s.core c).xfer num with
    | none => s
    | some x =>
      if s.pieceHeld x p then s
      else State.runPieces (s.runPiece c num i p) c num t

/-- Data of all pieces of a tile: not all there yet, an error with its address, or the bytes at their places. -/
def tileData (s : State) (x : Xfer) : List (Nat × Piece) → Option (Except (Status × W64) (List (Nat × List Byte)))
  | [] => some (.ok [])
  | (i, p) :: t =>
    if s.pieceHeld x p then none
    else match x.data s i p with
      | none => none
      | some (.error e) => some (.error (e, p.addr))
      | some (.ok b) => match tileData s x t with
        | none => none
        | some (.error e) => some (.error e)
        | some (.ok r) => some (.ok ((p.off, b) :: r))

/-- The next tile of a transfer, if its data can move: written and RESIDENT, or read and sent on (R170, R171). -/
def State.moveTile (s : State) (c num : Nat) : State :=
  match (s.core c).xfer num with
  | none => s
  | some x =>
    let d := x.word
    let k := x.done
    let ti := nth 0 x.tiles k
    let mod := fun (s : State) (f : Xfer → Xfer) => s.modCore c (fun y => y.modXfer num f)
    if x.suppressed.isSome ∨ x.status ≠ .ok ∨ x.tiles.length ≤ k then s
    else
      let ps := x.unitPieces k
      if dOp d = opGet then match tileData s x ps with
        | none => s
        | some (.error (e, a)) => mod (s.placeCount x.fabric permRead a 1 e) (fun x => x.fail e a)
        | some (.ok bs) =>
          let s := s.fillTile c ((s.core c).tile ti) d (assemble bs)
          let s := s.modCore c (fun y => y.modTile ti (fun t => { t with
            state := .resident, version := x.version, tag := mkTag (dFmt d) (dAxis d) prodStream {} }))
          mod s (fun x => { x with
            done := k + 1, bytes := x.bytes + (bs.map (fun (_, b) => b.length)).foldl (· + ·) 0,
            settled := x.settled ++ ps.map (·.1) })
      else
        let s := s.runPieces c num ps
        match (s.core c).xfer num with
        | none => s
        | some x =>
          if x.status = .ok ∧ ps.all (fun (i, _) => x.settled.contains i || x.waiting.contains i) then
            mod s (fun x => { x with done := k + 1 })
          else s

/-- Tiles moved one after another. -/
def State.moveTiles (s : State) (c num : Nat) : Nat → State
  | 0 => s
  | n + 1 => State.moveTiles (s.moveTile c num) c num n

/-! ## Notices and ends (R173, R174, R179, R189) -/

/-- What a stream notice reports. -/
structure StreamInfo where
  desc : Nat
  hq   : Nat
  handle : Option (BitVec 128) := none
  op   : Nat
  xop  : Nat
  cue  : Nat
  bytes : Nat := 0
  tiles : Nat := 0
  fault : W64 := 0
deriving DecidableEq, Repr

/-- A stream notice (R189). -/
def State.streamNotice (s : State) (c kind : Nat) (queues : List Nat) (tag : Nat) (st : Status) (i : StreamInfo) : State :=
  s.raise queues kind (.core c) st tag
    (payload32 [(0, 5, i.desc), (5, 4, i.hq), (9, 6, (i.handle.map hId).getD 0), (15, 1, bit i.handle.isSome), (16, 4, i.op),
      (20, 4, i.xop), (24, 14, i.cue), (40, 40, i.bytes), (80, 7, i.tiles), (128, 64, if kind = kStreamError then i.fault.toNat else 0)])

/-- An STR cue ends: on a status other than OK flag 9, STREAM_ERRORS and a STREAM_ERROR notice; then its signal (R90, R174, R179). -/
def State.strEnd (s : State) (c : Nat) (cue : CueTag) (st : Status) (nq tag : Nat) (i : StreamInfo) : State :=
  let s := if st = .ok then s else
    (s.modCore c (fun y => ({ y with str := { y.str with streamErrors := satInc y.str.streamErrors } }).modP (fun p => p.raiseFlag flagStream))).streamNotice
      c kStreamError [nq, s.queueOf (.core c)] tag st i
  s.signal c cue.signal

/-- Reference of a transfer or release among the outward effects. -/
def xferRef (num : Nat) : Nat := 2 * num + 3

/-- A GET that failed: its destination tiles return to FREE, but for one moved already that another cue now fills (R174). -/
def Core.freeFailed (y : Core) (done : Nat) : Nat → List Nat → Core
  | _, [] => y
  | k, i :: t =>
    let st := (y.tile i).state
    Core.freeFailed (if st = .resident ∨ (st = .filling ∧ done ≤ k) then y.modTile i (fun t => { t with state := .free }) else y) done (k + 1) t

/-- Result words an ATOMIC transfer has obtained, in run order (R106, R172). -/
def Xfer.words (x : Xfer) : List W64 :=
  if dOp x.word = opAtomic then
    (List.range (dCount1 x.word)).filterMap (fun k => (x.got.find? (fun (j, _) => j == k)).map (fun (_, b) => BitVec.ofNat 64 (ofLe b)))
  else []

/-- Tiles all of whose pieces are done (R189). -/
def Xfer.tilesDone (x : Xfer) : Nat := ((List.range x.tiles.length).filter (fun k => (x.unitPieces k).all (fun (i, _) => x.settled.contains i))).length

/-- A transfer ends (R173, R174). -/
def State.endXfer (s : State) (c : Nat) (x : Xfer) : State :=
  let d := x.word
  let st := x.status
  let ws := match x.suppressed with
    | some e => e.words
    | none => x.words
  let s := s.modCore c (fun y =>
    let y := { y with str := { y.str with xfers := y.str.xfers.filter (fun z => z.cue.num != x.cue.num) } }
    let y := if x.isFill ∧ st ≠ .ok then y.freeFailed x.done 0 x.tiles else y
    if (dOp d = opAdd ∨ dOp d = opAtomic) then y.effectEnds (xferRef x.cue.num) st ws else y)
  let i : StreamInfo := {
                          desc := x.desc, hq := x.hq, handle := x.handle, op := 0, xop := dOp d, cue := x.at_, bytes := x.bytes,
                          tiles := x.tilesDone, fault := x.faultAddr }
  let s := s.strEnd c x.cue st (dNq d) (dTag d) i
  if st = .ok ∧ dNotify d then s.streamNotice c kStreamDone [dNq d] (dTag d) .ok i else s

/-- An effect of a transfer is suppressed: result words written as they were logged (R107). -/
def putWords (c : Nat) (d : Desc) : Nat → List W64 → State → State
  | _, [], s => s
  | k, w :: t, s => putWords c d (k + 1) t (s.pokeNum (wingsOf c + dWings d + 16 * k) 8 w.toNat)

/-- Result words of an ATOMIC reach Wings and the shadow log (R106, R172). -/
def State.wordsIn (s : State) (c num : Nat) : State :=
  match (s.core c).xfer num with
  | none => s
  | some x =>
    (putWords c x.word 0 x.words s).modCore c (fun y =>
      { y.modXfer num (fun z => { z with resultsIn := true }) with log := y.log ++ [.words x.words] })

/-- Result words that still have to reach Wings, with the granules they take in the log. -/
def Xfer.resultsDue (x : Xfer) : Bool := !x.words.isEmpty && !x.resultsIn
def Xfer.granules (x : Xfer) : Nat := ceilDiv (8 * dCount1 x.word) 64

/-! ## The engine's queue (R176, R177, R182) -/

/-- Transfers in flight on a handle queue. -/
def Core.inFlight (y : Core) (h : Nat) : Nat := (y.str.xfers.filter (fun x => x.hq == h)).length

/-- A START as it leaves the queue (R166 to R168, R170). -/
def State.beginXfer (s : State) (c : Nat) (e : StrCue) : State :=
  let y := s.core c
  let q := e.word
  let d := y.desc (strDesc q)
  let h := strHq q
  let ep := y.ep h
  let info : StreamInfo := { desc := strDesc q, hq := h, op := 0, xop := dOp d, cue := e.at_ }
  let held := if dUseHandle d && decide (ep.state ≠ .off) then ep.held.getLast? else none
  let s := s.modCore c (fun y => y.corrects e.ecc)
  if dUseHandle d ∧ held = none then (s.modCore c (fun y => y.freeFailed 0 0 (if strIn q then e.tiles else []))).strEnd c e.cue .badParam (dNq d) (dTag d) info
  else
    let writes := dOp d == opPut || dOp d == opAdd
    let held' := match held with
      | some x => if writes && !e.tiles.isEmpty then some (hSetVersion x (y.tile (e.tiles.headD 0)).version) else some x
      | none => none
    let base := ((held'.map hBuf).getD (dAddr d)) + BitVec.ofNat 64 (fld q 95 64)
    let x : Xfer := {
                      cue := e.cue, at_ := e.at_, desc := strDesc q, word := d, hq := h, handle := held', base := base, tiles := e.tiles,
                      rel := strRel q, isFill := strIn q, bound := held.map (fun _ => ep.taken), doubleAt := match e.ecc with
                        | .double d o => some (wingsOf d.val + o)
                        | .clean => none
                        | .corrected _ => none }
    if !x.startOk y q then
      (s.modCore c (fun y => y.freeFailed 0 0 (if strIn q then e.tiles else []))).strEnd c e.cue .badParam (dNq d) (dTag d) { info with handle := held }
    else
      let (seen, _) := y.effect (xferRef e.cue.num)
      let counted := dOp d == opAdd || dOp d == opAtomic
      let s := s.modCore c (fun y =>
        let y := if counted then (y.effect (xferRef e.cue.num)).2 else y
        let y := match held' with
          | some x' => y.setEp h { ep with held := ep.held.dropLast ++ [x'] }
          | none => y
        { y with str := { y.str with xfers := y.str.xfers ++ [{ x with suppressed := if counted then seen else none, pieces := s.piecesOf x y }] } })
      s.launchAll c e.cue.num

/-- A START that must wait at the head of the queue (R177). -/
def Core.startWaits (y : Core) (q : W128) : Bool :=
  decide ((y.ep (strHq q)).outstanding.toNat ≤ y.inFlight (strHq q)) || decide (64 ≤ y.str.xfers.length) || y.str.shadowBusy.contains (strDesc q)

/-- A REARM (R182). -/
def State.rearm (s : State) (c : Nat) (e : StrCue) : State :=
  let y := s.core c
  let k := strDesc e.word
  let d := y.desc k
  let arm : Desc := BitVec.ofNat 512 (s.num (wingsOf c + e.off) 64)
  let info : StreamInfo := { desc := k, hq := strHq e.word, op := 1, xop := dOp d, cue := e.at_ }
  if !descOk arm then s.strEnd c e.cue .badParam (dNq d) (dTag d) info
  else if y.str.shadowBusy.contains k then
    ((s.modCore c (fun y => { y with str := { y.str with rearmRejects := satInc y.str.rearmRejects } })).streamNotice c kRearmReject
      [dNq d, s.queueOf (.core c)] (dTag d) .rearmReject info).strEnd c e.cue .rearmReject (dNq d) (dTag d) info
  else if y.str.xfers.any (fun x => x.desc == k) then
    (s.modCore c (fun y => { y with str := { y.str with shadows := Tab.set y.str.shadows k arm, shadowBusy := y.str.shadowBusy ++ [k] } })).signal c e.cue.signal
  else (s.modCore c (fun y => { y with str := { y.str with descs := Tab.set y.str.descs k arm } })).signal c e.cue.signal

/-- NEXT names a logical Core (R179). -/
def coreName (u : UnitName) : Option Nat :=
  match nameRef u with
  | some (.core c) => some c
  | _ => none

/-- An endpoint of a Core changed. -/
def Core.modEp (y : Core) (h : Nat) (f : Endpoint → Endpoint) : Core := y.setEp h (f (y.ep h))

/-- The number of the oldest held handle, and its transfers in flight (R176). -/
def Endpoint.oldest (e : Endpoint) : Nat := e.taken + 1 - e.held.length
def Core.bound (y : Core) (h : Nat) : Bool := y.str.xfers.any (fun z => z.hq == h && z.bound == some (y.ep h).oldest)

/-- A RELEASE sends the oldest held handle (R107, R176, R179). -/
def State.sendHandle (s : State) (c h : Nat) (cue : StrCue) (hd : BitVec 128) : State :=
  let ep := (s.core c).ep h
  let own := s.isHere ep.next && coreName ep.next == some c
  let (seen, y) := (s.core c).effect (xferRef cue.cue.num)
  let s := if own then s else s.setCore c y
  match (if own then none else seen) with
  | some e => s.modCore c (fun y => y.modEp h (fun x => { x with releasing := some cue, sending := some (ep.oldest, hd), answer := some (e.statusOr s.freeCtr) }))
  | none =>
    if s.isHere ep.next then s.modCore c (fun y => y.modEp h (fun x => { x with releasing := some cue, sending := some (ep.oldest, hd), sent := true, answer := none }))
    else match s.upAssoc (nameDevice ep.next) with
      | none => s.modCore c (fun y => y.modEp h (fun x => { x with releasing := some cue, sending := some (ep.oldest, hd), answer := some .gone }))
      | some k =>
        (s.modCore c (fun y => y.modEp h (fun x => { x with releasing := some cue, sending := some (ep.oldest, hd), answer := none }))).request k
          {
            op := 0x07, target := ep.next.setWidth 64, gen := (s.core c).resetGen, length := 16, data := leBytes 16 hd.toNat,
            aux := ep.nextHq.setWidth 48 } (.handle c h)

/-- What the engine does with the cue at its head: it waits, or it is done with it. -/
def State.strHead (s : State) (c : Nat) (e : StrCue) : Option State :=
  let y := s.core c
  let q := e.word
  let h := strHq q
  let ep := y.ep h
  let d := y.desc (strDesc q)
  let info : StreamInfo := { desc := strDesc q, hq := h, op := cueOp q, xop := dOp d, cue := e.at_ }
  let ends := fun st => some (s.strEnd c e.cue st (dNq d) (dTag d) info)
  if cueOp q = 0 then (if y.startWaits q then none else some (s.beginXfer c e))
  else if cueOp q = 1 then some (s.rearm c e)
  else if ep.state = .off then ends .badParam
  else if cueOp q = 3 then
    match ep.waiting with
    | [] => none
    | x :: t => some ((s.modCore c (fun y => y.setEp h { ep with waiting := t, held := ep.held ++ [x], taken := ep.taken + 1 })).signal c e.cue.signal)
  else if ep.state = .broken then
    some (s.strEnd c e.cue (lastStatusOf ep) (dNq d) (dTag d) info)
  else match ep.held with
    | [] => ends .badParam
    | x :: _ =>
      if (coreName ep.next).isNone then ends .badParam
      else if ep.releasing.isSome || y.bound h then none
      else some (s.sendHandle c h e x)
where
  /-- The status that broke an endpoint. -/
  lastStatusOf (ep : Endpoint) : Status :=
    if ep.lastStatus = 0x0003 then .gone else if ep.lastStatus = 0x0007 then .reset else if ep.lastStatus = 0x000D then .dark
    else if ep.lastStatus = 0x0004 then .busy else .gone

/-- The engine takes cues in issue order until one waits (R177). -/
def strGo (c : Nat) : Nat → State → State
  | 0, s => s
  | n + 1, s =>
    match (s.core c).str.queue with
    | [] => s
    | e :: t => match s.strHead c e with
      | none => s
      | some s' => strGo c n (s'.modCore c (fun y => { y with str := { y.str with queue := t } }))

/-- The engine of a Core goes on as far as it can. -/
def State.strPump (s : State) (c : Nat) : State := if (s.core c).works then strGo c (s.core c).str.queue.length s else s

/-- An STR cue joins the queue. -/
def State.issueStr (s : State) (c : Nat) (q : W128) (pk : Peek) (ecc : WingsEcc) : State :=
  let e : StrCue := {
                      cue := { num := s.freeCtr, cls := 4, signal := cueSignal q }, word := q,
                      at_ := ((s.core c).p.cp.toNat + 16383) % 16384, tiles := pk.ops ++ pk.dests, off := pk.byteVal, ecc := ecc }
  ((s.modCore c (fun y => { y with str := { y.str with queue := y.str.queue ++ [e] } })).fresh).strPump c

/-- START. -/
def execStrStart (c : CoreNo) (ecc : WingsEcc) (s : State) : Out1 :=
  .next (s.attempt c.val (isCue 4 0) (fun s q pk => s.issueStr c.val q pk ecc))
/-- REARM. -/
def execStrRearm (c : CoreNo) (s : State) : Out1 := .next (s.attempt c.val (isCue 4 1) (fun s q pk => s.issueStr c.val q pk .clean))
/-- RELEASE. -/
def execStrRelease (c : CoreNo) (s : State) : Out1 := .next (s.attempt c.val (isCue 4 2) (fun s q pk => s.issueStr c.val q pk .clean))
/-- TAKE. -/
def execStrTake (c : CoreNo) (s : State) : Out1 := .next (s.attempt c.val (isCue 4 3) (fun s q pk => s.issueStr c.val q pk .clean))

/-- The transfer at a place of the engine's list. -/
def Core.xferAt (y : Core) (k : Nat) : Option Xfer := y.str.xfers[k]?

/-- STREAM_TILE_RESIDENT: the next tile of a transfer moves (R171). -/
def execStreamTileResident (c : CoreNo) (x : Nat) (s : State) : Out1 :=
  match (s.core c.val).xferAt x with
  | none => .next s
  | some y => if (s.core c.val).works then .next ((s.launchAll c.val y.cue.num).moveTile c.val y.cue.num) else .next s

/-- Everything of a transfer that can move, moved. -/
def State.driveXfer (s : State) (c num : Nat) : State :=
  let s := s.launchAll c num
  match (s.core c).xfer num with
  | none => s
  | some x =>
    if dLayout x.word ≠ 0 then s.moveTiles c num (x.tiles.length - x.done)
    else (s.runPieces c num (numbered 0 x.pieces)).launchAll c num

/-- A transfer has nothing left to move: it failed, or every piece is settled. -/
def Xfer.over (x : Xfer) : Bool :=
  x.waiting.isEmpty && (decide (x.status ≠ .ok) || ((List.range x.pieces.length).all x.settled.contains))

/-- STREAM_TRANSFER_COMPLETE: the rest moves and the transfer ends (R173, R174); the result words of an ATOMIC come first, held at the
router behind other inputs while the shadow log has no room (R106); a suppressed effect ends as it ended before (R107). -/
def execStreamTransferComplete (c : CoreNo) (x : Nat) (s : State) : Out1 :=
  match (s.core c.val).xferAt x with
  | none => .next s
  | some y =>
    let num := y.cue.num
    if !(s.core c.val).works then .next s
    else match y.suppressed with
      | some e =>
        let s := putWords c.val y.word 0 e.words s
        let s := if y.rel then s.modCore c.val (fun z => z.setStates .free y.tiles) else s
        .next ((s.endXfer c.val ({ y with status := .ok }.fail (e.statusOr s.freeCtr) 0)).strPump c.val)
      | none =>
        let s := s.driveXfer c.val num
        match (s.core c.val).xfer num with
        | none => .next s
        | some z =>
          let x := s.core c.val
          if !z.over then .next s
          else if !z.resultsDue then .next ((s.endXfer c.val z).strPump c.val)
          else if z.resultsHeld then .next s
          else if !x.heldIn.isEmpty || !x.logRoom z.granules then
            .next (s.modCore c.val (fun y => { y.modXfer num (fun z => { z with resultsHeld := true }) with heldIn := y.heldIn ++ [.words num] }))
          else .next (((s.wordsIn c.val num).endXfer c.val z).strPump c.val)

/-- The answer to a request of a transfer's piece (R309). -/
def State.streamAnswer (s : State) (c num i : Nat) (st : Status) (b : List Byte) : State :=
  match (s.core c).xfer num with
  | none => s
  | some x =>
    if !x.waiting.contains i then s
    else
      let p := x.pieces[i]?
      let back := x.got.any (fun (k, _) => k == i)
      let a := (p.map (fun p => if dOp x.word = opMove ∧ back then p.dst else p.addr)).getD 0
      let n := (p.map (·.n)).getD 0
      s.modCore c (fun y => y.modXfer num (fun x =>
        let x := { x with waiting := x.waiting.filter (· != i) }
        if st ≠ .ok then x.fail st a
        else if dOp x.word = opAtomic then { x.settle i n with got := Tab.set x.got i b }
        else if dOp x.word = opGet ∨ (dOp x.word = opMove ∧ !back ∧ b.length = n) then { x with got := Tab.set x.got i b }
        else x.settle i n))

/-- SHADOW_IN_EFFECT: no transfer of the descriptor is in flight (R182). -/
def execShadowInEffect (c : CoreNo) (d : Fin 32) (s : State) : Out1 :=
  let y := s.core c.val
  if !y.works || !y.str.shadowBusy.contains d.val || y.str.xfers.any (fun x => x.desc == d.val) then .next s
  else
    .next ((s.setCore c.val { y with
      str := { y.str with
      descs := Tab.set y.str.descs d.val (Tab.get 0 y.str.shadows d.val), shadows := Tab.erase y.str.shadows d.val,
      shadowBusy := y.str.shadowBusy.filter (· != d.val) } }).strPump c.val)

/-! ## Handles between endpoints (R176, R179, R180) -/

/-- The answer to a released handle reaches its sender, or leaves as a Mioder response. -/
def State.answerHandle (s : State) (src : HandleSrc) (c : Nat) (st : Status) : State :=
  match src with
  | .localCore d ep => s.modCore d.val (fun y => y.modEp ep.val (fun x => { x with sent := false, answer := some st }))
  | .remote a id => s.respond a id 0x07 st (s.core c).resetGen []

/-- A handle arrives at an endpoint (R179, R180, R432). -/
def State.arrive (s : State) (c ep : Nat) (h : BitVec 128) (src : HandleSrc) : State :=
  let y := s.core c
  let e := y.ep ep
  if y.inReset then (s.doorCount (stageOfCore c)).answerHandle src c .reset
  else if y.dark then s.answerHandle src c .dark
  else if y.takeover.isSome then s.modCore c (fun y => { y with heldIn := y.heldIn ++ [.handle ep h src] })
  else if !y.heldIn.isEmpty || !y.logRoom 1 then s.modCore c (fun y => { y with heldIn := y.heldIn ++ [.handle ep h src] })
  else if e.state = .off then s.answerHandle src c .gone
  else if 64 ≤ e.waiting.length + e.held.length then s.answerHandle src c .busy
  else ((s.handleIn c ep h).answerHandle src c .ok).strPump c

/-- A handle sent by an endpoint of this device travels to this endpoint. -/
def State.travels (s : State) (c ep : Nat) (h : BitVec 128) (src : HandleSrc) : Bool :=
  match src with
  | .localCore d k =>
    let x := (s.core d.val).ep k.val
    x.sent && x.sending.map (·.2) == some h && x.nextHq.toNat == ep && s.isHere x.next && coreName x.next == some c
  | .remote a _ => decide ((s.assoc a).state = .up)

/-- HANDLE_ARRIVAL. -/
def execHandleArrival (c : CoreNo) (ep : Fin 16) (h : BitVec 128) (src : HandleSrc) (s : State) : Out1 :=
  .next (if s.travels c.val ep.val h src then s.arrive c.val ep.val h src else s)

/-- An endpoint once its RELEASE is answered: accepted, the handle is gone; refused, it joins the waiting list and the endpoint breaks,
but BAD_PARAM leaves it held and LIVE (R179). A handle that HQ_ENABLE has since taken off the list stays off it. -/
def Endpoint.answered (e : Endpoint) (st : Status) : Endpoint :=
  let r := { e with releasing := none, answer := none, sending := none, sent := false }
  let here := !e.held.isEmpty && e.sending.any (fun (n, _) => n == e.oldest)
  if st = .badParam then r
  else
    let r := if here then { r with held := e.held.tail } else r
    if st = .ok then r
    else
      let r := if here then { r with waiting := e.waiting ++ (e.sending.map (·.2)).toList } else r
      if e.state = .off then r else { r with state := .broken, lastStatus := BitVec.ofNat 16 (statusCode st) }

/-- HANDLE_RELEASE_ANSWER (R179). -/
def execHandleReleaseAnswer (c : CoreNo) (ep : Fin 16) (st : Status) (s : State) : Out1 :=
  let y := s.core c.val
  let e := y.ep ep.val
  match e.releasing with
  | none => .next s
  | some cue =>
    if e.answer ≠ some st ∨ !y.works then .next s
    else
      let d := y.desc (strDesc cue.word)
      let info : StreamInfo := { desc := strDesc cue.word, hq := ep.val, handle := e.sending.map (·.2), op := 2, xop := dOp d, cue := cue.at_ }
      let s := s.setCore c.val ((y.setEp ep.val (e.answered st)).effectEnds (xferRef cue.cue.num) st [])
      .next ((s.strEnd c.val cue.cue st (dNq d) (dTag d) info).strPump c.val)

/-- HQ_ENABLE_WRITE (R179). -/
def Endpoint.setEnable (e : Endpoint) (v : Bool) : Endpoint :=
  if v then { e with enable := true, state := .live }
  else { e with enable := false, state := .off, waiting := [], held := [] }

/-- A write of HQ_ENABLE; 1 written in LIVE changes nothing. -/
def execHqEnableWrite (c : CoreNo) (ep : Fin 16) (v : Bool) (s : State) : Out1 :=
  .next (s.atDoor c.val (.hqEnableWrite c ep v) (fun s => (s.modCore c.val (fun y => y.modEp ep.val (fun e => e.setEnable v))).strPump c.val))

/-- A write of HQ_INJECT_HI: ignored with bit 63 set or 64 handles present (R181). -/
def State.inject (s : State) (c : Nat) (hi : W64) : State :=
  let y := s.core c
  let k := y.str.injectEp.toNat
  let e := y.ep k
  if hi.getLsbD 63 || decide (64 ≤ e.waiting.length + e.held.length) then s
  else (s.setCore c (y.setEp k (e.arrive (BitVec.ofNat 128 (hi.toNat * 2 ^ 64 + y.str.injectLo.toNat))))).strPump c

/-- HQ_INJECT_WRITE. -/
def execHqInjectWrite (c : CoreNo) (v : W64) (s : State) : Out1 := .next (s.atDoor c.val (.hqInjectWrite c v) (fun s => s.inject c.val v))

/-- HQ_PRIORITY_WRITE: the shares follow the register at once (R178). -/
def execHqPriorityWrite (c : CoreNo) (ep : Fin 16) (p : Fin 8) (s : State) : Out1 :=
  .next (s.atDoor c.val (.hqPriorityWrite c ep p) (fun s =>
    s.modCore c.val (fun y => y.modEp ep.val (fun e => { e with priority := BitVec.ofNat 3 p.val }))))

/-! ## Scene commit (R102, R106) -/

/-- Granules an input takes in the log. -/
def State.heldGranules (s : State) (c : Nat) : HeldInput → Nat
  | .token _ => 1
  | .handle _ _ _ => 1
  | .words num => (((s.core c).xfer num).map Xfer.granules).getD 0

/-- Inputs held at the router delivered in arrival order while the log has room (R106). -/
def releaseGo (c : Nat) : List HeldInput → State → State
  | [], s => s
  | i :: t, s =>
    if !(s.core c).logRoom (s.heldGranules c i) then s.modCore c (fun y => { y with heldIn := i :: t })
    else match i with
      | .token k => releaseGo c t (s.tokenIn c k)
      | .handle ep h src => releaseGo c t (s.arrive c ep h src)
      | .words num => releaseGo c t (s.wordsIn c num)

/-- Held inputs released. -/
def State.releaseHeld (s : State) (c : Nat) : State :=
  let l := (s.core c).heldIn
  releaseGo c l (s.modCore c (fun y => { y with heldIn := [] }))

/-- SCENE_COMMIT. -/
def execSceneCommit (c : CoreNo) (s : State) : Out1 :=
  let x := s.core c.val
  match x.pending with
  | none => .next s
  | some m => if x.open then .next ((s.setCore c.val (x.commit m)).releaseHeld c.val) else .next s

end Sys2Proof.Machine
end

