-- ==== Sys2Proof/Machine/Root.lean ====
section
/-! DEFINITION. The Root engines: job descriptors, acceptance, ranking, assembly, iterations, endings (R266 to R296). What a job keeps in
its engine's scratch SRAM is in the job; the bytes of its work region are open, since no layout of them is given.
Log entries with the readings and choices that are the model's: 41, 42, 43. -/

namespace Sys2Proof.Machine

abbrev JobDesc := BitVec 2048

/-! ## The descriptor (R271) -/

def jOp (d : JobDesc) : Nat := fld d 7 0
def j32 (d : JobDesc) : Bool := fld d 8 8 == 1
def jStrict (d : JobDesc) : Bool := fld d 9 9 == 1
def jNotify (d : JobDesc) : Bool := fld d 10 10 == 1
def jInPlace (d : JobDesc) : Bool := fld d 11 11 == 1
def jWarm (d : JobDesc) : Nat := fld d 13 12
def jKeep (d : JobDesc) : Bool := fld d 14 14 == 1
def jClear (d : JobDesc) : Bool := fld d 15 15 == 1
def jSlot (d : JobDesc) : Nat := fld d 21 16
def jNq (d : JobDesc) : Nat := fld d 27 22
def jAsm (d : JobDesc) : Nat := fld d 29 28
def jGang (d : JobDesc) : Bool := fld d 30 30 == 1
def jEval (d : JobDesc) : Bool := fld d 31 31 == 1
def jTag (d : JobDesc) : Nat := fld d 63 32
def jN (d : JobDesc) : Nat := fld d 95 64
def jM (d : JobDesc) : Nat := fld d 127 96
def jNrhs (d : JobDesc) : Nat := fld d 143 128
def jPLog (d : JobDesc) : Nat := fld d 145 144
def jPrecond (d : JobDesc) : Nat := fld d 147 146
def jNsIters (d : JobDesc) : Nat := fld d 155 148
def jMaxIters (d : JobDesc) : Nat := fld d 175 160
def jFeeds (d : JobDesc) : Nat := fld d 191 176
def jDeadline (d : JobDesc) : Nat := fld d 223 192
def jExpect (d : JobDesc) : Nat := fld d 255 224
def jLda (d : JobDesc) : Nat := fld d 287 256
def jEngines (d : JobDesc) : Nat := fld d 319 288
def jBlocks (d : JobDesc) : Nat := fld d 447 416
def jTau (d : JobDesc) : FVal := f64 (fld d 511 448)
def jEps (d : JobDesc) : FVal := f64 (fld d 575 512)
def jTol (d : JobDesc) : FVal := f64 (fld d 639 576)
def jDamp (d : JobDesc) : FVal := f64 (fld d 703 640)
def jLam (d : JobDesc) : FVal := f64 (fld d 767 704)
def jEvalRef (d : JobDesc) : UnitName := BitVec.ofNat 48 (fld d 815 768)
def jEvalTok (d : JobDesc) : Nat := fld d 821 816
def jA (d : JobDesc) : Nat := fld d 895 832
def jB (d : JobDesc) : Nat := fld d 959 896
def jOut (d : JobDesc) : Nat := fld d 1023 960
def jRes (d : JobDesc) : Nat := fld d 1087 1024
def jWork (d : JobDesc) : Nat := fld d 1151 1088
def jWorkBytes (d : JobDesc) : Nat := fld d 1215 1152
def jWarmAddr (d : JobDesc) : Nat := fld d 1279 1216
def jSlotBuf (d : JobDesc) : Nat := fld d 1343 1280
def jFeedAddr (d : JobDesc) : Nat := fld d 1407 1344
def jBlocksAddr (d : JobDesc) : Nat := fld d 1471 1408
def jArrived (d : JobDesc) : Nat := fld d 1535 1472
def jEvalX (d : JobDesc) : Nat := fld d 1599 1536

def opChol : Nat := 1
def opLdlt : Nat := 2
def opQr : Nat := 3
def opEig : Nat := 4
def opInvroot : Nat := 5
def opNs : Nat := 6
def opPcg : Nat := 7
def opLsqr : Nat := 8
def opGn : Nat := 9
def opLm : Nat := 10

/-- Direct operations (R273). -/
def jDirect (d : JobDesc) : Bool := decide (jOp d ≤ 4)
/-- GN and LM. -/
def jLoop (d : JobDesc) : Bool := decide (9 ≤ jOp d)
/-- Element width e. -/
def jE (d : JobDesc) : Nat := if j32 d then 4 else 8
def jTolOf (d : JobDesc) : FVal := if (jTol d).isZero then (if j32 d then .fin false 1 (-16) else .fin false 1 (-40)) else jTol d
def jTauOf (d : JobDesc) : FVal := if (jTau d).isZero then (if j32 d then .fin false 1 (-20) else .fin false 1 (-40)) else jTau d
/-- Rows and columns of A. -/
def jRowsA (d : JobDesc) : Nat := if jOp d = opQr ∨ jOp d = opNs then jM d else jN d
/-- MAX_ITERS or its default (R273). -/
def jIters (d : JobDesc) : Nat :=
  if jOp d = opNs then jNsIters d
  else if jMaxIters d ≠ 0 then jMaxIters d
  else if jOp d = opInvroot then 64
  else if jLoop d then 50
  else min (jN d) 65535
/-- Columns of the result that a slot keeps (R283, R284). -/
def jCols (d : JobDesc) : Nat := if jOp d = opEig then jN d else max 1 (jNrhs d)
/-- The job's result is one that a slot keeps (R283). -/
def jKept (d : JobDesc) : Bool :=
  jKeep d && !(jOp d == opInvroot) && !(jOp d == opNs) && (decide (3 < jOp d) || decide (0 < jNrhs d))
/-- The job uses its slot (R284). -/
def jUsesSlot (d : JobDesc) : Bool := jWarm d == 1 || jKeep d
/-- Rows and columns of OUT. -/
def jOutShape (d : JobDesc) : Nat × Nat :=
  if jOp d = opNs then (jM d, jN d)
  else if jOp d = opEig ∨ jOp d = opInvroot then (jN d, jN d)
  else if jOp d ≤ 3 ∧ jNrhs d = 0 then (jN d, jN d)
  else (jN d, max 1 (jNrhs d))

/-! ## Acceptance (R269 to R273, R280) -/

/-- Bytes of a packed factor of order n (R279). -/
def packedBytes (n : Nat) : Nat := let t := n / 64; t * (t + 1) / 2 * 16384

/-- Least WORK_BYTES; what depends on the tables and the feed is checked as they are read (R273, R281). -/
def jWorkMin (d : JobDesc) : Nat :=
  let n := jN d
  let m := jM d
  let e := jE d
  let k := min m n
  if jOp d ≤ 2 then (if jInPlace d then 4096 else 4096 + n * n * e)
  else if jOp d = opQr then 4096 + (m * n + n) * e
  else if jOp d = opEig ∨ jOp d = opInvroot then 4096 + 3 * n * n * e
  else if jOp d = opNs then 4096 + (2 * m * n + 2 * k * k) * e
  else if jOp d = opPcg then 4096 + 5 * n * e
  else if jOp d = opLsqr then 4096 + 48 * n
  else if jAsm d = 3 then 4096 + 64 * n
  else 4096 + 16 * n * n + 64 * n

/-- The output region. -/
def jOutRegion (d : JobDesc) : Nat × Nat :=
  let (r, c) := jOutShape d
  (jOut d, (if jInPlace d then max (r * c) (jN d * (if jLda d = 0 then jN d else jLda d)) else r * c) * jE d)

/-- The buffer of kept results, where it is not OUT itself. -/
def jKeepRegion (d : JobDesc) : List (Nat × Nat) := if jKept d ∧ jSlotBuf d ≠ jOut d then [(jSlotBuf d, jN d * jCols d * jE d)] else []

/-- The other regions of the job's memory: what it reads and writes (R272). -/
def jRegions (d : JobDesc) (record : Bool) : List (Nat × Nat) :=
  let e := jE d
  let pitch := fun (c : Nat) => if jLda d = 0 then c else jLda d
  let a := if jAsm d = 1 then [(jA d, packedBytes (jN d))]
    else if jAsm d = 0 ∧ jOp d ≠ opLsqr ∧ !(jInPlace d) then [(jA d, jRowsA d * pitch (jN d) * e)] else []
  let b := if jOp d = opEig then (if jB d = 0 then [] else [(jB d, jN d * e)])
    else if jAsm d ≤ 1 ∧ jOp d ≤ 7 ∧ jOp d ≠ opInvroot ∧ jOp d ≠ opNs ∧ 0 < jNrhs d then [(jB d, jRowsA d * jNrhs d * e)] else []
  let feed := if jFeeds d = 0 then [] else [(jFeedAddr d, 16 * jFeeds d)]
  let blocks := if jBlocks d = 0 then [] else [(jBlocksAddr d, 8 * jBlocks d)]
  let warm := if jWarm d = 2 then [(jWarmAddr d, jN d * jCols d * e)] else []
  let loop := if jLoop d then [(jEvalX d, 8 * jN d)] else []
  let arr := if jArrived d = 0 then [] else [(jArrived d, 8)]
  (a ++ b ++ feed ++ blocks ++ warm ++ loop ++ arr ++ [(jWork d, jWorkBytes d)] ++
    (if record then [(jRes d, 64)] else [])).filter (fun r => decide (0 < r.2))

/-- A region in the Gallery or the Vault of this device. -/
def regionOk (r : Nat × Nat) : Bool := spanRegion r.1 r.2 == some .vault || spanRegion r.1 r.2 == some .gallery

/-- Two regions of a list overlap. -/
def anyOverlap : List (Nat × Nat) → Bool
  | [] => false
  | r :: t => t.any (fun q => decide (r.1 < q.1 + q.2 ∧ q.1 < r.1 + r.2)) || anyOverlap t

/-- Fields that hold a legal value by themselves (R19, R271 to R273). -/
def jFieldsOk (d : JobDesc) : Bool :=
  decide (1 ≤ jOp d ∧ jOp d ≤ 10) && jWarm d != 3 && jPrecond d != 3 && decide (jNrhs d ≤ 1024) && decide (jDeadline d ≤ 4000000) &&
  !(jTau d).isNan && !(jTau d).lt FVal.zero && (jTau d).lt (FVal.ofInt 1) &&
  !(jEps d).isNan && !(jEps d).lt FVal.zero &&
  (jOp d != opLm || FVal.zero.lt (jLam d)) &&
  (jOp d != opNs || decide (1 ≤ jNsIters d)) &&
  (!jInPlace d || (jA d == jOut d && jDeadline d == 0)) &&
  (jLda d == 0 || decide (jN d ≤ jLda d)) &&
  [jA d, jB d, jOut d, jRes d, jWork d, jWarmAddr d, jSlotBuf d, jFeedAddr d, jBlocksAddr d, jArrived d, jEvalX d].all
    (fun a => a % 64 == 0 && decide (a < 2 ^ 48)) &&
  (URef.ofBits (jEngines d)).isSome && (URef.ofBits (fld (jEvalRef d) 31 0)).isSome

/-- Compute format, assembly, warm start and evaluation against the operation (R273, R279). -/
def jOpOk (d : JobDesc) : Bool :=
  (!j32 d || decide (jOp d ≤ 6) || (jOp d == opPcg && jAsm d == 0)) &&
  (decide (4 ≤ jOp d) && decide (7 ≤ jOp d) || jOp d == opEig || jWarm d == 0) &&
  (jEval d == jLoop d) &&
  (if jLoop d then jAsm d == 2 || jAsm d == 3
   else if jOp d = opLsqr then jAsm d == 0
   else if jOp d = opQr ∨ jOp d = opNs then jAsm d == 0
   else jAsm d != 3)

/-- Orders (R270, R273); `g` engines. -/
def jOrderOk (d : JobDesc) (g : Nat) : Bool :=
  if jOp d ≤ 2 ∨ jOp d = opEig ∨ jOp d = opInvroot then decide (jN d * jN d ≤ g * (16384 * 16384))
  else if jOp d = opQr then decide (jN d * jN d ≤ g * (16384 * 16384)) && decide (jN d ≤ jM d) && decide (jM d < 2 ^ 31)
  else if jOp d = opNs then decide (jN d * jN d ≤ g * (16384 * 16384) ∧ jM d * jM d ≤ g * (16384 * 16384))
  else if jOp d = opPcg ∧ jAsm d ≠ 2 then decide (jN d ≤ 16384)
  else true

/-- The whole descriptor (R271 to R273): a Conservator's has no result record. -/
def jobOk (d : JobDesc) (g : Nat) (record : Bool) : Bool :=
  jFieldsOk d && jOpOk d && jOrderOk d g && decide (jWorkMin d ≤ jWorkBytes d) && (!record || jRes d != 0) &&
  (jAsm d != 1 || jN d % 64 == 0) &&
  (jOutRegion d :: jKeepRegion d ++ jRegions d record).all (fun r => r.2 == 0 || regionOk r) &&
  !anyOverlap ((jOutRegion d :: jRegions d record).filter (fun r => decide (0 < r.2))) && !anyOverlap (jKeepRegion d ++ jRegions d record)

/-- Troupes of a gang: 2 to 16 whole Troupes of this device (R270). -/
def State.gang (s : State) (v : Nat) : Option (List Nat) :=
  match URef.ofBits v with
  | some (.ensemble e) =>
    let x := s.expand (s.nameOf (.ensemble e))
    let ts := (List.range 32).filter (fun t => (coresOfTroupe t).all (fun c => x.leaves.contains c))
    if x.far.isEmpty && x.gone == 0 && decide (2 ≤ ts.length ∧ ts.length ≤ 16) && x.leaves.length == 16 * ts.length then some ts else none
  | _ => none

/-- The engines a job goes to (R268, R270). -/
def State.jobMembers (s : State) (d : JobDesc) (own : Option Nat) : Option (List Nat) :=
  if jGang d then (if jOp d ≤ 6 ∧ (jAsm d = 0 ∨ jAsm d = 1) then s.gang (jEngines d) else none)
  else match own with
    | some t => some [t]
    | none => match URef.ofBits (jEngines d) with
      | some (.troupe t) => some [t]
      | _ => none

/-- Lead of a job's engines. -/
def RootJob.lead (j : RootJob) : Nat := j.members.headD 0
def RootEng.job (e : RootEng) (seq : BitVec 32) : Option RootJob := e.jobs.find? (fun j => j.seq == seq)

/-- The compute format of a job (R267). -/
def RootJob.prec (j : RootJob) : Prec := { p32 := j32 j.desc, op := jOp j.desc, order := jN j.desc, gang := j.members.length }

/-- The lead's own copy of a job. -/
def State.jobNow (s : State) (j : RootJob) : RootJob := ((s.engine j.lead).job j.seq).getD j

/-- A job placed in its members' queues. -/
def State.placeJob (s : State) (j : RootJob) : List Nat → State
  | [] => s
  | t :: r => State.placeJob (s.modEngine t (fun e => { e with jobs := e.jobs ++ [j] })) j r

/-- A refusal counted by an engine (R269). -/
def State.refuseJob (s : State) (t : Option Nat) (st : Status) : State :=
  match t with
  | none => s
  | some t => s.modEngine t (fun e => { e with refused := satInc e.refused, lastRefusal := BitVec.ofNat 16 (statusCode st) })

/-- ARRIVED_ADDR lies in the Gallery of the engine's Stage (R271). -/
def arrivedOk (d : JobDesc) (t : Nat) : Bool :=
  jArrived d == 0 || (regionOf (jArrived d) == some .gallery && troupeUnder (jArrived d) / 8 == stageOfTroupe t)

/-- A job is accepted, with its JOB_SEQ, or refused (R269). -/
def State.acceptJob (s : State) (d : JobDesc) (prio : Nat) (sub : Submitter) (own : Option Nat) : State × Except Status (BitVec 32) :=
  let record := match sub with
    | .conservator _ _ => false
    | .core _ _ => true
    | .command _ => true
  match s.jobMembers d own with
  | none => (s.refuseJob own .badParam, .error .badParam)
  | some ms =>
    let lead := ms.headD 0
    if !jobOk d ms.length record || !arrivedOk d lead then (s.refuseJob (some lead) .badParam, .error .badParam)
    else if ms.any (fun t => (s.troupe t).inReset) then ((s.refuseJob (some lead) .reset).doorCount (stageOfTroupe lead), .error .reset)
    else if ms.any (fun t => decide (64 ≤ (s.engine t).jobs.length)) then (s.refuseJob (some lead) .busy, .error .busy)
    else
      let seq := s.jobSeq
      let j : RootJob := {
        desc := d, seq := seq, priority := BitVec.ofNat 2 prio, submitter := sub
        deadline := if jDeadline d = 0 then none else some (s.troupeTimer lead + 1000 * jDeadline d)
        members := ms
        asm := if jAsm d = 0 && jArrived d == 0 then .complete else .notStarted
        lambda := BitVec.ofNat 64 (if jOp d = opLm then fld d 767 704 else 0) }
      (({ s with jobSeq := s.jobSeq + 1 }).placeJob j ms, .ok seq)

/-! ## Ranking (R285) -/

/-- A job outranks another. -/
def RootJob.before (a b : RootJob) : Bool :=
  if a.priority.toNat ≠ b.priority.toNat then decide (b.priority.toNat < a.priority.toNat)
  else match a.deadline, b.deadline with
    | some x, some y => if x = y then decide (a.seq.toNat < b.seq.toNat) else decide (x < y)
    | some _, none => true
    | none, some _ => false
    | none, none => decide (a.seq.toNat < b.seq.toNat)

/-- The best of a list. -/
def bestJob : List RootJob → Option RootJob
  | [] => none
  | j :: t => some (t.foldl (fun b x => if x.before b then x else b) j)

def RootEng.slot (e : RootEng) (k : Nat) : WarmSlot := Tab.get {} e.slots k
def RootEng.modSlot (e : RootEng) (k : Nat) (f : WarmSlot → WarmSlot) : RootEng := { e with slots := Tab.set e.slots k (f (e.slot k)) }

/-- An optimiser job (R285, R293). -/
def RootJob.optimiser (j : RootJob) : Bool :=
  match j.submitter with
  | .conservator _ _ => true
  | .core _ _ => false
  | .command _ => false

/-- Assembly is no obstacle: complete, or a GN or LM job that has not asked for its first evaluation. -/
def RootJob.assembled (j : RootJob) : Bool := (jLoop j.desc && !j.started) || (decide (j.asm = .complete) && !j.waitEval)

/-- A job can start or resume on its engine, gangs aside (R285). -/
def State.startable (s : State) (t : Nat) (j : RootJob) : Bool :=
  let j := s.jobNow j
  let e := s.engine j.lead
  j.assembled && j.ended.isNone &&
  (!jUsesSlot j.desc || (e.slot (jSlot j.desc)).busy.all (fun q => q == j.seq)) &&
  (!j.optimiser || (s.engine t).jobs.all (fun k => !k.optimiser || k.seq == j.seq || !(s.jobNow k).started))

/-- The highest-ranked startable job of an engine. -/
def State.candidate (s : State) (t : Nat) : Option RootJob := bestJob ((s.engine t).jobs.filter (s.startable t))

def State.modJob (s : State) (j : RootJob) (f : RootJob → RootJob) : State :=
  s.modEngine j.lead (fun e => { e with jobs := e.jobs.map (fun k => if k.seq == j.seq then f k else k) })

/-- Members run a job, or stop running it. -/
def State.setRunning (s : State) (v : Option (BitVec 32)) (wait : Bool) : List Nat → State
  | [] => s
  | t :: r => State.setRunning (s.modEngine t (fun e => { e with running := v, gangWait := wait, switching := e.switching && v.isNone })) v wait r

/-! ## Memory of a job -/

/-- Codes of a matrix in memory, rows of `cols` elements at a pitch (R272). -/
def State.readCodes (s : State) (e addr rows cols pitch : Nat) : Except Status (List Nat) :=
  if rows * cols = 0 then .ok []
  else match s.readStatus .unit addr (((rows - 1) * pitch + cols) * e) with
    | some st => .error st
    | none => .ok ((List.range (rows * cols)).map (fun k => s.num (addr + (k / cols * pitch + k % cols) * e) e))

/-- Codes of the diagonal and the lower triangle, row by row; what lies above is not read and stands as zero (R272). -/
def State.readLower (s : State) (e addr n pitch : Nat) : Except Status (List Nat) :=
  if (List.range n).all (fun i => (s.readStatus .unit (addr + i * pitch * e) ((i + 1) * e)).isNone) then
    .ok ((List.range (n * n)).map (fun k => if k % n ≤ k / n then s.num (addr + (k / n * pitch + k % n) * e) e else 0))
  else .error .integrity

/-- Bytes a unit of the device writes; memory that refuses them keeps its own. -/
def State.putUnit (s : State) (a : Nat) (b : List Byte) : State :=
  match s.writeMem .unit a b with
  | .ok s => s
  | .error _ => s

/-- Codes written, rows of `cols` elements at a pitch; memory that refuses a write keeps its bytes. -/
def State.writeCodes (s : State) (e addr cols pitch : Nat) (cs : List W64) : State :=
  let rec go : List W64 → Nat → State → State
    | [], _, s => s
    | v :: t, k, s =>
      go t (k + 1) (s.putUnit (addr + (k / cols * pitch + k % cols) * e) (leBytes e v.toNat))
  go cs 0 s

def codesOf (P : Prec) (l : List FVal) : List W64 := l.map (fun v => BitVec.ofNat 64 (codeP P v))
def valsOf (P : Prec) (l : List W64) : List FVal := l.map (fun c => valP P c.toNat)

/-- OUT written (R272, R288). -/
def State.writeOut (s : State) (d : JobDesc) (cs : List W64) : State :=
  let (_, c) := jOutShape d
  s.writeCodes (jE d) (jOut d) c (if jInPlace d ∧ jLda d ≠ 0 then jLda d else c) cs

/-- OUT holds a partial factor whose values are open (R288). -/
def State.partialOut (s : State) (d : JobDesc) : State :=
  let (r, c) := jOutShape d
  (s.writeOut d ((List.range (r * c)).map (fun k =>
    BitVec.ofNat 64 (ofLe ((List.range 8).map (fun i => Config.undefinedByte s.freeCtr (8 * k + i))))))).fresh

/-- The work region past the job's context takes what the engine works on; its layout is open (R273, R279). -/
def State.useWork (s : State) (d : JobDesc) : State := s.scribble (jWork d + 4096) (jWorkBytes d - 4096)

/-- The slot that a job keeps its results in, written and rebound (R283). -/
def State.keepSlot (s : State) (j : RootJob) (cs : List W64) : State :=
  let d := j.desc
  if !jKept d then s
  else
    let s := if jSlotBuf d = jOut d then s else s.writeCodes (jE d) (jSlotBuf d) (jCols d) (jCols d) cs
    s.modEngine j.lead (fun e => e.modSlot (jSlot d) (fun w => { w with
      valid := true, buf := BitVec.ofNat 48 (jSlotBuf d), op := BitVec.ofNat 8 (jOp d), prec := j32 d,
      order := BitVec.ofNat 32 (jN d), cols := BitVec.ofNat 32 (jCols d), iters := BitVec.ofNat 32 j.iters, job := j.seq,
      residual := j.residual }))

/-- An iterate written to OUT and kept (R283, R288). -/
def State.writeIterate (s : State) (j : RootJob) : State :=
  let j := s.jobNow j
  (s.writeOut j.desc j.x).keepSlot j j.x

/-! ## Ending (R287 to R292, R294) -/

/-- A slot's class matches a job (R284). -/
def WarmSlot.fits (w : WarmSlot) (d : JobDesc) : Bool :=
  w.valid && ((w.op.toNat == opEig) == (jOp d == opEig)) && w.prec == j32 d && w.order.toNat == jN d && w.cols.toNat == jCols d

/-- Canonical NaN of FP64. -/
def nan64 : W64 := 0x7FF8000000000000

/-- What a result record says (R291): OUT was left as it was, and RESIDUAL. -/
structure Ending where
  status : Status
  converged : Bool := false
deriving DecidableEq, Repr

/-- OUT holds a whole iterate of the job (R288). -/
def RootJob.hasIterate (j : RootJob) : Bool := j.haveIterate && !jDirect j.desc

/-- The 64 bytes of a result record (R291). -/
def resultRecord (j : RootJob) (e : Ending) (now : Nat) : List Byte :=
  let ok := decide (e.status = .ok)
  let prev := !ok && !j.hasIterate
  leBytes 64 (pack [(0, 16, statusCode e.status), (16, 1, bit ok), (17, 1, bit (ok && e.converged)), (18, 1, bit j.warmUsed),
    (19, 1, bit (prev && !(jInPlace j.desc && j.started))), (32, 32, j.iters),
    (64, 64, if prev then nan64.toNat else if jDirect j.desc then 0 else j.residual.toNat),
    (128, 32, j.pivotRepl), (160, 32, j.firstRepl.toNat), (192, 16, j.preempted), (208, 16, j.evals), (224, 32, j.seq.toNat),
    (256, 48, j.startAt), (304, 48, now), (352, 64, if jOp j.desc = opLm then j.lambda.toNat else 0), (416, 32, jTag j.desc)])

/-- A ROOT notice (R292). -/
def State.rootNotice (s : State) (q t : Nat) (d : JobDesc) (prio : Nat) (st : Status) (valid : Bool) (seq iters : Nat) : State :=
  s.raise [q] kRoot (.troupe t) st (jTag d)
    (payload32 [(0, 8, jOp d), (8, 2, prio), (10, 1, bit valid), (32, 32, seq), (64, 48, jRes d), (128, 32, iters)])

/-- A reply for a Core that was reset since it asked: discarded (R294, R433). -/
def State.discardReply (s : State) (c kind : Nat) (oldGen newGen : Nat) (peer : UnitName) : State :=
  (s.modStage (stageOfCore c) (fun x => { x with discarded := satInc x.discarded })).discardNotice c kind oldGen newGen peer

/-- A ROOT cue completes (R90, R291): flag 7 where the status is not OK, then its signal; the status is recorded for a replay (R107). -/
def State.rootCueEnds (s : State) (c : Nat) (seq : BitVec 32) (st : Status) : State :=
  match (s.core c).rootCues.find? (fun (_, q) => q == seq) with
  | none => s
  | some (cue, _) =>
    (s.modCore c (fun x =>
      (Core.effectEnds { x with rootCues := x.rootCues.filter (fun (_, q) => q != seq) } (xferRef cue.num) st []).modP
        (fun p => p.flagIf (decide (st ≠ .ok)) flagRoot))).signal c cue.signal

/-- A status that comes while the Core is under takeover waits in its replayed effects (R107, R294). -/
def Core.recordReplay (x : Core) (seq : BitVec 32) (st : Status) : Core :=
  let go := fun (e : Effect) => if e.status = none ∧ e.words = [seq.setWidth 64] then { e with status := some st } else e
  { x with effects := x.effects.map go, replayEffects := x.replayEffects.map go }

/-- The submitter of a job learns of its end (R255, R291, R294, R372). -/
def State.tellSubmitter (s : State) (j : RootJob) (st : Status) (record : List Byte) : State :=
  match j.submitter with
  | .core c gen =>
    if gen ≠ (s.core c).resetGen then s.discardReply c 4 gen.toNat (s.core c).resetGen.toNat (s.nameOf (.troupe j.lead))
    else (s.rootCueEnds c j.seq st).modCore c (fun x => x.recordReplay j.seq st)
  | .conservator n i => s.refreshJobEnds n i j.seq st
  | .command k => s.workEnds k st [.data record]

/-- A job leaves its engines; its unit, stage, slot and optimiser region are free. -/
def RootEng.forget (e : RootEng) (seq : BitVec 32) : RootEng :=
  { e with
    jobs := e.jobs.filter (fun j => j.seq != seq)
    gangWait := e.gangWait && e.running != some seq
    running := if e.running = some seq then none else e.running
    asmJob := if e.asmJob = some seq then none else e.asmJob
    optHolder := if e.optHolder = some seq then none else e.optHolder
    slots := e.slots.map (fun (k, w) => (k, if w.busy = some seq then { w with busy := none } else w)) }

def State.forgetJob (s : State) (seq : BitVec 32) : List Nat → State
  | [] => s
  | t :: r => State.forgetJob (s.modEngine t (fun e => e.forget seq)) seq r

/-- Counters of an ending (R295). -/
def RootEng.countEnd (e : RootEng) (j : RootJob) (x : Ending) : RootEng :=
  let e := { e with jobsDone := satInc e.jobsDone, pivotReplaced := satInc e.pivotReplaced j.pivotRepl }
  match x.status with
  | .ok => if x.converged then e else { e with iterLimits := satInc e.iterLimits }
  | .deadlineMiss => { e with deadlineMisses := satInc e.deadlineMisses }
  | .singular => { e with singulars := satInc e.singulars }
  | .numeric => { e with numerics := satInc e.numerics }
  | _ => e

/-- Eigenvalues go to B where it is set (R273). -/
def State.writeEigvals (s : State) (j : RootJob) : State :=
  if jOp j.desc = opEig ∧ jB j.desc ≠ 0 then s.writeCodes (jE j.desc) (jB j.desc) (jN j.desc) (jN j.desc) j.b else s

/-- A job ends: OUT and slot of a direct job that is OK, the record, counters, notice, submitter (R288, R291, R292). -/
def State.endJob (s : State) (j : RootJob) (x : Ending) : State :=
  let j := s.jobNow j
  let s := if x.status = .ok ∧ jDirect j.desc then ((s.writeOut j.desc j.x).writeEigvals j).keepSlot j j.x
    else if jInPlace j.desc ∧ jDirect j.desc ∧ j.started then s.partialOut j.desc else s
  let rec' := resultRecord j x (s.troupeTimer j.lead)
  let s := if j.optimiser then s else s.putUnit (jRes j.desc) rec'
  let s := (s.modEngine j.lead (fun e => e.countEnd j x)).forgetJob j.seq j.members
  let s := if jNotify j.desc then s.rootNotice (jNq j.desc) j.lead j.desc j.priority.toNat x.status (x.status = .ok) j.seq.toNat j.iters else s
  s.tellSubmitter j x.status rec'

/-! ## Feeds (R279 to R282) -/

/-- One residual row: its residual and its coefficients by unknown, as FP64 codes. -/
structure FeedRow where
  r  : Nat
  cs : List (Nat × Nat)
deriving DecidableEq, Repr

/-- Blocks: first unknown, width, whether a point (R281). -/
def State.blockTable (s : State) (d : JobDesc) : List (Nat × Nat × Bool) :=
  let rec go : Nat → Nat → Nat → List (Nat × Nat × Bool)
    | 0, _, _ => []
    | n + 1, k, at_ =>
      let v := s.num (jBlocksAddr d + 8 * k) 8
      let w := bitsOf v 5 0 + 1
      (at_, w, bitOf v 6) :: go n (k + 1) (at_ + w)
  go (jBlocks d) 0 0

/-- The block table covers the unknowns, by the rules of SCHUR where it applies (R281). -/
def blocksOk (d : JobDesc) (bs : List (Nat × Nat × Bool)) : Bool :=
  (bs.map (fun (_, w, _) => w)).foldl (· + ·) 0 == jN d &&
  (jAsm d != 3 || bs.all (fun (_, w, p) => if p then w == 3 else decide (w ≤ 16)))

/-- A group of a region: its rows, blocks and length in bytes (R280); none where it breaks R281. -/
def State.group1 (s : State) (bs : List (Nat × Nat × Bool)) (a left : Nat) : Option (List FeedRow × Nat × Nat) :=
  let h := s.num a 64
  let r := bitsOf h 5 0 + 1
  let nb := bitsOf h 8 6 + 1
  let ids := (List.range nb).map (fun i => bitsOf h (95 + 32 * i) (64 + 32 * i))
  let names := ids.map (fun i => nth (0, 0, false) bs i)
  let w := (names.map (fun (_, w, _) => w)).foldl (· + ·) 0
  let size := roundUp (64 + 8 * r * (1 + w)) 64
  if left < size ∨ ids.any (fun i => decide (bs.length ≤ i)) ∨ (names.filter (fun (_, _, p) => p)).length > 1 then none
  else
    let row := fun (i : Nat) =>
      let rec cols : List (Nat × Nat × Bool) → Nat → List (Nat × Nat)
        | [], _ => []
        | (u, w, _) :: t, base =>
          (List.range w).map (fun k => (u + k, s.num (base + 8 * (i * w + k)) 8)) ++ cols t (base + 8 * r * w)
      { r := s.num (a + 64 + 8 * i) 8, cs := cols names (a + 64 + 8 * r) : FeedRow }
    let fmas := ((List.range nb).map (fun i => ((List.range (nb - i)).map (fun k =>
        r * (nth (0, 0, false) names i).2.1 * (nth (0, 0, false) names (i + k)).2.1)).foldl (· + ·) 0 +
      r * (nth (0, 0, false) names i).2.1)).foldl (· + ·) 0
    some ((List.range r).map row, size, fmas)

/-- The groups of a region, end to end. -/
def State.groups (s : State) (bs : List (Nat × Nat × Bool)) : Nat → Nat → Nat → Option (List FeedRow × Nat)
  | 0, _, _ => some ([], 0)
  | fuel + 1, a, left =>
    if left = 0 then some ([], 0)
    else match s.group1 bs a left with
      | none => none
      | some (rows, size, f) => match State.groups s bs fuel (a + size) (left - size) with
        | none => none
        | some (more, g) => some (rows ++ more, f + g)

/-- The whole feed, and the fused multiply-adds NORMAL needs (R279, R280). -/
def State.feed (s : State) (d : JobDesc) : Except Status (List FeedRow × Nat) :=
  let bs := s.blockTable d
  if !(blocksOk d bs) then .error .badParam
  else
    let rec go : Nat → Nat → Except Status (List FeedRow × Nat)
      | 0, _ => .ok ([], 0)
      | n + 1, k =>
        let e := jFeedAddr d + 16 * k
        let a := s.num e 8
        let len := s.num (e + 8) 4
        if len % 64 ≠ 0 ∨ (0 < len ∧ !regionOk (a, len)) then .error .badParam
        else match s.readStatus .unit a len with
          | some _ => .error .integrity
          | none => match s.groups bs (len / 64) a len with
            | none => .error .badParam
            | some (rows, f) => match go n (k + 1) with
              | .error e => .error e
              | .ok (more, g) => .ok (rows ++ more, f + g)
    go (jFeeds d) 0

/-- Coefficient of an unknown in a row. -/
def FeedRow.at (r : FeedRow) (u : Nat) : Option FVal := (r.cs.find? (fun (k, _) => k == u)).map (fun (_, c) => f64 c)

/-- A row converted to the compute format as it is read (R272). -/
def FeedRow.read (P : Prec) (r : FeedRow) : FVal × List (Nat × FVal) := (rp P (f64 r.r), r.cs.map (fun (u, c) => (u, rp P (f64 c))))

/-- H := JᵀJ, g := Jᵀr, f := ½‖r‖² (R278, R279). -/
def normalOf (P : Prec) (n : Nat) (feed : List FeedRow) : Mat × List FVal × FVal :=
  let rows := feed.map (FeedRow.read P)
  let of := fun (r : FVal × List (Nat × FVal)) (u : Nat) => (r.2.find? (fun (k, _) => k == u)).map (·.2)
  let pairs := fun i j => rows.filterMap (fun r => match of r i, of r j with
    | some a, some b => some (a, b)
    | _, _ => none)
  let h := matOf n n (fun i j => if j ≤ i then dotP P FVal.zero (pairs i j) else dotP P FVal.zero (pairs j i))
  let g := (List.range n).map (fun i => dotP P FVal.zero (rows.filterMap (fun r => (of r i).map (fun a => (a, r.1)))))
  let f := rp P ((dotP P FVal.zero (rows.map (fun r => (r.1, r.1)))).scale (-1))
  (h, g, f)

/-- A group names both of two blocks that begin at these unknowns. -/
def coupled (rows : List FeedRow) (u v : Nat) : Bool := rows.any (fun r => (r.at u).isSome && (r.at v).isSome)

def feedFinite (rows : List FeedRow) : Bool := rows.all (fun r => (f64 r.r).isFin && r.cs.all (fun (_, c) => (f64 c).isFin))

/-- The packed factor of A_ADDR made full and symmetric, with ε on the diagonal (R279). -/
def State.kron (s : State) (P : Prec) (d : JobDesc) : Except Status Mat :=
  let n := jN d
  let tb := n / 64
  match s.readStatus .unit (jA d) (packedBytes n) with
  | some _ => .error .integrity
  | none =>
    let el := fun (i j : Nat) =>
      let (lo, hi) := if i / 64 ≤ j / 64 then (i, j) else (j, i)
      let a := lo / 64
      f32 (s.num (jA d + 16384 * (a * tb - a * (a - 1) / 2 + hi / 64 - a) + 4 * (64 * (lo % 64) + hi % 64)) 4)
    .ok (matOf n n (fun i j => if i = j then rp P ((rp P (el i i)).add (rp P (jEps d))) else rp P (el i j)))

/-! ## Assembly (R279, R282, R293) -/

/-- The arrival word. -/
def State.arrivals (s : State) (d : JobDesc) : Nat := s.num (jArrived d) 8

/-- A job the Assembly stage can begin or resume. -/
def State.assemblable (s : State) (t : Nat) (j : RootJob) : Bool :=
  let j := s.jobNow j
  decide (j.asm ≠ .complete) && j.ended.isNone && j.lead == t && (!jLoop j.desc || j.waitEval) &&
  (jArrived j.desc == 0 || decide (jExpect j.desc ≤ s.arrivals j.desc)) &&
  (!j.optimiser || (s.engine t).optHolder.all (fun q => q == j.seq))

/-- The job ends with a status as soon as ROOT_JOB_END comes. -/
def RootJob.fails (j : RootJob) (st : Status) : RootJob := { j with ended := some (st, false) }

/-- The stage begins a job: overrun and a feed that breaks R281 end it (R281, R282). -/
def State.beginAsm (s : State) (t : Nat) (j : RootJob) : State :=
  let j := s.jobNow j
  let d := j.desc
  if j.asm = .working then s.modEngine t (fun e => { e with asmJob := some j.seq })
  else if jArrived d ≠ 0 ∧ jExpect d < s.arrivals d then s.modJob j (fun j => j.fails .badParam)
  else
    let bad := if jAsm d = 2 ∨ jAsm d = 3 then match s.feed d with
        | .error st => some st
        | .ok _ => none
      else none
    match bad with
    | some st => s.modJob j (fun j => j.fails st)
    | none => (s.modEngine t (fun e => { e with
        asmJob := some j.seq, optHolder := if j.optimiser then some j.seq else e.optHolder })).modJob j
          (fun j => { j with asm := .working, asmGroup := 0 })

/-- ROOT_ASSEMBLY_START: the highest-ranked job whose feed is complete, or a preempted one, is taken up (R282, R285, R286). -/
def execRootAssemblyStart (t : TroupeNo) (s : State) : Out1 :=
  if (s.engine t.val).asmJob.isSome then .next s
  else match bestJob ((s.engine t.val).jobs.filter (s.assemblable t.val)) with
    | none => .next s
    | some j => .next (s.beginAsm t.val j)

/-- Unknowns of the camera blocks. -/
def cameraOrder (bs : List (Nat × Nat × Bool)) : Nat := ((bs.filter (fun (_, _, p) => !p)).map (fun (_, w, _) => w)).foldl (· + ·) 0

/-- Bytes of work that the operation needs with the blocks and the feed it has (R273, R281): stored block pairs of NORMAL under PCG,
residuals of LSQR, the reduced system, point blocks and camera-point pairs of SCHUR. -/
def asmWork (d : JobDesc) (bs : List (Nat × Nat × Bool)) (rows : List FeedRow) : Nat :=
  let sum := fun (l : List Nat) => l.foldl (· + ·) 0
  if jOp d = opPcg ∧ jAsm d = 2 then
    jWorkMin d + sum (bs.map (fun (u, w, _) => sum ((bs.filter (fun (v, _, _) => decide (v ≤ u) && coupled rows u v)).map
      (fun (_, w', _) => 8 * w * w'))))
  else if jOp d = opLsqr then jWorkMin d + 16 * rows.length
  else if jAsm d = 3 then
    let pts := bs.filter (fun (_, _, p) => p)
    jWorkMin d + 16 * cameraOrder bs * cameraOrder bs + 72 * pts.length +
      sum (pts.map (fun (u, _, _) => sum ((bs.filter (fun (v, _, p) => !p && coupled rows u v)).map (fun (_, w, _) => 96 * w))))
  else jWorkMin d

/-- Fused multiply-adds of the elimination of points under SCHUR (R279). -/
def schurFmas (bs : List (Nat × Nat × Bool)) (rows : List FeedRow) : Nat :=
  let pts := bs.filter (fun (_, _, p) => p)
  let cams := bs.filter (fun (_, _, p) => !p)
  (pts.map (fun (u, _, _) =>
    let seen := (cams.filter (fun (v, _, _) => coupled rows u v)).map (fun (_, w, _) => w)
    27 + ((List.range seen.length).map (fun i => ((seen.drop i).map (fun w' => 9 * nth 0 seen i + 3 * nth 0 seen i * w')).foldl (· + ·) 0 +
      3 * nth 0 seen i)).foldl (· + ·) 0)).foldl (· + ·) 0

/-- What an assembly produces, in the job and its work region (R279). -/
def State.assembleNow (s : State) (j : RootJob) : State :=
  let d := j.desc
  let count := fun (s : State) (f : Nat) => s.modEngine j.lead (fun e => { e with assemblySteps := satInc e.assemblySteps (ceilDiv f 256) })
  if jAsm d = 0 then s.modJob j (fun j => { j with asm := .complete, waitEval := false })
  else if jAsm d = 1 then match s.kron j.prec d with
    | .error st => (s.countFirst [(jA d, packedBytes (jN d))]).modJob j (fun j => j.fails st)
    | .ok a =>
      if !allFinite a.flat then s.modJob j (fun j => j.fails .numeric)
      else (s.useWork d).modJob j (fun j => { j with asm := .complete, m := codesOf j.prec a.flat })
  else match s.feed d with
    | .error st => s.modJob j (fun j => j.fails st)
    | .ok (rows, fmas) =>
      let s := count s (fmas + (if jAsm d = 3 then schurFmas (s.blockTable d) rows else 0))
      if !feedFinite rows then s.modJob j (fun j => j.fails .numeric)
      else if jWorkBytes d < asmWork d (s.blockTable d) rows ∨ (jAsm d = 3 ∧ 16384 < cameraOrder (s.blockTable d)) then
        s.modJob j (fun j => j.fails .badParam)
      else
        let P := j.prec
        let (h, g, f) := normalOf P (jN d) rows
        if !allFinite h.flat || !allFinite g || !f.isFin then s.modJob j (fun j => j.fails .numeric)
        else if jLoop d then (s.useWork d).modJob j (fun j => { j with
          asm := .complete, waitEval := false, m1 := codesOf P h.flat, b1 := codesOf P g, f1 := BitVec.ofNat 64 (r64 f) })
        else
          let a := matOf (jN d) (jN d) (fun i k => if i = k then rp P ((h.at i k).add (rp P (jDamp d))) else h.at i k)
          if !allFinite a.flat then s.modJob j (fun j => j.fails .numeric)
          else (s.useWork d).modJob j (fun j => { j with asm := .complete, m := codesOf P a.flat, b := codesOf P g })

/-- ROOT_ASSEMBLY_COMPLETE (R279, R285). -/
def execRootAssemblyComplete (t : TroupeNo) (s : State) : Out1 :=
  match (s.engine t.val).asmJob with
  | none => .next s
  | some q => match (s.engine t.val).job q with
    | none => .next (s.modEngine t.val (fun e => { e with asmJob := none }))
    | some j => .next ((s.modEngine t.val (fun e => { e with asmJob := none })).assembleNow (s.jobNow j))

/-- ASSEMBLY_GROUP_END: a job with a deadline that outranks the one the stage serves takes the stage (R286). -/
def execAssemblyGroupEnd (t : TroupeNo) (s : State) : Out1 :=
  match (s.engine t.val).asmJob with
  | none => .next s
  | some q => match (s.engine t.val).job q with
    | none => .next s
    | some j =>
      let s := s.modJob j (fun j => { j with asmGroup := j.asmGroup + 1 })
      match bestJob ((s.engine t.val).jobs.filter (fun k => k.seq != q && s.assemblable t.val k && k.deadline.isSome && k.before j)) with
      | none => .next s
      | some k => .next ((s.modEngine t.val (fun e => { e with asmJob := none })).beginAsm t.val k)

/-! ## Iterations -/

def RootJob.mat (j : RootJob) (l : List W64) (r c : Nat) : Mat := rowsOf r c (valsOf j.prec l)

/-- A symmetric matrix from its lower triangle (R272). -/
def symmetric (n : Nat) (a : Mat) : Mat := matOf n n (fun i j => if j ≤ i then a.at i j else a.at j i)

/-- The inputs of a job: A as it is computed on, and its right-hand sides (R272, R279). -/
def State.inputs (s : State) (j : RootJob) : Except Status (List Nat × List Nat) :=
  let d := j.desc
  if jLoop d ∨ jOp d = opLsqr then .ok ([], [])
  else if jAsm d ≠ 0 then .ok (j.m.map (·.toNat), if jAsm d = 1 then [] else j.b.map (·.toNat))
  else match (if jOp d = opQr ∨ jOp d = opNs then s.readCodes (jE d) (jA d) (jM d) (jN d) (if jLda d = 0 then jN d else jLda d)
      else s.readLower (jE d) (jA d) (jN d) (if jLda d = 0 then jN d else jLda d)) with
    | .error _ => .error .integrity
    | .ok a =>
      if jOp d = opEig ∨ jOp d = opInvroot ∨ jOp d = opNs ∨ jNrhs d = 0 then .ok (a, [])
      else match s.readCodes (jE d) (jB d) (jRowsA d) (jNrhs d) (jNrhs d) with
        | .error _ => .error .integrity
        | .ok b => .ok (a, b)

/-- Right-hand sides given by KRON assembly come from memory as for NONE. -/
def State.kronRhs (s : State) (j : RootJob) : Except Status (List Nat) :=
  let d := j.desc
  if jAsm d = 1 ∧ (jOp d ≤ 2 ∨ jOp d = opPcg) ∧ 0 < jNrhs d then
    match s.readCodes (jE d) (jB d) (jN d) (jNrhs d) (jNrhs d) with
    | .error _ => .error .integrity
    | .ok b => .ok b
  else .ok []

/-- The starting point of a warm job, and whether it is warm (R284). -/
def State.warmStart (s : State) (j : RootJob) : Except Status (Option (List Nat)) :=
  let d := j.desc
  let rows := jN d
  if jWarm d = 2 then (s.readCodes (jE d) (jWarmAddr d) rows (jCols d) (jCols d)).map some
  else if jWarm d = 1 then
    let w := (s.engine j.lead).slot (jSlot d)
    if w.fits d then (s.readCodes (jE d) w.buf.toNat rows (jCols d) (jCols d)).map some else .ok none
  else .ok none

/-- A stop test of R277: what RESIDUAL reports, whether the test is met, and whether every operation of it was finite (R289). -/
structure StopTest where
  residual : FVal := FVal.zero
  met      : Bool := true
  finite   : Bool := true
deriving DecidableEq, Repr

/-- A left-hand side against a right-hand norm: their quotient, and the test against a bound. A right-hand norm of zero gives no finite
quotient and ends nothing. -/
def stopTest (P : Prec) (left right bound : FVal) : StopTest :=
  let q := if right.isZero then left.div right else rp P (left.div right)
  { residual := q, met := left.isFin && bound.isFin && !bound.lt left, finite := left.isFin && bound.isFin && (right.isZero || q.isFin) }

/-- The residual of a solution (R277): ‖b − Ax‖ over ‖b‖. -/
def pcgResidual (P : Prec) (tol : FVal) (a : Mat) (b x : List FVal) : StopTest :=
  let r := norm2 P ((List.range b.length).map (fun i =>
    dotP P (nth FVal.zero b i) ((nth [] a i).zip (x.map FVal.neg))))
  stopTest P r (norm2 P b) (rp P (tol.mul (norm2 P b)))

/-- The worst of the columns of a solution. -/
def pcgAll (P : Prec) (tol : FVal) (a b x : Mat) (k : Nat) : StopTest :=
  ((List.range k).map (fun c => pcgResidual P tol a (nth [] (b.trans k) c) (nth [] (x.trans k) c))).foldl
    (fun m t => {
      residual := if m.residual.lt t.residual || t.residual.isNan then t.residual else m.residual
      met := m.met && t.met, finite := m.finite && t.finite }) {}

/-- LSQR's residual and test (R277). -/
def lsqrResidual (P : Prec) (n : Nat) (tol δ : FVal) (rows : List FeedRow) (x : List FVal) : StopTest :=
  let res := rows.map (fun r => dotP P (f64 r.r).neg (r.cs.map (fun (u, c) => (f64 c, nth FVal.zero x u))))
  let grad := norm2 P ((List.range n).map (fun u =>
    dotP P FVal.zero ((δ, nth FVal.zero x u) :: (rows.zip res).filterMap (fun (r, v) => (r.at u).map (fun a => (a, v))))))
  let jf := norm2 P (rows.map (fun r => r.cs.map (fun (_, c) => f64 c))).flatten
  stopTest P grad (rp P (jf.mul (norm2 P res))) (rp P ((rp P (tol.mul jf)).mul (norm2 P res)))

/-- The rows of a feed for LSQR's iterates. -/
def lsqrX (d : JobDesc) (rows : List FeedRow) (x0 : List Nat) (k : Nat) : List Nat :=
  Config.lsqrIterate (fld d 703 640) (rows.map (·.cs)) (rows.map (·.r)) x0 k

/-- A residual as the record shows it. -/
def res64 (v : FVal) : W64 := BitVec.ofNat 64 (r64 v)

/-- Boundaries of a direct job (R274). -/
def RootJob.panels (j : RootJob) : Nat :=
  let d := j.desc
  let base := max 1 (ceilDiv (jN d) 128)
  if jOp d = opEig then base + Config.eigSweeps j.prec.tag (jN d) (j.m.map (·.toNat)) else base

/-- A job after a stop test of R277: NUMERIC where it overflowed, else its residual, and its end where it is met. -/
def RootJob.tested (j : RootJob) (t : StopTest) : RootJob :=
  if !t.finite then j.fails .numeric
  else { j with residual := res64 t.residual, ended := if t.met then some (.ok, true) else none }

/-- A given matrix with ε on its diagonal, where no assembly has added it (R275, R279). -/
def RootJob.given (j : RootJob) : Mat :=
  let d := j.desc
  let p := j.prec
  let a := symmetric (jN d) (j.mat j.m (jN d) (jN d))
  if jOp d = opInvroot ∧ jAsm d ≠ 1 then matOf (jN d) (jN d) (fun i k => if i = k then rp p ((a.at i k).add (rp p (jEps d))) else a.at i k) else a

/-- Pivots of a factorisation noted in the job. -/
def RootJob.notePivots (j : RootJob) (p : Pivots) : RootJob :=
  { j with pivotRepl := j.pivotRepl + p.repl, firstRepl := if j.pivotRepl = 0 ∧ j.firstRepl = 0xFFFFFFFF then p.first else j.firstRepl }

/-- The preconditioner of a PCG job (R277, R290): of block Jacobi the inverse of every block, or the job's end. -/
def RootJob.precondition (j : RootJob) (bs : List (Nat × Nat)) : RootJob :=
  let d := j.desc
  let p := j.prec
  let a := j.given
  if jPrecond d ≠ 2 then j
  else
    let (l, piv) := blockJacobi p (jStrict d) (pivotTheta p (rp p (jTauOf d)) (diagMax a)) a bs
    let j := j.notePivots piv
    if piv.singular then { j.fails .singular with firstRepl := piv.first }
    else if !l.all (fun m => allFinite m.flat) then j.fails .numeric
    else { j with blocks := l.map (fun m => codesOf p m.flat) }

/-- The first iterate of a job that starts (R275 to R278, R284): what it ends with at once, or the job as it runs on. -/
def RootJob.firstIterate (j : RootJob) (bs : List (Nat × Nat)) (rows : List FeedRow) (warm : Option (List Nat)) : RootJob :=
  let d := j.desc
  let n := jN d
  let p := j.prec
  let tol := rp p (jTolOf d)
  let start := (warm.getD (List.replicate (n * jCols d) 0))
  let x0 : List W64 := start.map (BitVec.ofNat 64 ·)
  if jOp d = opInvroot then
    let a := j.given
    let c := norm2 p a.flat
    let r := invRootOf p (jPLog d) c
    if c.isZero then { j with ended := some (.singular, false), firstRepl := 0 }
    else if !c.isFin || !r.isFin then j.fails .numeric
    else
      let m : Mat := a.map (fun r => r.map (fun v => rp p (v.div c)))
      { j with
        x := codesOf p ((identity n).flat.map (fun v => if v.isZero then v else r))
        m := codesOf p m.flat, haveIterate := true, lastDev := res64 (deviation p n m), residual := res64 (deviation p n m) }
  else if jOp d = opNs then
    let a := j.mat j.m (jM d) n
    let den := rp p ((norm2 p a.flat).add (rp p (jEps d)))
    if den.isZero then { j with ended := some (.singular, false), firstRepl := 0 }
    else if !den.isFin then j.fails .numeric
    else { j with x := codesOf p (a.flat.map (fun v => rp p (v.div den))), haveIterate := true, residual := 0 }
  else if jOp d = opPcg then
    let k := jCols d
    let j := j.precondition bs
    if j.ended.isSome then j
    else RootJob.tested { j with x := x0, trial := x0, haveIterate := true } (pcgAll p tol j.given (j.mat j.b n k) (j.mat x0 n k) k)
  else if jOp d = opLsqr then
    RootJob.tested { j with x := x0, trial := x0, haveIterate := true } (lsqrResidual p n (jTolOf d) (jDamp d) rows (valsOf p x0))
  else if jLoop d then { j with x := x0, haveIterate := true, residual := Config.unevaluated }
  else { j with trial := x0 }

/-- Largest diagonal magnitude zero (R289): the symmetric operations; largest column norm zero for QR. -/
def RootJob.zeroD (j : RootJob) : Bool :=
  let d := j.desc
  let n := jN d
  if jOp d = opQr then
    ((j.mat j.m (jM d) n).trans n).all (fun c => (norm2 j.prec c).isZero)
  else if jOp d = opNs ∨ jOp d = opLsqr ∨ jLoop d then false
  else (diagMax j.given).isZero

/-- A GN or LM job asks for an evaluation at a point (R282). -/
def State.requestEval (s : State) (j : RootJob) (x : List W64) : State :=
  let d := j.desc
  let s := s.writeCodes 8 (jEvalX d) (max 1 (jN d)) (max 1 (jN d)) x
  let s := if jArrived d = 0 then s else s.writeCodes 8 (jArrived d) 1 1 [0]
  let s := s.modJob j (fun j => { j with asm := .notStarted, waitEval := true, evals := j.evals + 1 })
  (s.setRunning none false j.members).signalUnit (jEvalRef d) (jEvalTok d) 0

/-- A job takes its slot and its start (R283, R284, R289). -/
def State.takeStart (s : State) (j : RootJob) : State :=
  let d := j.desc
  let s := if jClear d then s.modEngine j.lead (fun e => e.modSlot (jSlot d) (fun w => { w with valid := false })) else s
  let s := if jUsesSlot d then s.modEngine j.lead (fun e => e.modSlot (jSlot d) (fun w => { w with busy := some j.seq })) else s
  let s := s.modJob j (fun j => { j with started := true, startAt := s.troupeTimer j.lead })
  let rows : Except Status (List FeedRow) := if jOp d = opLsqr then (s.feed d).map (·.1) else .ok []
  let bs := s.blockTable d
  match s.inputs j, s.kronRhs j, s.warmStart j, rows with
  | .ok _, .ok _, .ok _, .error st => s.modJob j (fun j => j.fails st)
  | .ok (a, b), .ok b', .ok w, .ok rows =>
    let p := j.prec
    let vals := (a ++ b ++ b' ++ w.getD []).map (valP p)
    let j1 : RootJob := { j with
      started := true, startAt := s.troupeTimer j.lead, warmUsed := w.isSome
      m := a.map (BitVec.ofNat 64 ·), b := (if b'.isEmpty then b else b').map (BitVec.ofNat 64 ·) }
    let j2 := if (jOp d = opPcg ∧ jPrecond d = 2 ∧ !blocksOk d bs) ∨ (jOp d = opLsqr ∧ jWorkBytes d < asmWork d bs rows) then j1.fails .badParam
      else if !allFinite vals || !feedFinite rows then j1.fails .numeric
      else if j1.zeroD then { j1 with ended := some (.singular, false), firstRepl := 0 }
      else j1.firstIterate (bs.map (fun (u, w, _) => (u, w))) rows w
    let s := s.modJob j (fun _ => j2)
    if j2.haveIterate then s.writeIterate j2 else s
  | _, _, _, _ => (s.countFirst (jRegions d false)).modJob j (fun j => j.fails .integrity)

/-- Blocks split into camera unknowns and points (R281). -/
def splitBlocks (bs : List (Nat × Nat × Bool)) : List Nat × List (List Nat) :=
  (((bs.filter (fun (_, _, p) => !p)).map (fun (u, w, _) => (List.range w).map (u + ·))).flatten,
   (bs.filter (fun (_, _, p) => p)).map (fun (u, w, _) => (List.range w).map (u + ·)))

/-- The assembled matrix H + δI (R279). -/
def RootJob.assembledH (j : RootJob) : Mat := damped j.prec (jN j.desc) FVal.zero (jDamp j.desc) (j.mat j.m (jN j.desc) (jN j.desc))

/-- The step d of GN or LM: (H + λ diag(H) + δI) d = −g, and its pivots (R278, R279). -/
def State.stepOf (s : State) (j : RootJob) : List FVal × Pivots :=
  let d := j.desc
  let n := jN d
  let P := j.prec
  let a := damped P n (f64 j.lambda.toNat) (jDamp d) (j.mat j.m n n)
  let rhs := (valsOf P j.b).map FVal.neg
  let τ := jTauOf d
  let θ := pivotTheta P τ (diagMax j.assembledH)
  if jAsm d = 3 then
    let (cams, pts) := splitBlocks (s.blockTable d)
    let (ps, piv) := schurStep P (jStrict d) τ cams pts a rhs
    ((List.range n).map (fun u => ((ps.find? (fun (k, _) => k == u)).map (·.2)).getD FVal.zero), piv)
  else if n ≤ 16384 then
    let f := factor P false (jStrict d) θ a
    (f.solve P false rhs, f.piv)
  else
    let (l, piv) := blockJacobi P (jStrict d) θ a ((s.blockTable d).map (fun (u, w, _) => (u, w)))
    if l.all (fun m => allFinite m.flat) then ((Config.innerPcg (l.map (fun m => m.flat.map r64)) (a.flat.map r64) (rhs.map r64)).map f64, piv)
    else ([.nan], piv)

/-- The next trial point of GN or LM: d is solved for and x + d is evaluated, or the job ends (R278, R289, R290). -/
def State.nextTrial (s : State) (j : RootJob) : State :=
  let (dv, piv) := s.stepOf j
  let s := s.modJob j (fun j => j.notePivots piv)
  if piv.singular then s.modJob j (fun j => { j.fails .singular with firstRepl := piv.first })
  else if (diagMax j.assembledH).isZero then
    s.modJob j (fun j => { j.fails .singular with firstRepl := 0 })
  else
    let pt := ((valsOf j.prec j.x).zip dv).map (fun (a, b) => rp j.prec (a.add b))
    if !allFinite dv || !allFinite pt then s.modJob j (fun j => j.fails .numeric)
    else
      let s := s.modJob j (fun j => { j with trial := codesOf j.prec dv })
      s.requestEval (s.jobNow j) (codesOf j.prec pt)

/-- The job runs: a new one starts; a GN or LM job with its first evaluation solves for its step. -/
def State.runJob (s : State) (j : RootJob) : State :=
  let j := s.jobNow j
  if !j.started then
    let s := s.takeStart j
    let j := s.jobNow j
    if jLoop j.desc ∧ j.ended.isNone then s.requestEval j j.x else s
  else if jLoop j.desc ∧ j.evals = 1 then
    let s := s.modJob j (fun j => { j with m := j.m1, b := j.b1, f := j.f1, residual := j.f1 })
    let s := s.writeIterate j
    s.nextTrial (s.jobNow j)
  else if j.resume then
    let s := s.modJob j (fun j => { j with resume := false })
    s.nextTrial (s.jobNow j)
  else s

/-! ## Submission by a cue (R97, R268, R269) -/

/-- A descriptor's bytes (R271). -/
def State.readDesc (s : State) (a : Nat) : Except Status JobDesc :=
  if a % 64 ≠ 0 ∨ !regionOk (a, 256) then .error .badParam
  else match s.readMem .unit a 256 with
    | .error e => .error e
    | .ok b => .ok (BitVec.ofNat 2048 (ofLe b))

/-- A ROOT cue whose submission is refused: flag 7, a ROOT notice, complete at once (R269). -/
def State.rootRefused (s : State) (c : Nat) (cue : CueTag) (ref prio : Nat) (d : JobDesc) (st : Status) : State :=
  let s := s.modCore c (fun x => (x.effectEnds ref st []).modP (fun p => p.raiseFlag flagRoot))
  (s.rootNotice (s.core c).reportQueue.toNat (troupeOfCore c) d prio st false 0 0).signal c cue.signal

/-- A submission reaches its engine (R268, R269); `ref` names its outward effect. -/
def State.submitRoot (s : State) (c : Nat) (cue : CueTag) (ref : Nat) (q : W128) : State :=
  let prio := fld q 25 24
  let own := troupeOfCore c
  match s.readDesc (fld q 73 26) with
  | .error st => ((s.countFirst [(fld q 73 26, 256)]).refuseJob (some own) st).rootRefused c cue ref prio 0 st
  | .ok d =>
    match s.acceptJob d prio (.core c (s.core c).resetGen) (some own) with
    | (s, .error st) => s.rootRefused c cue ref prio d st
    | (s, .ok seq) => s.modCore c (fun x => { x with
        rootCues := x.rootCues ++ [(cue, seq)]
        effects := x.effects.map (fun e => if e.ref = ref ∧ e.status = none then { e with words := [seq.setWidth 64] } else e) })

/-- Submissions of a Core's queue reach their engines in order. -/
def State.submitAll (s : State) (c : Nat) : List (CueTag × Nat × W128) → State
  | [] => s
  | (cue, ref, q) :: t => State.submitAll (s.submitRoot c cue ref q) c t

/-- The queue of ROOT submissions of a Core empties (R97); one under takeover or dark sends none. -/
def State.rootPump (s : State) (c : Nat) : State :=
  let x := s.core c
  if x.dark || x.takeover.isSome then s
  else (s.setCore c { x with rootQueue := [] }).submitAll c x.rootQueue

/-- The same of several Cores. -/
def State.rootPumpAll (s : State) : List Nat → State
  | [] => s
  | c :: t => State.rootPumpAll (s.rootPump c) t

/-- A submission joins its Core's queue, and goes on to its engine at once unless it waits there. -/
def State.queueRoot (s : State) (c : Nat) (cue : CueTag) (ref : Nat) (q : W128) (waits : Bool) : State :=
  let s := s.modCore c (fun x => { x with rootQueue := x.rootQueue ++ [(cue, ref, q)] })
  if waits then s else s.rootPump c

/-- What a ROOT cue does as it issues (R107, R268): on replay a submission that had been accepted completes with its job, one that had
ended at once, one that was lost before an engine accepted it is made again. -/
def State.issueRoot (s : State) (c : Nat) (q : W128) (waits : Bool) : State :=
  let cue : CueTag := { num := s.freeCtr, cls := 6, signal := cueSignal q }
  let (seen, x') := (s.core c).effect (xferRef cue.num)
  let s := (s.setCore c x').fresh
  match seen with
  | some e => match e.status, e.words with
    | none, w :: _ =>
      if (List.range 32).any (fun t => ((s.engine t).job (w.setWidth 32)).isSome) then
        s.modCore c (fun x => { x with rootCues := x.rootCues ++ [(cue, w.setWidth 32)] })
      else s.signal c cue.signal
    | none, [] => s.queueRoot c cue e.ref q waits
    | some st, _ => (s.modCore c (fun x => x.modP (fun p => p.flagIf (decide (st ≠ .ok)) flagRoot))).signal c cue.signal
  | none => s.queueRoot c cue (xferRef cue.num) q waits

/-- ROOT_CUE (R97, R268). -/
def execRootCue (c : CueWait) (s : State) : Out1 :=
  .next (s.attempt c.core.val (fun q => cueClass q == clsRoot) (fun s q _ => s.issueRoot c.core.val q c.waits))

/-! ## Starts and boundaries -/

/-- ROOT_JOB_START: submissions of the Troupe's Cores are taken; the highest-ranked startable job takes the free unit; a member of a gang
waits for the others (R270, R285). -/
def execRootJobStart (t : TroupeNo) (s : State) : Out1 :=
  let s := s.rootPumpAll (coresOfTroupe t.val)
  let e := s.engine t.val
  if (s.troupe t.val).inReset || (e.running.isSome && !e.gangWait) then .next s
  else match s.candidate t.val with
    | none => .next (s.modEngine t.val (fun e => { e with switching := false }))
    | some j =>
      let others := j.members.filter (fun u => u != t.val)
      if others.all (fun u => (s.engine u).gangWait && (s.engine u).running == some j.seq) then
        .next ((s.setRunning (some j.seq) false j.members).runJob j)
      else .next (s.modEngine t.val (fun e => { e with running := some j.seq, gangWait := true, switching := false }))

/-- A direct job's panel (R273, R274, R290): the factor of the columns done so far, and the result after the last. -/
def RootJob.panel (j : RootJob) : RootJob :=
  let d := j.desc
  let n := jN d
  let p := j.prec
  let k := j.iters + 1
  let last := decide (j.panels ≤ k)
  let j' := { j with iters := k }
  let τ := rp p (jTauOf d)
  if jOp d ≤ 2 then
    let ldl := jOp d == opLdlt
    let a := symmetric n (j.mat j.m n n)
    let f := factor p ldl (jStrict d) (pivotTheta p τ (diagMax a)) (a.take (128 * k))
    let j' := { j' with pivotRepl := f.piv.repl, firstRepl := f.piv.first }
    if f.piv.singular then { j' with ended := some (.singular, false), iters := j.iters }
    else if !f.finite then { j' with ended := some (.numeric, false), iters := j.iters }
    else if !last then j'
    else
      let cols := if jAsm d = 2 then 1 else jNrhs d
      let out := if jNrhs d = 0 then f.out else f.solveAll p ldl (j.mat j.b n cols) cols
      if !allFinite out.flat then j'.fails .numeric
      else { j' with x := codesOf p out.flat, ended := some (.ok, true) }
  else if jOp d = opQr then
    if !last then j'
    else
      let m := jM d
      let a := j.mat j.m m n
      let D := maxAbs ((a.trans n).map (norm2 p))
      let θ := pivotTheta p τ D
      let r := rowsOf n n ((Config.qrR p.tag m n (j.m.map (·.toNat))).map (valP p))
      let low := (List.range n).filter (fun i => !θ.lt (r.at i i).abs)
      let piv : Pivots := low.foldl (fun q i => if q.singular then q else q.hit (jStrict d) i) {}
      let j' := { j' with pivotRepl := piv.repl, firstRepl := piv.first }
      if piv.singular then { j' with ended := some (.singular, false), iters := j.iters }
      else
        let rr := matOf n n (fun i c => if c < i then FVal.zero
          else if c = i ∧ low.contains i then withSign ((r.at i i).sign && !(r.at i i).isZero) θ else r.at i c)
        let out := if jNrhs d = 0 then rr.flat
          else ((Config.qrX p.tag m n (jNrhs d) (j.m.map (·.toNat)) (j.b.map (·.toNat)) (codeP p θ)).map (valP p)).take (n * jNrhs d)
        if !allFinite out then j'.fails .numeric else { j' with x := codesOf p out, ended := some (.ok, true) }
  else
    let a := symmetric n (j.mat j.m n n)
    let tol := rp p (jTolOf d)
    if j.warmUsed then
      let q := j.mat j.trial n n
      let b := rotated p n q a
      if !allFinite b.flat || !nearFinite p n tol b then j'.fails .numeric
      else if nearDiagonal p n tol b then
        { j' with x := j.trial, b := codesOf p ((List.range n).map (fun i => b.at i i)), ended := some (.ok, true) }
      else if !last then j'
      else
        let (vals, vecs) := eigen p n (symmetric n b)
        let out := q.mul p vecs n
        if !allFinite (vals ++ out.flat) then j'.fails .numeric
        else { j' with x := codesOf p out.flat, b := codesOf p vals, ended := some (.ok, true) }
    else if !last then j'
    else
      let (vals, vecs) := eigen p n a
      if !allFinite (vals ++ vecs.flat) then j'.fails .numeric
      else { j' with x := codesOf p vecs.flat, b := codesOf p vals, ended := some (.ok, true) }

/-- MAX_ITERS reached (R288). -/
def RootJob.limit (j : RootJob) : RootJob := if j.ended.isNone ∧ jIters j.desc ≤ j.iters then { j with ended := some (.ok, false) } else j

/-- An iteration of INVROOT, NS_ORTHO, PCG or LSQR (R275 to R277). -/
def RootJob.iterate (j : RootJob) (rows : List FeedRow) : RootJob :=
  let d := j.desc
  let n := jN d
  let p := j.prec
  let k := j.iters + 1
  if jOp d = opInvroot then
    let m := j.mat j.m n n
    let t := invT p (2 ^ jPLog d) n m
    let x := (j.mat j.x n n).mul p t n
    let m' := (powers p n (jPLog d) t).mul p m n
    let dev := deviation p n m'
    if !allFinite x.flat || !allFinite m'.flat || !dev.isFin then j.fails .numeric
    else
      let rises := if (f64 j.lastDev.toNat).lt dev then j.rises + 1 else 0
      let j' := { j with iters := k, x := codesOf p x.flat, m := codesOf p m'.flat, residual := res64 dev, lastDev := res64 dev, rises := rises }
      if !(rp p (jTolOf d)).lt dev then { j' with ended := some (.ok, true) }
      else if 3 ≤ rises then j'.fails .numeric
      else j'.limit
  else if jOp d = opNs then
    let x := orthoStep p (jM d) n (rp p (f32 (fld d 351 320))) (rp p (f32 (fld d 383 352))) (rp p (f32 (fld d 415 384))) (j.mat j.x (jM d) n)
    if !allFinite x.flat then j.fails .numeric
    else
      let j' := { j with iters := k, x := codesOf p x.flat }
      if jNsIters d ≤ k then { j' with ended := some (.ok, true) } else j'
  else if jOp d = opPcg then
    let c := jCols d
    let x := ((Config.pcgIterate p.tag (jPrecond d) (j.blocks.map (fun b => b.map (·.toNat))) (j.m.map (·.toNat)) (j.b.map (·.toNat)) (j.trial.map (·.toNat)) k).take (n * c)).map (valP p)
    if !allFinite x then j.fails .numeric
    else
      let t := pcgAll p (rp p (jTolOf d)) j.given (j.mat j.b n c) (rowsOf n c x) c
      if !t.finite then j.fails .numeric else (RootJob.tested { j with iters := k, x := codesOf p x } t).limit
  else
    let x := ((lsqrX d rows (j.trial.map (·.toNat)) k).take n).map f64
    if !allFinite x then j.fails .numeric
    else
      let t := lsqrResidual p n (jTolOf d) (jDamp d) rows x
      if !t.finite then j.fails .numeric else (RootJob.tested { j with iters := k, x := codesOf p x } t).limit

/-- The decision on a step of GN or LM (R278). -/
def RootJob.decide' (j : RootJob) : RootJob :=
  let d := j.desc
  let n := jN d
  let P := j.prec
  let v := valsOf P
  let dv := v j.trial
  let h := rowsOf n n (v j.m)
  let g := v j.b
  let hd := (List.range n).map (fun i => dotP P (rp P ((jDamp d).mul (nth FVal.zero dv i))) ((nth [] h i).zip dv))
  let pred := rp P ((dotP P FVal.zero (dv.zip g)).neg.sub ((dotP P FVal.zero (dv.zip hd)).scale (-1)))
  let ρ := if FVal.zero.lt pred then rp P ((rp P ((f64 j.f.toNat).sub (f64 j.f1.toNat))).div pred) else FVal.ofInt (-1)
  if !pred.isFin || !ρ.isFin then j.fails .numeric
  else
  let j := { j with iters := j.iters + 1 }
  if FVal.zero.lt ρ ∨ jOp d = opGn then
    let x := ((v j.x).zip dv).map (fun (a, b) => rp P (a.add b))
    let lam := rp P ((f64 j.lambda.toNat).mul (lamFactor P ρ))
    let j := { j with
      x := codesOf P x, f := j.f1, m := j.m1, b := j.b1, residual := j.f1, lambda := res64 lam, nu := res64 (FVal.ofInt 2) }
    let tol := jTolOf d
    let bound := rp P (tol.mul (rp P ((norm2 P x).add tol)))
    let small := !bound.lt (norm2 P dv)
    if !lam.isFin || !allFinite x || !bound.isFin || !(norm2 P dv).isFin then j.fails .numeric
    else if !tol.lt (maxAbs (v j.b)) || small then { j with ended := some (.ok, true) }
    else j.limit
  else
    let lam := rp P ((f64 j.lambda.toNat).mul (f64 j.nu.toNat))
    let nu := rp P ((FVal.ofInt 2).mul (f64 j.nu.toNat))
    let j := { j with lambda := res64 lam, nu := res64 nu }
    if (FVal.fin false 1 100).lt lam || !lam.isFin || !nu.isFin then j.fails .numeric else j.limit

/-- The work of a boundary (R274): a panel, an iteration, a decision. The work region, and OUT under IN_PLACE, hold what it works on. -/
def State.boundary (s : State) (j : RootJob) : State :=
  let d := j.desc
  let rows : Except Status (List FeedRow × Nat) := if jOp d = opLsqr then s.feed d else .ok ([], 0)
  let j' := if jDirect d then j.panel
    else if jLoop d then j.decide'
    else match rows with
      | .error st => j.fails st
      | .ok (r, _) => j.iterate r
  let s := (s.modJob j (fun _ => j')).modEngine j.lead (fun e => { e with matrixSteps := satInc e.matrixSteps (Config.matrixSteps s.freeCtr) })
  let s := s.fresh.useWork d
  let s := if jInPlace d ∧ jDirect d then s.partialOut d else s
  if j'.hasIterate ∧ j'.iters ≠ j.iters then s.writeIterate j' else s

/-- Engines between a preemption and the next start (R295). -/
def State.setSwitching (s : State) : List Nat → State
  | [] => s
  | t :: r => State.setSwitching (s.modEngine t (fun e => { e with switching := true })) r

/-- A deadline job that outranks the running one on any member preempts it on every member; its context is saved to its work region,
whose layout is open (R270, R286). -/
def State.preempt (s : State) (j : RootJob) : State :=
  let found := j.members.any (fun t => (s.engine t).jobs.any (fun k =>
    k.seq != j.seq && k.deadline.isSome && k.before j && s.startable t k))
  if found then
    let s := (s.setRunning none false j.members).setSwitching j.members
    let s := (s.scribble (jWork j.desc) 4096).modJob j (fun j => { j with preempted := j.preempted + 1, resume := jLoop j.desc })
    s.modEngine j.lead (fun e => { e with preemptions := satInc e.preemptions })
  else s

/-- ROOT_JOB_BOUNDARY of the job that runs on its lead (R266, R274, R286, R288). -/
def execRootJobBoundary (t : JobPoint) (s : State) : Out1 :=
  let e := s.engine t.troupe.val
  match e.running with
  | none => .next s
  | some q => match e.job q with
    | none => .next s
    | some j =>
      if j.lead ≠ t.troupe.val ∨ e.gangWait ∨ j.ended.isSome then .next s
      else if t.scratchError then .next (s.modJob j (fun j => j.fails .integrity))
      else
        let s := s.boundary j
        let j := s.jobNow j
        if j.ended.isSome then .next s
        else if j.cancel then .next (s.modJob j (fun j => j.fails .gone))
        else
          let s := s.preempt j
          .next (if jLoop j.desc ∧ (s.engine t.troupe.val).running = some q then s.nextTrial j else s)

/-- A job of the lead's queue that has come to its end: the running one, else any. -/
def RootEng.endedJob (e : RootEng) (t : Nat) : Option RootJob :=
  (e.jobs.find? (fun j => j.ended.isSome && j.lead == t && e.running == some j.seq)).or
    (e.jobs.find? (fun j => j.ended.isSome && j.lead == t))

/-- ROOT_JOB_END (R288). -/
def execRootJobEnd (t : TroupeNo) (s : State) : Out1 :=
  match (s.engine t.val).endedJob t.val with
  | none => .next s
  | some j => .next (s.endJob j (match j.ended with
    | some (st, conv) => { status := st, converged := conv }
    | none => { status := .ok }))

/-- ROOT_DEADLINE_MISS: the deadline of a job of this engine has passed on its Troupe's timer (R287). -/
def execRootDeadlineMiss (t : TroupeNo) (seq : BitVec 32) (s : State) : Out1 :=
  match (s.engine t.val).job seq with
  | none => .next s
  | some j =>
    if j.lead = t.val ∧ j.deadline.any (fun at_ => decide (at_ ≤ s.troupeTimer t.val)) then .next (s.endJob j { status := .deadlineMiss })
    else .next s

/-- Jobs of an engine ended by a reset of one of its members (R294). -/
def State.resetJobs (s : State) : List RootJob → State
  | [] => s
  | j :: t => State.resetJobs (s.endJob j { status := .reset }) t

/-- A reset reaches an engine: its jobs end with RESET, its slots are cleared (R294). -/
def State.resetEngine (s : State) (t : Nat) : State :=
  (s.resetJobs (s.engine t).jobs).modEngine t (fun e => { e with slots := [], running := none, gangWait := false, switching := false, asmJob := none, optHolder := none })

/-- Slots cleared by a mask (R284). -/
def RootEng.clearSlots (e : RootEng) : List Nat → RootEng
  | [] => e
  | k :: t => RootEng.clearSlots (e.modSlot k (fun w => { w with valid := false })) t

/-- SLOT_CLEAR. -/
def execSlotClear (t : TroupeNo) (mask : W64) (s : State) : Out1 :=
  .next (if s.cur.phase ≠ .ready then s
    else if (s.troupe t.val).inReset then s.doorCount (stageOfTroupe t.val)
    else s.modEngine t.val (fun e => e.clearSlots (onesOf 64 mask.toNat)))

/-! ## Registers (unit code 0x900 + t, R295) -/

/-- ENG_STATE. -/
def RootEng.stateNo (e : RootEng) : Nat := if e.gangWait then 3 else if e.running.isSome then 1 else if e.switching then 2 else 0

/-- The job that runs. -/
def RootEng.runningJob (e : RootEng) : Option RootJob := e.running.bind e.job

/-- Bits of the slots that satisfy a test. -/
def RootEng.slotBits (e : RootEng) (p : WarmSlot → Bool) : Nat :=
  ((List.range 64).map (fun k => if p (e.slot k) then 2 ^ k else 0)).foldl (· + ·) 0

/-- A word of an engine's registers. -/
def RootEng.reg (e : RootEng) (off : Nat) : Nat :=
  let j := e.runningJob
  if off = 0x000 then pack [(0, 2, e.stateNo), (2, 1, bit e.asmJob.isSome), (3, 1, bit (j.any (fun j => j.deadline.isSome))),
    (4, 8, (j.map (fun j => jOp j.desc)).getD 0), (12, 2, (j.map (fun j => j.priority.toNat)).getD 0), (14, 7, e.jobs.length),
    (32, 32, (e.running.getD 0).toNat)]
  else if off = 0x008 then pack [(0, 32, e.jobsDone.toNat), (32, 16, e.deadlineMisses.toNat), (48, 16, e.singulars.toNat)]
  else if off = 0x010 then pack [(0, 16, e.numerics.toNat), (16, 16, e.preemptions.toNat), (32, 16, e.refused.toNat), (48, 16, e.lastRefusal.toNat)]
  else if off = 0x018 then pack [(0, 32, e.pivotReplaced.toNat), (32, 16, e.iterLimits.toNat)]
  else if off = 0x020 then e.matrixSteps.toNat
  else if off = 0x028 then e.assemblySteps.toNat
  else if off = 0x030 then pack [(0, 48, e.optWork.toNat), (48, 16, e.optWorkMib.toNat)]
  else if off = 0x040 then e.slotBits (·.valid)
  else if off = 0x050 then e.slotBits (fun w => w.busy.isSome)
  else if 0x1000 ≤ off ∧ off < 0x1800 then
    let w := e.slot ((off - 0x1000) / 0x20)
    let o := off % 0x20
    if o = 0x00 then pack [(0, 48, w.buf.toNat), (48, 8, w.op.toNat), (56, 1, bit w.prec)]
    else if o = 0x08 then pack [(0, 32, w.order.toNat), (32, 32, w.cols.toNat)]
    else if o = 0x10 then pack [(0, 32, w.iters.toNat), (32, 32, w.job.toNat)]
    else w.residual.toNat
  else 0

/-- The RC fields of a word after a read. -/
def RootEng.clear (e : RootEng) (off : Nat) : RootEng :=
  if off = 0x008 then { e with jobsDone := 0, deadlineMisses := 0, singulars := 0 }
  else if off = 0x010 then { e with numerics := 0, preemptions := 0, refused := 0 }
  else if off = 0x018 then { e with pivotReplaced := 0, iterLimits := 0 }
  else if off = 0x020 then { e with matrixSteps := 0 }
  else if off = 0x028 then { e with assemblySteps := 0 }
  else e

/-- An optimiser job is in progress. -/
def RootEng.optimising (e : RootEng) : Bool := e.optHolder.isSome || e.jobs.any (fun j => j.optimiser && j.started)

/-- A write of a word: OPT_WORK unless an optimiser job is in progress, OPT_WORK_MIB, SLOT_CLEAR. -/
def RootEng.write (e : RootEng) (off : Nat) (v : W64) : RootEng :=
  if off = 0x030 then { e with
    optWork := if e.optimising then e.optWork else BitVec.ofNat 48 (fld v 47 0), optWorkMib := BitVec.ofNat 16 (fld v 63 48) }
  else if off = 0x048 then e.clearSlots (onesOf 64 v.toNat)
  else e

end Sys2Proof.Machine
end

