-- ==== Sys2Proof/Machine/Keys.lean ====
section
/-! DEFINITION. The key hierarchy: the derivation function and what it derives (R390 to R392, R397, R400).
Log entry with the readings and choices that are the model's: 57. -/

namespace Sys2Proof.Machine

/-- KDF(secret, context, label, n) (R391); the label by its ASCII codes. -/
def kdf (secret context : List Byte) (label : List Nat) (n : Nat) : List Byte :=
  Config.shake256 (label.map (BitVec.ofNat 8) ++ [0] ++ secret ++ context) n

/-- "KVK-" before a label. -/
def kvk (l : List Nat) : List Nat := [0x4B, 0x56, 0x4B, 0x2D] ++ l
/-- "KVK-ID", "KVK-KEM", "KVK-VAULT", "KVK-CKPT", "KVK-SESS", "KVK-ASSOC", "KVK-FOLIO", "KVK-REKEY", "KVK-EXPORT", "KVK-KCV". -/
def lId : List Nat := kvk [0x49, 0x44]
def lKem : List Nat := kvk [0x4B, 0x45, 0x4D]
def lVault : List Nat := kvk [0x56, 0x41, 0x55, 0x4C, 0x54]
def lCkpt : List Nat := kvk [0x43, 0x4B, 0x50, 0x54]
def lSess : List Nat := kvk [0x53, 0x45, 0x53, 0x53]
def lAssoc : List Nat := kvk [0x41, 0x53, 0x53, 0x4F, 0x43]
def lFolio : List Nat := kvk [0x46, 0x4F, 0x4C, 0x49, 0x4F]
def lRekey : List Nat := kvk [0x52, 0x45, 0x4B, 0x45, 0x59]
def lExport : List Nat := kvk [0x45, 0x58, 0x50, 0x4F, 0x52, 0x54]
def lKcv : List Nat := kvk [0x4B, 0x43, 0x56]
/-- "KVK-HS-R" and "KVK-HS-I" (R397). -/
def lHsR : List Byte := (kvk [0x48, 0x53, 0x2D, 0x52]).map (BitVec.ofNat 8)
def lHsI : List Byte := (kvk [0x48, 0x53, 0x2D, 0x49]).map (BitVec.ofNat 8)

/-- Seed of the identity key pair, and its public key (R392). -/
def idSeed : List Byte := kdf Config.deviceSecret [] lId 32
def idPublic : List Byte := Config.dsaPublic idSeed
/-- Seed of the KEM key pair, and its public key (R392). -/
def kemSeed : List Byte := kdf Config.deviceSecret [] lKem 64
def kemPublic : List Byte := Config.kemPublic kemSeed
/-- Vault key of an epoch, for the nonce of this power cycle (R392). -/
def vaultKey (nonce : List Byte) (e : Nat) : List Byte := kdf Config.memoryRootKey (nonce ++ beBytes 4 e) lVault 64
/-- Checkpoint key of a salt (R392). -/
def ckptKey (salt : List Byte) : List Byte := kdf Config.memoryRootKey salt lCkpt 32

/-- A direction's next key and salt, 36 bytes, where `k` are its key and salt and `phase` counts its rekeys (R400). -/
def nextKey (k : List Byte) (phase : Nat) : List Byte :=
  kdf (k.take 32) (beBytes 4 phase ++ [0x4B]) lRekey 32 ++ kdf (k.take 32) (beBytes 4 phase ++ [0x53]) lRekey 4

end Sys2Proof.Machine
end

