-- ==== Sys2Proof/Machine/Mioder.lean ====
section
/-! DEFINITION. The Mioder engines (R307 to R328): packets admitted, requests served and forwarded, acknowledgements, windows,
paths, the landing store, rekeys, migrations.
Log entries with the readings and choices that are the model's: 44, 45, 47, 48. -/

namespace Sys2Proof.Machine

/-! ## Admission of a packet (R307, R311, R326, R327) -/

/-- A counter is accepted: not seen under the key, and above the top less 4,096 (R326). -/
def counterNew (top : W64) (seen : List Nat) (c : W64) : Bool := !seen.contains c.toNat && decide (top.toNat < c.toNat + 4096)

/-- The top after an accepted counter. -/
def counterTop (top c : W64) : W64 := if top.toNat < c.toNat then c else top

/-- The counters still told apart after an accepted one. -/
def counterSeen (top : W64) (seen : List Nat) (c : W64) : List Nat :=
  (c.toNat :: seen).filter (fun k => decide ((counterTop top c).toNat < k + 4096))

/-- The old receive key is dropped (R327). -/
def Assoc.dropOldKey (a : Assoc) : Assoc := { a with rxOldValid := false, oldTop := 0, oldCounters := [], newPhasePackets := 0, rxOldKey := [] }

/-- An accepted packet under the current receive key; the 4,096th under a new phase ends the old key (R327). -/
def Assoc.acceptNow (a : Assoc) (c : W64) : Assoc :=
  let a := { a with rxTop := counterTop a.rxTop c, rxCounters := counterSeen a.rxTop a.rxCounters c }
  if !a.rxOldValid then a
  else if 4096 ≤ a.newPhasePackets + 1 then a.dropOldKey
  else { a with newPhasePackets := a.newPhasePackets + 1 }

/-- A packet under the other phase is the first of the peer's next key: the current key becomes the old one (R327). -/
def Assoc.nextPhase (a : Assoc) : Assoc :=
  { a with
    rxPhase := !a.rxPhase, rxOldValid := true, oldTop := a.rxTop, oldCounters := a.rxCounters, rxTop := 0, rxCounters := [],
    newPhasePackets := 0, rxOldKey := a.rxKey, rxKey := nextKey a.rxKey (a.rxRekeys + 1).toNat, rxRekeys := a.rxRekeys + 1 }

/-- The association after an accepted counter under a phase; none where it is a replay. -/
def Assoc.accept (a : Assoc) (c : W64) (phase : Bool) : Option Assoc :=
  if phase = a.rxPhase then (if counterNew a.rxTop a.rxCounters c then some (a.acceptNow c) else none)
  else if a.rxOldValid then
    (if counterNew a.oldTop a.oldCounters c then
      some { a with oldTop := counterTop a.oldTop c, oldCounters := counterSeen a.oldTop a.oldCounters c }
    else none)
  else some (a.nextPhase.acceptNow c)

/-- A dropped packet is counted in AUTH_FAILS (R307, R330). -/
def State.authFail (s : State) : State := { s with mio := { s.mio with authFails := satInc s.mio.authFails } }
/-- A dropped packet is counted in REPLAY_DROPS (R326). -/
def State.replayDrop (s : State) : State := { s with mio := { s.mio with replayDrops := satInc s.mio.replayDrops } }

/-- An authenticated packet, admitted or dropped and counted. -/
def State.mayEnter (s : State) (k : Nat) (c : W64) (phase : Bool) : State × Bool :=
  let a := s.assoc k
  if a.state ≠ .up then (s.authFail, false)
  else match a.accept c phase with
    | none => (s.replayDrop, false)
    | some a => (s.setAssoc k a, true)

/-- CUM_PSN moved over the numbers marked above it. -/
def cumOver : Nat → BitVec 32 → List Nat → BitVec 32 × List Nat
  | 0, c, l => (c, l)
  | n + 1, c, l => if l.contains c.toNat then cumOver n (c + 1) (l.erase c.toNat) else (c, l)

/-- A PSN lies below CUM_PSN. -/
def psnBelow (psn cum : BitVec 32) : Bool := decide (2 ^ 31 ≤ (psn - cum).toNat)

/-- A PSN was already received (R311). -/
def Assoc.received (a : Assoc) (psn : BitVec 32) : Bool := psnBelow psn a.rxCum || a.rxSeen.contains psn.toNat

/-- A PSN marked in the bitmap. -/
def Assoc.mark (a : Assoc) (psn : BitVec 32) : Assoc :=
  let l := psn.toNat :: a.rxSeen
  let (c, l) := cumOver l.length a.rxCum l
  { a with rxCum := c, rxSeen := l }

/-- The SACK bits over CUM_PSN + 1 to CUM_PSN + 64 (R307). -/
def Assoc.sack (a : Assoc) : W64 :=
  BitVec.ofNat 64 ((List.range 64).foldl (fun v i => v + bit (a.rxSeen.contains (a.rxCum + BitVec.ofNat 32 (i + 1)).toNat) * 2 ^ i) 0)

/-- A frame that arrives is counted at its port (R303). -/
def State.rxFrame (s : State) (f : RxFrame) : State :=
  s.modPort f.port.val (fun x => { x with
    rxFrames := x.rxFrames + 1, fecCorrected := satInc x.fecCorrected f.fecCorrected
    fecUncorrectable := satInc x.fecUncorrectable f.fecLost, pfcPauses := satInc x.pfcPauses f.pauses })

/-- An ACK leaves by the path a new packet would take, echoing another (R307, R312, R313); it takes a counter of the sending direction. -/
def State.ackOut (s : State) (k path : Nat) (ce : Bool) : State :=
  let a := s.assoc k
  let via := (s.choosePath a 0).getD path
  (s.setAssoc k { a with txCounter := a.txCounter + 1, lastPath := via }).pktOut k via (.ack k a.rxCum a.sack (bit ce) path via)

/-- A DATA packet: acknowledged, and performed unless its PSN was received before or lies beyond the bitmap (R311, R312). -/
def State.receive (s : State) (k : Nat) (c : W64) (phase : Bool) (psn : BitVec 32) (path : Nat) (f : RxFrame := {}) : State × Bool :=
  let (s, ok) := (s.rxFrame f).mayEnter k c phase
  let a := s.assoc k
  if !ok then (s, false)
  else if a.received psn then (s.ackOut k path f.ce, false)
  else if 4096 ≤ (psn - a.rxCum).toNat then (s, false)
  else ((s.setAssoc k (a.mark psn)).ackOut k path f.ce, true)

/-! ## Requests for memory (R308, R321, R322) -/

/-- A response to a request of a peer (R308). -/
def State.reply (s : State) (r : MioReq) (op : Nat) (st : Status) (gen : BitVec 32) (data : List Byte) : State :=
  s.respond r.assoc r.reqId (BitVec.ofNat 8 op) st gen data

/-- The generation of the unit that serves a device-local address: the Core of a span of Wings, the Troupe under a Gallery
sector, else the Device (R308). -/
def State.genAt (s : State) (a : Nat) : BitVec 32 :=
  match regionOf a with
  | some .wings => (s.core ((a - wingsBase) / 0x400000)).resetGen
  | some .gallery => (s.troupe (troupeUnder a)).resetGen
  | some .vault => s.cur.deviceGen
  | some .registers => s.cur.deviceGen
  | none => s.cur.deviceGen

/-- Bits of AUX that a memory operation leaves reserved (R308). -/
def auxMask (op : Nat) : Nat :=
  if op = 0x03 then 0x7
  else if op = 0x05 then 0x1FF + 0x7 * 2 ^ 16 + 0x7 * 2 ^ 20 + 0x1FF * 2 ^ 32
  else if op = 0x06 then 0x3F + 0x1FF * 2 ^ 32
  else if op = 0x07 then 0xF
  else if op = 0x08 then 0xF + 0x1FF * 2 ^ 32
  else 0

/-- A reserved field of a request is not zero, or its length is not that of its data (R308). -/
def mioBad (r : MioReq) (op : Nat) : Bool :=
  decide (r.aux.toNat &&& (2 ^ 48 - 1 - auxMask op) ≠ 0) ||
  (op != 0x02 && r.version != 0) ||
  (decide (0x05 ≤ op ∧ op ≤ 0x08) && decide (fld r.target 63 48 ≠ 0)) ||
  decide (4096 < r.length) || (if op = 0x02 then !r.data.isEmpty else decide (r.data.length ≠ r.length))

/-- Permission of an operation (R321). -/
def mioNeed (op : Nat) : Nat :=
  if op = 0x01 then permWrite else if op = 0x03 then permAtomic else if op = 0x04 then permAdd else permRead

/-- Bytes an operation touches. -/
def mioSpan (op : Nat) (r : MioReq) : Nat := if op = 0x02 then r.length else if op = 0x03 then 8 else r.data.length

/-- Where a peer's request goes (R321): a request for another home device finds no entry here. -/
def State.mioPlace (s : State) (r : MioReq) (need n : Nat) : Place :=
  if fld r.target 63 48 ≠ s.mio.deviceNumber.toNat then .refused .gone
  else s.writeBar need n (s.resolve (some (s.assoc r.assoc).keyClass) need (fld r.target 47 0) n)

/-- A request served by the memory of this device: its status, the data of its response, the state. -/
def State.serveHere (s : State) (op : Nat) (r : MioReq) (a : Nat) : Status × List Byte × State :=
  let w : Asker := .peer (s.assoc r.assoc).hostPeer
  if op = 0x02 then
    match s.serveGet w a r.length r.version with
    | .ok b => (.ok, b, s)
    | .error e => (e, [], s.countGet a r.length r.version e)
  else if op = 0x01 then
    match s.writeMem w a r.data with
    | .ok s => (.ok, [], s.markDirty (fld r.target 47 0) r.data.length)
    | .error e => (e, [], s.countWrite a r.data.length e)
  else if op = 0x04 then
    match s.serveAdd w a r.data with
    | .ok s => (.ok, [], s.markDirty (fld r.target 47 0) r.data.length)
    | .error e => (e, [], s.doorAt a e)
  else
    let aop := fld r.aux 2 0
    if a % 8 ≠ 0 ∨ 2 < aop ∨ r.data.length ≠ 16 then (.badParam, [], s)
    else match s.serveAtomic w aop a (BitVec.ofNat 64 (ofLe (r.data.take 8))) (BitVec.ofNat 64 (ofLe (r.data.drop 8))) with
      | .ok (old, s) => (.ok, leBytes 8 old.toNat, s.markDirty (fld r.target 47 0) 8)
      | .error e => (e, [], s.countRead a 8 e)

/-- A request held by the migration (R323). -/
def State.migHold (s : State) (h : HeldReq) : State :=
  { s with mio := { s.mio with migration := s.mio.migration.map (fun (m : Migration) => { m with held := m.held ++ [h] }) } }

/-- Parts of a forwarded request, one packet each. -/
def State.relayParts (s : State) (k : Nat) (op : Nat) (r : MioReq) (t : W64) : Nat → List (Nat × Nat) → State
  | _, [] => s
  | i, (off, n) :: rest =>
    State.relayParts (s.request k {
      op := BitVec.ofNat 8 op, target := t + BitVec.ofNat 64 off, version := r.version, fwd := true, gen := r.gen
      length := if op = 0x02 then n else ((r.data.drop off).take n).length, aux := r.aux, data := (r.data.drop off).take n }
      (.relay r.assoc r.reqId i)) k op r t (i + 1) rest

/-- A request forwarded (R322), in several packets where the path onward takes less (R304, R309). -/
def State.relayOn (s : State) (k op : Nat) (r : MioReq) (t : W64) : State :=
  let whole := if op = 0x02 then r.length else r.data.length
  let ps := if op = 0x03 then [(0, whole)] else putPieces 9 (s.assoc k).limit t.toNat 0 whole
  let ps := if ps.isEmpty then [(0, 0)] else ps
  let s := if ps.length ≤ 1 then s else { s with mio := { s.mio with
    relays := s.mio.relays ++ [{ assoc := r.assoc, reqId := r.reqId, op := BitVec.ofNat 8 op, waiting := ps.length : Relay }] } }
  s.relayParts k op r t 0 ps

/-- A memory request performed and answered, forwarded to the device that holds its target, or held by a migration (R321 to R323); a
confined device refuses a host's GET (R412). -/
def State.serveMem (s : State) (op : Nat) (r : MioReq) : State :=
  let n := mioSpan op r
  if mioBad r op then s.reply r op .badParam s.cur.deviceGen []
  else if op = 0x02 ∧ (s.assoc r.assoc).hostPeer ∧ s.confined then s.reply r op .denied s.cur.deviceGen []
  else match s.mioPlace r (mioNeed op) n with
    | .here a => match s.heldBy a n with
      | some c => { s with mio := { s.mio with doorHeld := s.mio.doorHeld ++ [(c, { op := BitVec.ofNat 8 op, req := r : HeldReq })] } }
      | none =>
        let (st, b, s) := s.serveHere op r a
        s.reply r op st (s.genAt a) b
    | .refused e => s.reply r op e s.cur.deviceGen []
    | .wait => s.migHold { op := BitVec.ofNat 8 op, req := r }
    | .far k _ t =>
      (if op = 0x02 then s else s.markDirty (fld r.target 47 0) n).relayOn k op r t

/-- The Core under takeover whose Wings a request would touch: its door holds the request (R428). -/
def State.mioHeld (s : State) (op : Nat) (r : MioReq) : Option Nat :=
  match s.mioPlace r (mioNeed op) (mioSpan op r) with
  | .here a => s.heldBy a (mioSpan op r)
  | .far _ _ _ => none
  | .refused _ => none
  | .wait => none

/-- A memory request arrives. -/
def State.mioMem (s : State) (op : Nat) (r : MioReq) (i : Instr) : State :=
  match s.mioHeld op r with
  | some c => s.hold c i
  | none =>
    let (s, go) := s.receive r.assoc r.counter r.phase r.psn r.path r.frame
    if go then s.serveMem op r else s

/-- MIODER_PUT. -/
def execMioderPut (r : MioReq) (s : State) : Out1 := .next (s.mioMem 0x01 r (.mioderPut r))
/-- MIODER_GET. -/
def execMioderGet (r : MioReq) (s : State) : Out1 := .next (s.mioMem 0x02 r (.mioderGet r))
/-- MIODER_ATOMIC. -/
def execMioderAtomic (r : MioReq) (s : State) : Out1 := .next (s.mioMem 0x03 r (.mioderAtomic r))
/-- MIODER_ADD. -/
def execMioderAdd (r : MioReq) (s : State) : Out1 := .next (s.mioMem 0x04 r (.mioderAdd r))

/-! ## Messages (R310, R317, R318) -/

/-- Size of the landing store (R317). -/
def landingSize : Nat := 8 * 2 ^ 20

/-- Bytes of the landing store in use. -/
def State.landingUsed (s : State) : Nat := (s.mio.landing.map (·.room)).foldl (· + ·) 0

/-- The sender that a message's header names, once its part 0 is here (R110). -/
def Landing.sender (x : Landing) : Option Nat := (x.parts.find? (fun p => p.1 == 0)).map (fun p => ofLe (p.2.take 6))

/-- Two messages of one sender to one receiver on one channel (R109, R318): a Core is one receiver by whatever name it is reached; a
message whose header is not here yet may be of any sender. -/
def State.sameFlow (s : State) (x y : Landing) : Bool :=
  let px := s.expand x.target
  let py := s.expand y.target
  x.assoc == y.assoc && fld x.aux 1 0 == fld y.aux 1 0 && (x.sender.isNone || y.sender.isNone || x.sender == y.sender) &&
    (px.leaves.any py.leaves.contains || px.far.any py.far.contains)

/-- A message is whole. -/
def Landing.whole (l : Landing) : Bool := !l.busy && decide (l.parts.length = l.partsM1 + 1)

/-- A landing changed. -/
def State.modLanding (s : State) (k : Nat) (id : BitVec 32) (f : Landing → Landing) : State :=
  { s with mio := { s.mio with landing := s.mio.landing.map (fun (l : Landing) => if l.assoc = k ∧ l.reqId = id then f l else l) } }

/-- A message may be delivered: whole, with no PSN still missing below its own, and after every earlier one of its flow (R318). -/
def State.deliverable (s : State) (l : Landing) : Bool :=
  l.whole && !l.delivered && psnBelow l.psn (s.assoc l.assoc).rxCum &&
    !s.mio.landing.any (fun (y : Landing) => s.sameFlow y l && !y.delivered && psnBelow y.psn l.psn)

/-- Boundaries a request has crossed. -/
def boundsOf (aux : BitVec 48) : Nat := fld aux 40 32

/-- A landed message goes to the leaves its unit has now, and on to members of it on other devices (R24, R26, R28; that the membership
at delivery counts is a DESIGN CHOICE: log entry 32). -/
def State.deliverLanding (s : State) (l : Landing) : State :=
  let data := (l.parts.map (·.2)).flatten
  let x := s.expand l.target
  let src : MsgSrc := .remote l.assoc l.psn l.reqId 0
  let m : MsgReq := {
    src := src, channel := fld l.aux 1 0, rtoken := if fld l.aux 2 2 = 1 then some (fld l.aux 8 3) else none,
    bytes := ringBytes (data.take 16) (data.drop 16) }
  let s := s.modLanding l.assoc l.reqId (fun l => { l with delivered := true, waiting := x.leaves.length + x.far.length + x.gone })
  let ans := fun (s : State) (t : Tally) => s.answerMsg src t
  let gen := BitVec.ofNat 32 (fld (BitVec.ofNat 128 (ofLe (data.take 16))) 95 64)
  let s := (s.deliverAll m x.leaves).msgFar (.relay l.assoc l.reqId 0) gen (fld l.aux 8 0) (boundsOf l.aux) data ans x.far
  (s.msgGone ans x.gone).settleLandings

/-- Messages delivered as long as one may be. -/
def landingGo : Nat → State → State
  | 0, s => s
  | n + 1, s => match s.mio.landing.find? s.deliverable with
    | none => s
    | some l => landingGo n (s.deliverLanding l)

/-- The landing store delivers what it can. -/
def State.landingPump (s : State) : State := landingGo s.mio.landing.length s

/-- Room a message reserves: its own length, or that many whole packets (R310). -/
def State.roomFor (s : State) (r : MioReq) (last : Nat) : Nat := if last = 0 then r.data.length else (last + 1) * (s.assoc r.assoc).limit

/-- A part joins its message. -/
def State.landPart (s : State) (r : MioReq) : State :=
  let part := fld r.aux 18 16
  s.modLanding r.assoc r.reqId (fun l => { l with parts := Tab.set l.parts part r.data })

/-- A message's first part to arrive finds room, or the message is answered BUSY once and its other parts are discarded (R310, R317). -/
def State.landFirst (s : State) (r : MioReq) (known : Bool) : State :=
  let last := fld r.aux 22 20
  let room := s.roomFor r last
  let l : Landing := {
    assoc := r.assoc, reqId := r.reqId, psn := r.psn, target := BitVec.ofNat 48 (fld r.target 47 0),
    aux := BitVec.ofNat 48 (fld r.aux 8 0 + boundsOf r.aux * 2 ^ 32), partsM1 := last }
  let s := if known then s else { s with mio := { s.mio with landing := s.mio.landing ++ [l] } }
  if s.landingUsed + room ≤ landingSize then
    (s.modLanding r.assoc r.reqId (fun l => { l with room := room, busy := false, parts := [] })).landPart r
  else
    let s := { s with mio := { s.mio with landingBusy := satInc s.mio.landingBusy } }
    (s.modLanding r.assoc r.reqId (fun l => { l with busy := true, discard := last, parts := [] })).reply r 0x05 .busy s.cur.deviceGen []

/-- MSG fields that no message has: a unit of no kind, a part beyond the last, more than five parts, a part of the wrong length (R310). -/
def State.badMsg (s : State) (r : MioReq) : Bool :=
  let last := fld r.aux 22 20
  let part := fld r.aux 18 16
  let u : UnitName := BitVec.ofNat 48 (fld r.target 47 0)
  mioBad r 0x05 || !s.isHere u || (nameRef u).isNone || decide (4 < last ∨ last < part) ||
    (decide (part < last) && decide (r.data.length ≠ (s.assoc r.assoc).limit)) || (part == 0 && decide (r.data.length < 16))

/-- A MSG part performed. -/
def State.serveMsg (s : State) (r : MioReq) : State :=
  if s.badMsg r then s.reply r 0x05 .badParam s.cur.deviceGen []
  else match s.mio.landing.find? (fun (l : Landing) => l.assoc == r.assoc && l.reqId == r.reqId) with
    | none => (s.landFirst r false).landingPump
    | some l =>
      if l.discard ≠ 0 then s.modLanding r.assoc r.reqId (fun l => { l with discard := l.discard - 1 })
      else if l.busy then (s.landFirst r true).landingPump
      else (s.landPart r).landingPump

/-- MIODER_MSG. -/
def execMioderMsg (r : MioReq) (s : State) : Out1 :=
  let (s, go) := s.receive r.assoc r.counter r.phase r.psn r.path r.frame
  .next (if go then s.serveMsg r else s.landingPump)

/-! ## Tokens and handles (R179, R244, R308) -/

/-- A TOKEN request performed: the token rises at every leaf (R26, R244). -/
def State.serveToken (s : State) (r : MioReq) : State :=
  let u : UnitName := BitVec.ofNat 48 (fld r.target 47 0)
  match nameRef u with
  | none => s.reply r 0x06 .badParam s.cur.deviceGen []
  | some ref =>
    if mioBad r 0x06 || !s.isHere u then s.reply r 0x06 .badParam s.cur.deviceGen []
    else
      let st : Status := match ref with
        | .ensemble e => if (s.ensemble e).defined then .ok else .gone
        | .core _ => .ok
        | .troupe _ => .ok
        | .stage _ => .ok
        | .device => .ok
      (s.signalUnit u (fld r.aux 5 0) (boundsOf r.aux)).reply r 0x06 st (s.genOf ref) []

/-- MIODER_TOKEN. -/
def execMioderToken (r : MioReq) (s : State) : Out1 :=
  let (s, go) := s.receive r.assoc r.counter r.phase r.psn r.path r.frame
  .next (if go then s.serveToken r else s)

/-- A HANDLE request performed: the handle arrives at the endpoint, which answers it (R179). -/
def State.serveHandle (s : State) (r : MioReq) : State :=
  let u : UnitName := BitVec.ofNat 48 (fld r.target 47 0)
  match coreName u with
  | none => s.reply r 0x07 .badParam s.cur.deviceGen []
  | some c =>
    if mioBad r 0x07 || !s.isHere u || decide (r.data.length ≠ 16) then s.reply r 0x07 .badParam s.cur.deviceGen []
    else s.arrive c (fld r.aux 3 0) (BitVec.ofNat 128 (ofLe r.data)) (.remote r.assoc r.reqId)

/-- MIODER_HANDLE. -/
def execMioderHandle (r : MioReq) (s : State) : Out1 :=
  let (s, go) := s.receive r.assoc r.counter r.phase r.psn r.path r.frame
  .next (if go then s.serveHandle r else s)

/-! ## Packets dropped (R307, R308, R326) -/

/-- MIODER_PACKET_DROPPED. -/
def execMioderPacketDropped (a : RxAssoc) (why : MioDrop) (s : State) : Out1 :=
  match why with
  | .authentication => .next (s.rxFrame a.frame).authFail
  | .notUp => .next (if (s.assoc a.assoc.val).state = .up then s else (s.rxFrame a.frame).authFail)
  | .replay => .next (s.rxFrame a.frame).replayDrop
  | .reservedOp op r =>
    let (s, go) := s.receive a.assoc.val r.counter r.phase r.psn r.path a.frame
    .next (if go then s.respond a.assoc.val r.reqId op .badParam s.cur.deviceGen [] else s)

/-! ## Sending again (R312, R313, R315, R316) -/

/-- A kept packet of an association changed. -/
def Assoc.modReq (a : Assoc) (psn : BitVec 32) (f : PendReq → PendReq) : Assoc :=
  { a with reqs := a.reqs.map (fun r => if r.psn = psn then f r else r) }

/-- A path changed. -/
def Assoc.modPath (a : Assoc) (p : Nat) (f : Path → Path) : Assoc := { a with paths := Tab.modify {} a.paths p f }

/-- A packet put on a path: the first time, or again, which is counted (R312, R330). -/
def State.sendOn (s : State) (k : Nat) (r : PendReq) (p : Nat) : State :=
  let a := s.assoc k
  let again := r.resend
  let a := { a.modReq r.psn (fun r => { r with queued := false, resend := true, path := p, sentAt := s.now }) with
    txCounter := a.txCounter + 1, lastPath := p, retx := if again then satInc a.retx else a.retx }
  let s := (s.setAssoc k a).pktOut k p (wire k r p)
  if again then { s with mio := { s.mio with retransmits := satInc s.mio.retransmits } } else s

/-- Queued packets sent as paths and PSNs become free, in PSN order. -/
def State.pumpList (s : State) (k : Nat) : List (BitVec 32) → State
  | [] => s
  | psn :: t =>
    let a := s.assoc k
    match a.reqs.find? (fun r => r.psn == psn) with
    | none => State.pumpList s k t
    | some r =>
      State.pumpList (match s.choosePath a r.out.data.length with
        | none => s
        | some p => s.sendOn k r p) k t

/-- Packets without a PSN take one while any is free (R311). -/
def State.pumpBacklog (s : State) (k : Nat) : Nat → State
  | 0 => s
  | n + 1 =>
    let a := s.assoc k
    match a.backlog with
    | [] => s
    | r :: t => if a.full then s else State.pumpBacklog ((s.setAssoc k { a with backlog := t }).sendNew k r) k n

/-- The queued packets of an association. -/
def State.pump (s : State) (k : Nat) : State :=
  if (s.assoc k).state = .up then
    (s.pumpList k (((s.assoc k).reqs.filter (·.queued)).map (·.psn))).pumpBacklog k (s.assoc k).backlog.length
  else s

/-- The queued packets of several associations. -/
def State.pumpAll (s : State) : List Nat → State
  | [] => s
  | k :: t => State.pumpAll (s.pump k) t

/-- A source port of a path, from the entropy source (R304). -/
def State.srcPort (s : State) : BitVec 16 := BitVec.ofNat 16 (0xC000 + (Config.entropy s.freeCtr).toNat % 2 ^ 14)

/-- A path that timed out becomes suspect; at the third timeout in a row it is replaced by one with a new source port (R315). -/
def State.pathTimeout (s : State) (k p : Nat) : State :=
  let a := s.assoc k
  let x : Path := Tab.get {} a.paths p
  if x.timeouts + 1 < 3 then s.setAssoc k (a.modPath p (fun x => { x with suspect := true, timeouts := x.timeouts + 1 }))
  else
    let y : Path := { port := x.port, sub := x.sub, peerAddr := x.peerAddr, down := x.down, srcPort := s.srcPort }
    let s := (s.setAssoc k (a.modPath p (fun _ => y))).fresh
    { s with mio := { s.mio with pathRetires := satInc s.mio.pathRetires } }.link
      { event := 0x04, port := x.port, sub := x.sub, peer := a.peer.toNat, assoc := k }

/-- The path a retransmission takes: another one where one is free (R312). -/
def State.otherPath (s : State) (k p n : Nat) : Nat :=
  let a := s.assoc k
  (s.choosePath { a with paths := Tab.erase a.paths p } n).getD p

/-! ## ACK and PROBE (R307, R312, R314, R315) -/

/-- A sample of a round trip joins those of the last 10 ms. -/
def Path.sample (p : Path) (now rtt : Nat) : Path := { p with rtts := (p.rtts.filter (fun (t, _) => decide (now < t + 10000000))) ++ [(now, rtt)] }

/-- The least round trip measured in the last 10 ms. -/
def Path.baseRtt (p : Path) : Nat := (p.rtts.map (·.2)).foldl min ((p.rtts.map (·.2)).headD 0)

/-- Twice the excess of R314, as an integer: ECN counts as half a round trip of queue. -/
def excess2 (rtt base target ce : Nat) : Int :=
  let e : Int := 2 * ((rtt : Int) - ((base + target : Nat) : Int))
  if 0 < ce then max e rtt else e

/-- The window after an ACK (R314), rounded down; a reduction acts once per round trip. -/
def Path.update (p : Path) (now rtt target ce acked : Nat) : Path :=
  let p := p.sample now rtt
  let e := excess2 rtt p.baseRtt target ce
  if 0 < e then
    if p.reducedAt.any (fun t => decide (now < t + rtt)) then p
    else
      let e := e.toNat
      let w := if 5 * rtt ≤ 4 * e then p.window / 2 else p.window * (10 * rtt - 4 * e) / (10 * rtt)
      { p with window := max 4096 w, reducedAt := some now }
  else { p with window := min 131072 (p.window + 4096 * acked / p.window) }

/-- A packet is acknowledged by CUM_PSN and SACK. -/
def ackCovers (k : MioAck) (psn : BitVec 32) : Bool :=
  psnBelow psn k.cumPsn || (decide (1 ≤ (psn - k.cumPsn).toNat ∧ (psn - k.cumPsn).toNat ≤ 64) && bitOf k.sack.toNat ((psn - k.cumPsn).toNat - 1))

/-- Packets newly acknowledged. -/
def Assoc.newlyAcked (a : Assoc) (k : MioAck) : List PendReq := a.reqs.filter (fun r => !r.acked && ackCovers k r.psn)

/-- Acknowledged packets are free: responses leave, requests wait for their responses. -/
def Assoc.acked (a : Assoc) (k : MioAck) : Assoc :=
  { a with
    reqs := (a.reqs.map (fun r => if ackCovers k r.psn then { r with acked := true, queued := false } else r)).filter
      (fun r => !(r.acked && r.purpose == .response)) }

/-- The path of an ACK: its window moves, a suspect path returns to service (R314, R315). -/
def Path.onAck (p : Path) (now rtt target ce acked : Nat) : Path :=
  { p.update now rtt target ce acked with suspect := false, timeouts := 0, probing := false }

/-- The rekey under way closes with the peer's next acknowledgement. -/
def State.closeRekey (s : State) (k : Nat) : State :=
  let a := s.assoc k
  if a.rekeying then (s.setAssoc k { a with rekeying := false }).link { event := 0x07, peer := a.peer.toNat, assoc := k } else s

/-- Packets overtaken: one sent REORDER_US later on another path is now acknowledged (R312). -/
def Assoc.overtaken (a : Assoc) (k : MioAck) (reorder : Nat) : List (BitVec 32) :=
  ((a.reqs.filter (fun r => !r.acked && !r.queued && r.resend && !ackCovers k r.psn &&
    (a.newlyAcked k).any (fun q => q.path != r.path && q.resend && decide (r.sentAt + 1000 * reorder ≤ q.sentAt)))).map (·.psn))

/-- Packets sent again, on another path where one is free. -/
def State.resendList (s : State) (k : Nat) : List (BitVec 32) → State
  | [] => s
  | psn :: t =>
    State.resendList (match (s.assoc k).reqs.find? (fun r => r.psn == psn) with
      | none => s
      | some r => s.sendOn k r (s.otherPath k r.path r.out.data.length)) k t

/-- MIODER_ACK. -/
def execMioderAck (k : MioAck) (s : State) : Out1 :=
  let (s, ok) := (s.rxFrame k.frame).mayEnter k.assoc k.counter k.phase
  if !ok then .next s
  else
    let a := s.assoc k.assoc
    let n := ((a.newlyAcked k).map (fun r => r.out.data.length)).foldl (· + ·) 0
    let a' := (a.acked k).modPath k.path (fun p => p.onAck s.now k.rtt s.mio.targetQueueNs.toNat k.ce n)
    let a' := if Tab.mem a.paths k.path then a' else { a' with paths := a.paths }
    let a' := { a' with srtt := BitVec.ofNat 32 (Config.smooth a.srtt.toNat k.rtt) }
    let s := { s.setAssoc k.assoc a' with mio := { (s.setAssoc k.assoc a').mio with ecnMarks := satInc s.mio.ecnMarks k.ce } }
    .next (((s.closeRekey k.assoc).resendList k.assoc (a.overtaken k s.mio.reorderUs.toNat)).pump k.assoc)

/-- MIODER_PROBE: acknowledged on its path (R307). -/
def execMioderProbe (a : RxAssoc) (path : Nat) (counter : W64) (phase : Bool) (s : State) : Out1 :=
  let (s, ok) := (s.rxFrame a.frame).mayEnter a.assoc.val counter phase
  .next (if ok then s.ackOut a.assoc.val path a.frame.ce else s)

/-- A PROBE leaves by a path. -/
def State.probeOut (s : State) (k p : Nat) : State :=
  let a := s.assoc k
  (s.setAssoc k { a with txCounter := a.txCounter + 1 }).pktOut k p (.probe k p 0)

/-- PATH_PROBE_TIMER: a suspect path is probed; a probe unanswered since the last is a timeout (R315). -/
def execPathProbeTimer (a : AssocNo) (path : Nat) (s : State) : Out1 :=
  let x := s.assoc a.val
  let p : Path := Tab.get {} x.paths path
  if x.state ≠ .up ∨ !p.suspect then .next s
  else
    let s := if p.probing then s.pathTimeout a.val path else s
    if (Tab.get {} (s.assoc a.val).paths path : Path).suspect then
      .next ((s.setAssoc a.val ((s.assoc a.val).modPath path (fun y => { y with probing := true }))).probeOut a.val path)
    else .next s

/-- IDLE_PROBE: an idle path sends a PROBE (R328). -/
def execIdleProbe (a : AssocNo) (path : Nat) (s : State) : Out1 :=
  let x := s.assoc a.val
  .next (if x.state = .up ∧ Tab.mem x.paths path then s.probeOut a.val path else s)

/-! ## Retransmission (R312, R315, R316, R317) -/

/-- RETRANSMIT_TIMEOUT. -/
def execRetransmitTimeout (a : AssocNo) (psn : BitVec 32) (s : State) : Out1 :=
  let x := s.assoc a.val
  match x.reqs.find? (fun r => r.psn == psn && !r.acked && !r.queued) with
  | none => .next s
  | some r =>
    if x.state ≠ .up then .next s
    else
      let s := s.pathTimeout a.val r.path
      .next (s.sendOn a.val r (s.otherPath a.val r.path r.out.data.length))

/-- Parts of a message sent again under new PSNs (R317). -/
def State.resendParts (s : State) (k : Nat) : List PendReq → State
  | [] => s
  | r :: t => State.resendParts (s.packet k { r with acked := false, queued := false, resend := false, busyWait := false }) k t

/-- MSG_BUSY_RETRY. -/
def execMsgBusyRetry (a : AssocNo) (reqId : BitVec 32) (s : State) : Out1 :=
  let x := s.assoc a.val
  let ps := x.reqs.filter (fun r => r.reqId == reqId && r.busyWait)
  if ps.isEmpty ∨ x.state ≠ .up then .next s
  else .next ((s.setAssoc a.val { x with reqs := x.reqs.filter (fun r => !(r.reqId == reqId && r.busyWait)) }).resendParts a.val ps)

/-! ## Sub-ports (R300, R301, R316, R436) -/

/-- Lanes of a sub-port in a mode (R297): logical lanes of the port. -/
def subLanes (mode sub : Nat) : List Nat :=
  if mode = 1 then (if sub = 0 then List.range 8 else [])
  else if mode = 2 then (if sub < 2 then (List.range 4).map (4 * sub + ·) else [])
  else if mode = 3 then (if sub < 8 then [sub] else [])
  else []

/-- Bits of a byte set or cleared. -/
def setByteBit (b : BitVec 8) (k : Nat) (v : Bool) : BitVec 8 := BitVec.ofNat 8 (setBits b.toNat k k (bit v))

/-- A path lies on a sub-port. -/
def Path.on (p : Path) (port sub : Nat) : Bool := p.port == port && p.sub == sub

/-- The packets sent on a sub-port and not acknowledged are queued for retransmission. -/
def Assoc.subDown (a : Assoc) (port sub : Nat) : Assoc :=
  { a with reqs := a.reqs.map (fun r => if (Tab.get {} a.paths r.path : Path).on port sub && Tab.mem a.paths r.path && !r.acked then { r with queued := true } else r) }

/-- Packets that a sub-port's loss queues. -/
def Assoc.subLost (a : Assoc) (port sub : Nat) : Nat :=
  (a.reqs.filter (fun r => (Tab.get {} a.paths r.path : Path).on port sub && Tab.mem a.paths r.path && !r.acked && !r.queued)).length

/-- A lane whose own signal is lost: bad, recorded in the runtime Catalogue, LANE_FAILED (R300, R331, R436). -/
def State.laneFailed (s : State) (p sub k : Nat) : State :=
  let s := s.modPort p (fun x => { x with laneBad := setByteBit x.laneBad k true })
  (s.record catLane (8 * p + k) 0x03).1.link { event := 0x03, port := p, sub := sub, lane := 8 * p + k }

/-- SUB_PORT_DOWN: paths stop, packets are queued and sent again on other paths, PORT_DOWN, retraining starts (R316, R436). -/
def State.subDown (s : State) (p sub : Nat) (lane : Option Nat) : State :=
  let n := (s.mio.assocs.map (fun (x : Nat × Assoc) => x.2.subLost p sub)).foldl (· + ·) 0
  let s := s.modPort p (fun x => { x with
    linkUp := setByteBit x.linkUp sub false, linkDowns := satInc x.linkDowns, training := setByteBit x.training sub true,
    retrying := setByteBit x.retrying sub false, retrainFails := Tab.set x.retrainFails sub 0 })
  let s := { s with mio := { s.mio with assocs := s.mio.assocs.map (fun (x : Nat × Assoc) => (x.1, x.2.subDown p sub)) } }
  let s := s.link { event := 0x02, port := p, sub := sub, lane := (lane.map (8 * p + ·)).getD 0x3F, count := n }
  let s := match lane with
    | none => s
    | some k => s.laneFailed p sub k
  s.pumpAll (s.mio.assocs.map (fun (x : Nat × Assoc) => x.1))

/-- SUB_PORT_DOWN. -/
def execSubPortDown (p : PortNo) (sub : Fin 8) (lane : Option (Fin 8)) (s : State) : Out1 :=
  .next (if bitOf (s.port p.val).linkUp.toNat sub.val then s.subDown p.val sub.val (lane.map (·.val)) else s)

/-- Fields of the lanes of a sub-port taken from what training found (R301). -/
def Port.lanesFound (x : Port) (lanes : List Nat) (inv : BitVec 8) (order : BitVec 24) : Port :=
  { x with
    laneInv := BitVec.ofNat 8 (lanes.foldl (fun v k => setBits v k k (fld inv k k)) x.laneInv.toNat)
    laneOrder := BitVec.ofNat 24 (lanes.foldl (fun v k => setBits v (3 * k + 2) (3 * k) (fld order (3 * k + 2) (3 * k))) x.laneOrder.toNat) }

/-- SUB_PORT_UP: the sub-port rejoins the path set (R301, R316, R331). -/
def execSubPortUp (p : PortNo) (sub : Fin 8) (inv : BitVec 8) (order : BitVec 24) (s : State) : Out1 :=
  let x := s.port p.val
  let lanes := subLanes x.mode.toNat sub.val
  if bitOf x.linkUp.toNat sub.val ∨ bitOf x.subOff.toNat sub.val ∨ lanes.isEmpty then .next s
  else
    let s := s.setPort p.val { x.lanesFound lanes inv order with
      linkUp := setByteBit x.linkUp sub.val true, training := setByteBit x.training sub.val false,
      retrying := setByteBit x.retrying sub.val false, retrainFails := Tab.set x.retrainFails sub.val 0 }
    .next ((s.link { event := 0x01, port := p.val, sub := sub.val }).pumpAll (s.mio.assocs.map (fun (x : Nat × Assoc) => x.1)))

/-- SUBPORT_RETRAIN_END: after three failed attempts the sub-port stays down and tries once a second (R436). -/
def execSubportRetrainEnd (p : PortNo) (sub : Fin 8) (ok : Bool) (s : State) : Out1 :=
  let x := s.port p.val
  if !bitOf x.training.toNat sub.val then .next s
  else if ok then .next (s.setPort p.val { x with training := setByteBit x.training sub.val false, retrainFails := Tab.set x.retrainFails sub.val 0 })
  else
    let n := Tab.get 0 x.retrainFails sub.val + 1
    .next (s.setPort p.val { x with
      retrainFails := Tab.set x.retrainFails sub.val n, training := setByteBit x.training sub.val (decide (n < 3)),
      retrying := setByteBit x.retrying sub.val (decide (3 ≤ n)) })

/-- SUBPORT_RETRY_TIMER. -/
def execSubportRetryTimer (p : PortNo) (sub : Fin 8) (s : State) : Out1 :=
  let x := s.port p.val
  .next (if bitOf x.retrying.toNat sub.val then
    s.setPort p.val { x with training := setByteBit x.training sub.val true, retrying := setByteBit x.retrying sub.val false }
  else s)

/-! ## Keys and the opening (R325, R327) -/

/-- A sending direction takes its next key: the phase flips, the counter starts at 0 (R327, R400). -/
def State.rekey (s : State) (k : Nat) : State :=
  let a := s.assoc k
  s.setAssoc k { a with txPhase := !a.txPhase, txCounter := 0, rekeys := a.rekeys + 1, rekeying := true, txKey := nextKey a.txKey (a.rekeys + 1).toNat }

/-- COUNTER_REKEY. -/
def execCounterRekey (a : AssocNo) (s : State) : Out1 :=
  let x := s.assoc a.val
  .next (if x.state = .up ∧ 2 ^ 40 ≤ x.txCounter.toNat then s.rekey a.val else s)

/-- RX_OLD_KEY_EXPIRE. -/
def execRxOldKeyExpire (a : AssocNo) (s : State) : Out1 :=
  let x := s.assoc a.val
  .next (if x.rxOldValid then s.setAssoc a.val x.dropOldKey else s)

/-- An open that failed: the entry is free, the open ends with its status. -/
def State.openFails (s : State) (k : Nat) (st : Status) : State :=
  let a := s.assoc k
  let s := { s with mio := { s.mio with assocs := Tab.erase s.mio.assocs k } }
  match a.slot with
  | none => s
  | some n => s.workEnds n st []

/-- ASSOC_OPEN_TIMEOUT. -/
def execAssocOpenTimeout (a : AssocNo) (s : State) : Out1 :=
  .next (if (s.assoc a.val).state = .opening then s.openFails a.val .gone else s)

/-! ## Migrations (R323) -/

/-- What a migration is at, changed. -/
def State.modMig (s : State) (f : Migration → Migration) : State :=
  { s with mio := { s.mio with migration := s.mio.migration.map f } }

/-- A copy that failed: the first status is kept. -/
def State.migBad (s : State) (st : Status) : State := s.modMig (fun m => if m.failed.isSome then m else { m with failed := some st })

/-- The association onward to a device of a migration's ends. -/
def State.migPath (s : State) (dev : BitVec 16) : Option Nat := if dev = s.mio.deviceNumber then none else s.upAssoc dev.toNat

/-- Requests of one copy to another device, each awaited. -/
def State.migAsk (s : State) (k : Nat) (f : Nat → Nat → MioOut × Purpose) : List (Nat × Nat) → State
  | [] => s
  | (off, n) :: t =>
    let (o, p) := f off n
    State.migAsk ((s.modMig (fun m => { m with awaiting := m.awaiting + 1 })).request k { o with gen := s.cur.deviceGen } p) k f t

/-- Bytes of the segment stored at the new location, from an offset on. -/
def State.migStore (s : State) (m : Migration) (e : AccEntry) (off : Nat) (b : List Byte) : State :=
  let a := e.newAddr.toNat + off
  if e.newDev = s.mio.deviceNumber then match s.writeMem .unit a b with
    | .ok s => s
    | .error st => s.migBad st
  else match s.migPath e.newDev with
    | none => s.migBad .reset
    | some k =>
      let t := e.newDev.toNat * 2 ^ 48 + a
      s.migAsk k (fun o n => ({ op := 0x01, target := BitVec.ofNat 64 (t + o), length := n, data := (b.drop o).take n }, .migPut m.id))
        (putPieces (b.length / 512 + 4) (s.assoc k).limit t 0 b.length)

/-- One granule copied: read here, or asked of the device that holds it. -/
def State.migGranuleCopy (s : State) (m : Migration) (e : AccEntry) (g : Nat) : State :=
  let a := e.targetAddr.toNat + g * migGranule
  if e.targetDev = s.mio.deviceNumber then match s.readMem .unit a migGranule with
    | .ok b => s.migStore m e (g * migGranule) b
    | .error st => (s.countRead a migGranule st).migBad st
  else match s.migPath e.targetDev with
    | none => s.migBad .reset
    | some k =>
      let t := e.targetDev.toNat * 2 ^ 48 + a
      s.migAsk k (fun o n => ({ op := 0x02, target := BitVec.ofNat 64 (t + o), length := n }, .migGet m.id (g * migGranule + o)))
        (putPieces (migGranule / 512 + 4) (s.assoc k).limit t 0 migGranule)

/-- Granules copied in order. -/
def State.migCopies (s : State) (m : Migration) (e : AccEntry) : List Nat → State
  | [] => s
  | g :: t => State.migCopies (s.migGranuleCopy m e g) m e t

/-- The copies of a pass begin, once. -/
def State.migRun (s : State) (m : Migration) (gs : List Nat) : State :=
  if m.asked then s
  else (s.modMig (fun m => { m with asked := true })).migCopies m (Tab.get {} s.mio.accession m.entry) gs

/-- An answer to a copy's request. -/
def State.migAnswer (s : State) (id : Nat) (off : Option Nat) (st : Status) (b : List Byte) : State :=
  match s.mio.migration.filter (fun m => m.id == id) with
  | none => s
  | some m =>
    let s := s.modMig (fun m => { m with awaiting := m.awaiting - 1 })
    if st ≠ .ok then s.migBad st
    else match off with
      | none => s
      | some o => s.migStore m (Tab.get {} s.mio.accession m.entry) o b

/-- Requests a migration held, served again (R323). -/
def State.serveHeld (s : State) : List HeldReq → State
  | [] => s
  | h :: t =>
    State.serveHeld
      (if h.op = 0x09 then { s with released := s.released ++ [.mioderRegRead h.req] }
      else if h.op = 0x0A then { s with released := s.released ++ [.mioderRegWrite h.req] }
      else s.serveMem h.op.toNat h.req) t

/-- The migration ends: the entry as given, its notice, its slot, the held requests and commands. -/
def State.migEnd (s : State) (m : Migration) (e : AccEntry) (st : Status) (i : LinkInfo) : State :=
  let s := { s with
    mio := { s.mio with accession := Tab.set s.mio.accession m.entry { e with state := .live, newDev := 0, newAddr := 0 }, migration := none }
    released := s.released ++ m.cmds }
  (((s.link i).workEnds m.slot st []).serveHeld m.held).retryWrites

/-- The migration is abandoned: the entry stays LIVE on the old target (R323). -/
def State.migFail (s : State) (m : Migration) (st : Status) : State :=
  s.migEnd m (Tab.get {} s.mio.accession m.entry) st { event := 0x09, entry := m.entry, status := st }

/-- How the copies of a pass stand: failed, still awaited, or all made. -/
def Migration.stands (m : Migration) : Option (Option Status) :=
  match m.failed with
  | some st => some (some st)
  | none => if m.awaiting = 0 then some none else none

/-- A pass is over: with at most 16 dirty granules, or after the eighth pass, new requests are held (R323). -/
def Migration.passed (m : Migration) : Migration :=
  let m := { m with copied := m.copied + m.toCopy.length, asked := false }
  if m.dirty.length ≤ 16 ∨ 8 ≤ m.pass then { m with holding := true, toCopy := [] }
  else { m with pass := m.pass + 1, toCopy := m.dirty, dirty := [] }

/-- A request forwarded to an entry's old target is still in flight. -/
def State.migInFlight (s : State) (e : AccEntry) : Bool :=
  s.mio.assocs.any (fun (x : Nat × Assoc) => x.2.kept.any (fun r => r.out.fwd && r.out.status.isNone && fld r.out.target 63 48 == e.targetDev.toNat &&
    decide (e.targetAddr.toNat ≤ fld r.out.target 47 0 ∧ fld r.out.target 47 0 < e.targetAddr.toNat + 2 ^ e.sizeLog.toNat)))

/-- The pass's granules are copied, and every answer to a far copy is in (R323). -/
def State.migratePass (s : State) (fail : Option Status) : State :=
  match s.mio.migration with
  | none => s
  | some m =>
    if m.holding then s
    else match fail with
      | some st => s.migFail m (if st = .ok then .integrity else st)
      | none =>
        let s := s.migRun m m.toCopy
        match s.mio.migration with
        | none => s
        | some m => match m.stands with
          | none => s
          | some (some st) => s.migFail m st
          | some none => { s with mio := { s.mio with migration := some m.passed } }

/-- The last granules are copied and the entry is switched (R323). -/
def State.migrateLast (s : State) (fail : Option Status) : State :=
  match s.mio.migration with
  | none => s
  | some m =>
    let e : AccEntry := Tab.get {} s.mio.accession m.entry
    if !m.holding || s.migInFlight e then s
    else match fail with
      | some st => s.migFail m (if st = .ok then .integrity else st)
      | none =>
        let s := s.migRun m m.dirty
        match s.mio.migration with
        | none => s
        | some m => match m.stands with
          | none => s
          | some (some st) => s.migFail m st
          | some none => s.migEnd m { e with targetDev := e.newDev, targetAddr := e.newAddr } .ok
              { event := 0x08, entry := m.entry, count := m.copied + m.dirty.length }

end Sys2Proof.Machine
end

