-- ==== Sys2Proof/Machine/Coll.lean ====
section
/-! DEFINITION. Collectives, gradient noise, mappings (R335 to R357).
Log entries with the readings and choices that are the model's: 50, 51. -/

namespace Sys2Proof.Machine

/-! ## The descriptor and its tables (R335 to R337) -/

def Coll.op (k : Coll) : Nat := fld k.desc 7 0
def Coll.fmt (k : Coll) : Fmt := (Fmt.ofCode (fld k.desc 11 8)).getD .fp32
def Coll.reduce (k : Coll) : Nat := fld k.desc 13 12
def Coll.gnsEn (k : Coll) : Bool := fld k.desc 14 14 == 1
def Coll.gnsLast (k : Coll) : Bool := fld k.desc 15 15 == 1
def Coll.keepable (k : Coll) : Bool := fld k.desc 16 16 == 1
def Coll.chain (k : Coll) : Bool := fld k.desc 17 17 == 1
def Coll.verify (k : Coll) : Bool := fld k.desc 18 18 == 1
def Coll.isVersioned (k : Coll) : Bool := fld k.desc 19 19 == 1
def Coll.nq (k : Coll) : Nat := fld k.desc 32 27
def Coll.mapNo (k : Coll) : Nat := fld k.desc 36 33
def Coll.inMap (k : Coll) : Bool := fld k.desc 37 37 == 1
def Coll.id (k : Coll) : Nat := fld k.desc 95 64
def Coll.nRanks (k : Coll) : Nat := fld k.desc 108 96
def Coll.root (k : Coll) : Nat := fld k.desc 127 112
def Coll.tag (k : Coll) : Nat := fld k.desc 159 128
def Coll.expect (k : Coll) : Nat := fld k.desc 607 576
def Coll.readyAddr (k : Coll) : Nat := fld k.desc 575 512
def Coll.doneAddr (k : Coll) : Nat := fld k.desc 895 832
def Coll.gnsScale (k : Coll) : Nat := fld k.desc 639 608
def Coll.gnsBatch (k : Coll) : Nat := fld k.desc 671 640

def opAllReduce : Nat := 1
def opReduceScatter : Nat := 2
def opAllGather : Nat := 3
def opAllToAll : Nat := 4
def opBroadcast : Nat := 5
def opPermute : Nat := 6

/-- A rank's entry, its buffers and their devices. -/
def Coll.rank (k : Coll) (r : Nat) : BitVec 512 := nth 0 k.ranks r
def Coll.src (k : Coll) (r : Nat) : W64 := BitVec.ofNat 64 (fld (k.rank r) 127 64)
def Coll.dst (k : Coll) (r : Nat) : W64 := BitVec.ofNat 64 (fld (k.rank r) 191 128)
def Coll.srcDev (k : Coll) (r : Nat) : Nat := fld (k.src r) 63 48
def Coll.dstDev (k : Coll) (r : Nat) : Nat := fld (k.dst r) 63 48
/-- The old (`false`) or new rectangle: first row, rows, first column, columns (R335). -/
def Coll.rect (k : Coll) (r : Nat) (new : Bool) : Nat × Nat × Nat × Nat :=
  let o := if new then 256 else 192
  (bitsOf (k.rank r).toNat (o + 15) o, bitsOf (k.rank r).toNat (o + 31) (o + 16), bitsOf (k.rank r).toNat (o + 47) (o + 32),
    bitsOf (k.rank r).toNat (o + 63) (o + 48))

/-- Bytes of an element (R81, R336). -/
def Coll.w (k : Coll) : Nat := k.fmt.wide
/-- Count i of the count table. -/
def Coll.count (k : Coll) (i : Nat) : Nat := (nth 0 k.counts i).toNat
/-- Elements rank i sends to rank j in an ALL_TO_ALL. -/
def Coll.count2 (k : Coll) (i j : Nat) : Nat := k.count (i * k.nRanks + j)
/-- The ranks. -/
def Coll.rs (k : Coll) : List Nat := List.range k.nRanks
/-- A sum over the ranks. -/
def Coll.sum (k : Coll) (f : Nat → Nat) : Nat := (k.rs.map f).foldl (· + ·) 0
/-- o_r: elements of the ranks before r (R339). -/
def Coll.offset (k : Coll) (r : Nat) : Nat := ((List.range r).map k.count).foldl (· + ·) 0
/-- n: elements of all ranks. -/
def Coll.total (k : Coll) : Nat := k.sum k.count
/-- The largest count. -/
def Coll.longest (k : Coll) : Nat := (k.rs.map k.count).foldl max 0

/-- The participating devices (R335). -/
def Coll.devices (k : Coll) : List Nat := dedup (k.rs.map k.srcDev ++ k.rs.map k.dstDev)
/-- The devices that hold a DST, in rank order. -/
def Coll.dstDevs (k : Coll) : List Nat := dedup (k.rs.map k.dstDev)
/-- This device's ranks by SRC and by DST. -/
def Coll.mySrcs (k : Coll) (me : Nat) : List Nat := k.rs.filter (fun r => k.srcDev r == me)
def Coll.myDsts (k : Coll) (me : Nat) : List Nat := k.rs.filter (fun r => k.dstDev r == me)
/-- The address that elements of a result are named from at a device: its first DST, or that of rank 0 where it holds none. -/
def Coll.firstDst (k : Coll) (dev : Nat) : W64 := ((k.myDsts dev).head?.map k.dst).getD (k.dst 0)
/-- A combining operation. -/
def Coll.combines (k : Coll) : Bool := k.op == opAllReduce || k.op == opReduceScatter

/-- This device's number. -/
def State.me (s : State) : Nat := s.mio.deviceNumber.toNat

/-! ## What moves (R339, R343) -/

/-- Elements read at a rank's SRC and where they go. -/
structure Move where
  rank   : Nat
  off    : Nat
  n      : Nat
  dev    : Nat
  target : W64
deriving DecidableEq, Repr

/-- The segment of an ALL_REDUCE's result that the i-th participating device combines (R340): first element and end. -/
def Coll.segment (k : Coll) (i : Nat) : Nat × Nat :=
  let z := ceilDiv k.longest (max 1 k.devices.length)
  (min k.longest (i * z), min k.longest ((i + 1) * z))

/-- Devices numbered. -/
def Coll.numberedDevs (k : Coll) : List (Nat × Nat) := numbered 0 k.devices

/-- The tile of a rectangle at buffer place (i × COLS + j), if the rectangle holds tile (a, b). -/
def tileIn (r : Nat × Nat × Nat × Nat) (a b : Nat) : Option Nat :=
  if r.1 ≤ a ∧ a < r.1 + r.2.1 ∧ r.2.2.1 ≤ b ∧ b < r.2.2.1 + r.2.2.2 then some ((a - r.1) * r.2.2.2 + (b - r.2.2.1)) else none

/-- The tiles of a rectangle, by tensor row and column. -/
def tilesOf (r : Nat × Nat × Nat × Nat) : List (Nat × Nat) :=
  ((List.range r.2.1).map (fun i => (List.range r.2.2.2).map (fun j => (r.1 + i, r.2.2.1 + j)))).flatten

/-- A rank permutes in place (R343). -/
def Coll.inPlace (k : Coll) (r : Nat) : Bool := k.op == opPermute && k.src r == k.dst r

/-- Bytes of a TILED block (R169). -/
def Coll.tileBytes (k : Coll) : Nat := blockBytes k.fmt

/-- Where a tile of rank q goes in a PERMUTE; none where it stays in place at its offset. -/
def Coll.tileMove (k : Coll) (q : Nat) (a b : Nat) : Option Move :=
  match tileIn (k.rect q false) a b, k.rs.find? (fun r => (tileIn (k.rect r true) a b).isSome) with
  | some o, some r =>
    let n := (tileIn (k.rect r true) a b).getD 0
    if q = r ∧ k.inPlace q ∧ o = n then none
    else some { rank := q, off := o * 4096, n := 4096, dev := k.dstDev r, target := k.dst r + BitVec.ofNat 64 (n * k.tileBytes) }
  | _, _ => none

/-- A target some elements past an address. -/
def Coll.past (k : Coll) (a : W64) (e : Nat) : W64 := a + BitVec.ofNat 64 (e * k.w)

/-- What rank q's contribution becomes (R339); a CHAIN moves by chunks instead. -/
def Coll.moves (k : Coll) (q : Nat) : List Move :=
  let l : List Move :=
    if k.op = opAllReduce then k.numberedDevs.map (fun (i, d) =>
      let g := k.segment i
      { rank := q, off := g.1, n := min (k.count q) g.2 - g.1, dev := d, target := k.past (k.firstDst d) g.1 })
    else if k.op = opReduceScatter then k.rs.map (fun r =>
      { rank := q, off := k.offset r, n := k.count r, dev := k.dstDev r, target := k.dst r })
    else if k.op = opAllGather then k.rs.map (fun r =>
      { rank := q, off := 0, n := k.count q, dev := k.dstDev r, target := k.past (k.dst r) (k.offset q) })
    else if k.op = opAllToAll then k.rs.map (fun j =>
      {
        rank := q, off := ((List.range j).map (k.count2 q)).foldl (· + ·) 0, n := k.count2 q j, dev := k.dstDev j,
        target := k.past (k.dst j) (((List.range q).map (fun i => k.count2 i j)).foldl (· + ·) 0) })
    else if k.op = opBroadcast then
      (if k.chain || q != k.root then [] else k.rs.map (fun r =>
        { rank := q, off := 0, n := k.count q, dev := k.dstDev r, target := k.dst r }))
    else (tilesOf (k.rect q false)).filterMap (fun (a, b) => k.tileMove q a b)
  l.filter (fun m => m.n != 0)

/-- Elements a rank's SRC holds (R339). -/
def Coll.srcLen (k : Coll) (q : Nat) : Nat :=
  if k.op = opReduceScatter then k.total
  else if k.op = opAllToAll then k.sum (k.count2 q)
  else if k.op = opBroadcast then (if q = k.root then k.count q else 0)
  else if k.op = opPermute then 4096 * ((k.rect q false).2.1 * (k.rect q false).2.2.2)
  else k.count q

/-- Elements a rank's DST receives (R339). -/
def Coll.dstLen (k : Coll) (r : Nat) : Nat :=
  if k.op = opReduceScatter ∨ k.op = opAllReduce then k.count r
  else if k.op = opAllToAll then k.sum (fun i => k.count2 i r)
  else if k.op = opBroadcast then k.count k.root
  else if k.op = opPermute then 4096 * ((k.rect r true).2.1 * (k.rect r true).2.2.2)
  else k.total

/-- Elements that become final on a device in a run. -/
def Coll.due (k : Coll) (me : Nat) : Nat :=
  if k.op = opAllReduce then (if (k.myDsts me).isEmpty then 0 else k.longest)
  else if k.op = opReduceScatter then ((k.myDsts me).map k.count).foldl (· + ·) 0
  else if k.chain then 0
  else ((k.rs.map (fun q => ((k.moves q).filter (fun m => m.dev == me)).map (·.n))).flatten).foldl (· + ·) 0

/-- Ranks that contribute element e of the combined vector. -/
def Coll.contributors (k : Coll) (e : Nat) : Nat :=
  if k.op = opAllReduce then (k.rs.filter (fun q => decide (e < k.count q))).length else k.nRanks

/-! ## Combining (R340) -/

/-- The identity of a reduction, as an FP32 or INT32 code. -/
def Coll.identity (k : Coll) : Nat :=
  let int := k.fmt == .int32
  if k.reduce = 0 then 0
  else if k.reduce = 1 then (if int then 0x80000000 else 0xFF800000)
  else (if int then 0x7FFFFFFF else 0x7F800000)

/-- An element as it is combined: BF16 in FP32. -/
def Coll.widen (k : Coll) (code : Nat) : Nat := if k.fmt = .bf16 then r32 (valueOf .bf16 code) else code

/-- A combined element as it is stored. -/
def Coll.narrow (k : Coll) (code : Nat) : Nat := if k.fmt = .bf16 then (convert .bf16 .toInf none (f32 code)).code else code

/-- An element's value. -/
def Coll.val (k : Coll) (code : Nat) : FVal := if k.fmt = .int32 then FVal.ofInt (sext 32 code) else f32 (k.widen code)

/-- FP64 operations on codes, each rounded once (R344, R345). -/
def dAdd (a b : Nat) : Nat := r64 ((f64 a).add (f64 b))
def dSub (a b : Nat) : Nat := r64 ((f64 a).sub (f64 b))
def dMul (a b : Nat) : Nat := r64 ((f64 a).mul (f64 b))
def dDiv (a b : Nat) : Nat := r64 ((f64 a).div (f64 b))
/-- The FP64 code of a natural number. -/
def dNat (n : Nat) : Nat := r64 (.fin false n 0)

/-- An element scaled by GNS_SCALE, in FP64 (R344). -/
def Coll.scaled (k : Coll) (code : Nat) : Nat := dMul (r64 (f32 k.gnsScale)) (r64 (k.val code))
/-- 1 / R in FP64. -/
def Coll.perRank (k : Coll) : Nat := dDiv (dNat 1) (dNat k.nRanks)
/-- A sum of squares in FP64, in an order the spec does not give. -/
def squares (seed : Nat) (l : List Nat) : Nat := pickSum dAdd 0 seed l.length (l.map (fun u => dMul u u))

/-- A run measures noise. -/
def Coll.measures (k : Coll) : Bool := k.gnsEn && k.combines && decide (2 ≤ k.nRanks)

/-- One contribution combined (R51, R151, R340). -/
def Coll.combine (k : Coll) (a x : Nat) : Nat :=
  if k.fmt = .int32 then
    let i := sext 32 a
    let j := sext 32 x
    wrapInt 32 (if k.reduce = 0 then (clampInt (-(2 ^ 31)) (2 ^ 31 - 1) (i + j)).1 else if k.reduce = 1 then max i j else min i j)
  else if k.reduce = 0 then r32 ((f32 a).add (f32 x))
  else if k.reduce = 1 then r32 (vmax (f32 a) (f32 x))
  else r32 (vmin (f32 a) (f32 x))

/-! ## Ending a run (R341, R353, R354) -/

/-- A collective's entry, and the run in progress, changed. -/
def State.modColl (s : State) (k : Nat) (f : Coll → Coll) : State := s.setColl k (f (s.collOf k))
def State.modRun (s : State) (k : Nat) (f : CollRun → CollRun) : State := s.modColl k (fun x => { x with now := x.now.map f })
def State.modMapping (s : State) (m : Nat) (f : Mapping → Mapping) : State := s.setMapping m (f (s.mapping m))

/-- Leaves of the completion signal on this device that are dark, and those under reset (R354). -/
def State.signalLeaves (s : State) (k : Coll) : Nat × Nat :=
  if fld k.desc 20 20 = 0 then (0, 0)
  else
    let l := (s.expand (BitVec.ofNat 48 (fld k.desc 207 160))).leaves
    ((l.filter (fun c => (s.core c).dark)).length, (l.filter (fun c => !(s.core c).dark && (s.core c).inReset)).length)

/-- A COLLECTIVE notice of a run (R354). -/
def State.collNotice (s : State) (k event : Nat) (queues : List Nat) (st : Status) (out inn : Nat) (kept : Bool) : State :=
  let x := s.collOf k
  let (d, r) := s.signalLeaves x
  s.raise queues kCollective .device st x.tag
    (payload32 [(0, 8, event), (8, 1, bit kept), (11, 4, if x.inMap then x.mapNo else 0), (32, 32, x.id), (64, 32, x.run.toNat), (96, 16, d),
      (112, 16, r), (128, 48, out), (176, 48, inn)])

/-- A COLLECTIVE request to another participating device (R355). -/
def State.collSend (s : State) (k op : Nat) (target : W64) (data : List Byte) (dev : Nat) : State :=
  let x := s.collOf k
  match s.upAssoc dev with
  | none => s
  | some a => s.request a {
      op := BitVec.ofNat 8 op, target := target, gen := s.cur.deviceGen, length := data.length, data := data,
      aux := BitVec.ofNat 48 (x.id + x.run.toNat % 65536 * 2 ^ 32) } (.coll k)

/-- The same to several devices. -/
def State.collSendAll (s : State) (k op : Nat) (data : List Byte) : List Nat → State
  | [] => s
  | d :: t => State.collSendAll (s.collSend k op 0 data d) k op data t

/-- The other participating devices. -/
def State.collOthers (s : State) (k : Nat) : List Nat := (s.collOf k).devices.filter (· != s.me)

/-- Memory of this device at a fabric address left undefined. -/
def State.undefine (s : State) (addr : W64) (n : Nat) : State :=
  match s.place true permWrite addr n with
  | .here a => s.scribble a n
  | .far _ _ _ => s
  | .refused _ => s
  | .wait => s

/-- Every DST of this device left undefined (R353). -/
def State.undefineDsts (s : State) (x : Coll) : List Nat → State
  | [] => s
  | r :: t => State.undefineDsts (s.undefine (x.dst r) (x.dstLen r * x.w)) x t

/-- The staging region left undefined (R353). -/
def State.undefineStage (s : State) (x : Coll) : State :=
  if x.op = opPermute ∧ x.rs.any x.inPlace then s.scribble (fld x.desc 447 384) (fld x.desc 511 448) else s

/-- A run ends early on this device (R353); a listed run stops its transition (R347). -/
def State.collFail (s : State) (k : Nat) (st : Status) : State :=
  let x := s.collOf k
  let r := x.now.getD {}
  let s := s.collNotice k 0x02 [0, x.nq] st r.bytesOut r.bytesIn false
  let s := if x.now.isSome && !r.keptRun then (s.undefineDsts x (x.myDsts s.me)).undefineStage x else s
  let s := if r.byTransition then s.modMapping x.mapNo (fun m => { m with stopped := true }) else s
  let s := { s with
    coll := { s.coll with
      fails := satInc s.coll.fails, timeouts := if decide (st = Status.deadlineMiss) then satInc s.coll.timeouts else s.coll.timeouts } }
  s.modColl k (fun x => { x with now := none, early := {}, lastStatus := BitVec.ofNat 16 (statusCode st) })

/-- A run ends early here, and on every other device by COLL_ABORT (R353, R355). -/
def State.collAbort (s : State) (k : Nat) (st : Status) : State :=
  (s.collSendAll k 0x43 (leBytes 2 (statusCode st)) (s.collOthers k)).collFail k st

/-! ## Elements arrive (R340, R343, R349) -/

/-- An access of a collective would be held: by a migration, or at the door of a Core under takeover (R323, R428). -/
def State.collWaits (s : State) (need : Nat) (a : W64) (n : Nat) : Bool :=
  n != 0 && match s.place true need a n with
    | .here l => (s.heldBy l n).isSome
    | .far _ _ _ => false
    | .refused _ => false
    | .wait => true

/-- A DST of this device would hold a write. -/
def State.dstsWait (s : State) (x : Coll) : Bool := (x.myDsts s.me).any (fun r => s.collWaits permWrite (x.dst r) (x.dstLen r * x.w))

/-- A command kept until an access that holds it may go on. -/
def State.defer (s : State) (spans : List (Nat × W64 × Nat)) (i : Instr) : Option State :=
  match spans.find? (fun (p, a, n) => s.collWaits p a n) with
  | none => none
  | some (p, a, n) => match s.place true p a n with
    | .here l => (s.heldBy l n).map (fun c => s.hold c i)
    | .far _ _ _ => none
    | .refused _ => none
    | .wait => some (s.modMig (fun m => { m with cmds := m.cmds ++ [i] }))

/-- Bytes of elements written at a fabric address of this device; the status of a refused write. A write that an Accession entry sends to
another device is awaited. -/
def State.collWrite (s : State) (c : Nat) (a : W64) (b : List Byte) : Except Status State :=
  if b.isEmpty then .ok s
  else match s.place true permWrite a b.length with
    | .here l => match s.writeMem .unit l b with
      | .ok s => .ok (s.markDirty (fld a 47 0) b.length)
      | .error e => .error e
    | .far k fwd t => .ok (((s.modRun c (fun y => { y with awaited := y.awaited + 1 })).request k
        { op := 0x01, target := t, fwd := fwd, gen := s.cur.deviceGen, length := b.length, data := b } (.coll c)).markDirty (fld a 47 0) b.length)
    | .refused e => .error e
    | .wait => .error .busy

/-- The same at several addresses. -/
def State.collWrites (s : State) (c : Nat) : List (W64 × List Byte) → Except Status State
  | [] => .ok s
  | (a, b) :: t => match s.collWrite c a b with
    | .error e => .error e
    | .ok s => State.collWrites s c t

/-- Final elements e, e + 1, … of the result reach every DST of this device that holds them. -/
def State.finals (s : State) (k : Nat) (x : Coll) (e : Nat) (b : List Byte) : Except Status State :=
  let n := b.length / x.w
  let ws := (x.myDsts s.me).map (fun r =>
    if x.op = opAllReduce then (x.past (x.dst r) e, b.take ((min (x.count r) (e + n) - e) * x.w))
    else if x.offset r ≤ e ∧ e < x.offset r + x.count r then (x.past (x.dst r) (e - x.offset r), b) else (x.dst r, []))
  let bytes := (ws.map (fun p => p.2.length)).foldl (· + ·) 0
  match s.collWrites k ws with
  | .error e => .error e
  | .ok s => .ok (s.modRun k (fun y => { y with got := y.got + n, bytesIn := y.bytesIn + bytes }))

/-- One contribution to element e; the element is final with its last one. -/
def State.combineAt (s : State) (k e code : Nat) : Except Status State :=
  let x := s.collOf k
  match x.now with
  | none => .ok s
  | some r =>
    let a := (Tab.get (BitVec.ofNat 64 x.identity) r.acc e).toNat
    let v := x.combine a (x.widen code)
    let n := Tab.get 0 r.arrived e + 1
    let s := s.modRun k (fun y => { y with
      acc := Tab.set y.acc e (BitVec.ofNat 64 v), arrived := Tab.set y.arrived e n
      sums := if x.measures then Tab.set y.sums e (BitVec.ofNat 64 (dAdd (Tab.get 0 y.sums e).toNat (x.scaled code))) else y.sums })
    if n = x.contributors e then s.finals k x e (leBytes x.w (x.narrow v)) else .ok s

/-- Contributions to elements e, e + 1, …. -/
def State.combineAll (s : State) (k : Nat) : Nat → List (List Byte) → Except Status State
  | _, [] => .ok s
  | e, b :: t => match s.combineAt k e (ofLe b) with
    | .error st => .error st
    | .ok s => State.combineAll s k (e + 1) t

/-- The element of the result that a target address names: of the first DST here for ALL_REDUCE, of the DST that holds it else. -/
def Coll.element (k : Coll) (me : Nat) (a : W64) : Option Nat :=
  if k.op = opAllReduce then some ((a - k.firstDst me).toNat / k.w)
  else ((k.myDsts me).find? (fun r => decide ((a - k.dst r).toNat < k.count r * k.w))).map (fun r => k.offset r + (a - k.dst r).toNat / k.w)

/-- This device combines element e (R340). -/
def Coll.combinesHere (k : Coll) (me e : Nat) : Bool :=
  k.op == opReduceScatter || k.numberedDevs.any (fun (i, d) => d == me && decide ((k.segment i).1 ≤ e ∧ e < (k.segment i).2))

/-- Chunk size of a chain (R351). -/
def chunkBytes : Nat := 16 * 2 ^ 20
/-- Offset of a chunk. -/
def chunkAt (c : Nat) : W64 := BitVec.ofNat 64 (c * chunkBytes)

/-- The rank in place whose DST a target lies in. -/
def Coll.stagesAt (k : Coll) (me : Nat) (a : W64) : Bool :=
  (k.myDsts me).any (fun r => k.inPlace r && decide ((a - k.dst r).toNat < k.dstLen r * k.w))

/-- Elements that reach this device at a target address. -/
def State.collArrive (s : State) (k : Nat) (a : W64) (b : List Byte) : Except Status State :=
  let x := s.collOf k
  match x.now with
  | none => .error .gone
  | some r =>
    if r.keptRun then .ok s
    else if x.combines then
      match x.element s.me a with
      | none => .error .badParam
      | some e =>
        if x.combinesHere s.me e then s.combineAll k e (chunksOf b.length x.w b) else s.finals k x e b
    else if x.chain then
      let c := (a - x.firstDst s.me).toNat / chunkBytes
      match s.collWrite k a b with
      | .error e => .error e
      | .ok s => .ok (s.modRun k (fun y => { y with arrived := Tab.modify 0 y.arrived c (· + b.length), bytesIn := y.bytesIn + b.length }))
    else if x.stagesAt s.me a then
      let o := (r.staged.map (fun p => p.2.2)).foldl (· + ·) 0
      match s.writeMem .unit (fld x.desc 447 384 + o) b with
      | .error e => .error e
      | .ok s => .ok (s.modRun k (fun y => { y with staged := y.staged ++ [(a, o, b.length)], got := y.got + b.length / x.w }))
    else match s.collWrite k a b with
      | .error e => .error e
      | .ok s => .ok (s.modRun k (fun y => { y with got := y.got + b.length / x.w, bytesIn := y.bytesIn + b.length }))

/-! ## Elements leave (R309, R339, R341) -/

/-- A read of a rank's SRC, versioned where the collective is (R243, R341). -/
def State.collRead (s : State) (x : Coll) (v : BitVec 32) (a : W64) (n : Nat) : Except Status (List Byte) :=
  if n = 0 then .ok []
  else match s.place true permRead a n with
    | .here l => if x.isVersioned then s.serveGet .unit l n v else s.readMem .unit l n
    | .far _ _ _ => s.remote a.toNat n
    | .refused e => .error e
    | .wait => .error .busy

/-- Packets of a move to another device: none crosses a boundary of the packet limit (R309). -/
def State.collPackets (s : State) (k dev : Nat) (a : W64) (b : List Byte) : List (Nat × Nat) → State
  | [] => s
  | (off, n) :: t =>
    State.collPackets ((s.collSend k 0x40 (a + BitVec.ofNat 64 off) ((b.drop off).take n) dev).modRun k
      (fun y => { y with bytesOut := y.bytesOut + n })) k dev a b t

/-- Bytes delivered at a target: here, or on another device. -/
def State.collDeliver (s : State) (k dev : Nat) (a : W64) (b : List Byte) : Except Status State :=
  if dev = s.me then s.collArrive k a b
  else
    let lim := match s.upAssoc dev with
      | some q => (s.assoc q).limit
      | none => 4096
    .ok (s.collPackets k dev a b (putPieces (b.length / lim + 2) lim a.toNat 0 b.length))

/-- The squares of a contribution's elements join this device's S_small as they are read (R344). -/
def State.noteSmall (s : State) (k : Nat) (b : List Byte) : State :=
  let x := s.collOf k
  if !x.measures then s
  else
    let q := dMul x.perRank (squares s.freeCtr ((chunksOf b.length x.w b).map (fun c => x.scaled (ofLe c))))
    (s.modRun k (fun y => { y with gnsSmall := BitVec.ofNat 64 (dAdd y.gnsSmall.toNat q) })).fresh

/-- Moves carried out in order. -/
def State.collMoves (s : State) (k : Nat) (v : BitVec 32) : List Move → Except Status State
  | [] => .ok s
  | m :: t =>
    let x := s.collOf k
    match s.collRead x v (x.past (x.src m.rank) m.off) (m.n * x.w) with
    | .error e => .error e
    | .ok b => match (s.noteSmall k b).collDeliver k m.dev m.target b with
      | .error e => .error e
      | .ok s => State.collMoves s k v t

/-- The contributions of this device's ranks to a device that is ready; none while one of their accesses would be held. -/
def State.collPush (s : State) (k dev : Nat) : Except Status State :=
  let x := s.collOf k
  match x.now with
  | none => .ok s
  | some r =>
    if r.pushed.contains dev then .ok s
    else
      let ms := ((x.mySrcs s.me).map x.moves).flatten.filter (fun m => m.dev == dev)
      if ms.any (fun m => s.collWaits permRead (x.past (x.src m.rank) m.off) (m.n * x.w)) || (dev == s.me && s.dstsWait x) then .ok s
      else (s.modRun k (fun y => { y with pushed := y.pushed ++ [dev] })).collMoves k r.version ms

/-- This device's own segment of an ALL_REDUCE is combined. -/
def Coll.segmentOver (k : Coll) (me : Nat) (r : CollRun) : Bool :=
  k.op == opAllReduce && k.numberedDevs.any (fun (i, d) => d == me &&
    (List.range ((k.segment i).2 - (k.segment i).1)).all (fun j =>
      Tab.get 0 r.arrived ((k.segment i).1 + j) == k.contributors ((k.segment i).1 + j)))

/-- A combined segment goes to the other devices that are ready (R340). -/
def State.collDist (s : State) (k : Nat) : List Nat → State
  | [] => s
  | d :: t =>
    let x := s.collOf k
    let r := x.now.getD {}
    if r.dist.contains d || !r.ready.contains d || !x.dstDevs.contains d || !x.segmentOver s.me r then State.collDist s k t
    else
      let g := ((x.numberedDevs.find? (fun (_, e) => e == s.me)).map (fun (i, _) => x.segment i)).getD (0, 0)
      let b := ((List.range (g.2 - g.1)).map (fun j => leBytes x.w (x.narrow (Tab.get 0 r.acc (g.1 + j)).toNat))).flatten
      State.collDist (match (s.modRun k (fun y => { y with dist := y.dist ++ [d] })).collDeliver k d (x.past (x.firstDst d) g.1) b with
        | .ok s => s
        | .error _ => s) k t

/-- Every contribution of this device has been read and every element combined here is final. -/
def State.sumsFormed (s : State) (k : Nat) (r : CollRun) : Bool :=
  let x := s.collOf k
  x.devices.all r.pushed.contains &&
    (if x.op = opAllReduce then x.segmentOver s.me r else decide (((x.myDsts s.me).map x.count).foldl (· + ·) 0 ≤ r.got))

/-- This device's part of S_big (R344): the squares of the scaled means of the elements combined here. -/
def Coll.gnsBigOf (k : Coll) (seed : Nat) (r : CollRun) : Nat := squares seed (r.sums.map (fun (p : Nat × W64) => dMul k.perRank p.2.toNat))

/-- This device's partial sums, once formed, reach the root's device (R344, R355). -/
def State.gnsSend (s : State) (k : Nat) : State :=
  let x := s.collOf k
  match x.now with
  | none => s
  | some r =>
    if !x.measures || r.gnsSent || !s.sumsFormed k r then s
    else
      let big := x.gnsBigOf s.freeCtr r
      let s := (s.modRun k (fun y => { y with gnsSent := true })).fresh
      if x.srcDev x.root = s.me then s.modRun k (fun y => { y with gnsBig := BitVec.ofNat 64 (dAdd y.gnsBig.toNat big) })
      else s.collSend k 0x44 0 (leBytes 8 r.gnsSmall.toNat ++ leBytes 8 big) (x.srcDev x.root)

/-- Everything that may move now does: contributions to ready devices and to this one, combined segments, noise sums. -/
def State.collGo (s : State) (k : Nat) : List Nat → Except Status State
  | [] => .ok ((s.collDist k (s.collOthers k)).gnsSend k)
  | d :: t =>
    let r := (s.collOf k).now.getD {}
    if d = s.me ∨ r.ready.contains d then
      match s.collPush k d with
      | .error e => .error e
      | .ok s => State.collGo s k t
    else State.collGo s k t

/-- The run goes on, or ends early with the status of an access that failed (R353). -/
def State.collDrive (s : State) (k : Nat) : State :=
  match s.collGo k (s.collOf k).devices with
  | .ok s => s
  | .error e => s.collAbort k e

/-! ## Order 1 (R341, R342, R348) -/

/-- A listed collective whose mapping runs a transition now (R348). -/
def State.transitionRuns (s : State) (x : Coll) : Bool :=
  let m := s.mapping x.mapNo
  x.inMap && m.transition && !m.stopped && m.lists.any (fun l => l.contains (BitVec.ofNat 32 x.id))

/-- The parts of a post on which the devices must agree (R338): the descriptor but for the fields each device sets for itself, and both
tables. -/
def Coll.agreed (k : Coll) : List Byte :=
  let own : List (Nat × Nat) := [(32, 27), (20, 20), (26, 21), (207, 160), (447, 384), (511, 448), (575, 512), (607, 576), (767, 704), (831, 768),
    (895, 832)]
  leBytes 256 (own.foldl (fun v (h, l) => setBits v h l 0) k.desc.toNat) ++
    (k.ranks.map (fun r => leBytes 64 r.toNat)).flatten ++ (k.counts.map (fun c => leBytes 8 c.toNat)).flatten

/-- The digest of those parts. -/
def Coll.digest (k : Coll) : List Byte := Config.sha3 k.agreed

/-- The digest goes to other devices at the first run (R338). -/
def State.sendDigests (s : State) (k : Nat) : List Nat → State
  | [] => s
  | d :: t => State.sendDigests (match s.upAssoc d with
      | none => s
      | some a => { s with out := s.out ++ [.digest a (s.collOf k).id (s.collOf k).digest] }) k t

/-- Another device's digest that came is not this device's, at the first run. -/
def Coll.disagrees (k : Coll) : Bool := k.run == 0 && k.digests.any (fun p => p.2 != k.digest)

/-- A run reaches order 1 on this device: READY to the others, the version word, and what may move (R341, R342). -/
def State.collStart (s : State) (k : Nat) (byTransition : Bool) : State :=
  let x := s.collOf k
  let missing := (s.collOthers k).any (fun d => (s.upAssoc d).isNone)
  let ver : Except Status Nat := if x.isVersioned then (s.readMem .unit (fld x.desc 767 704) 4).map ofLe else .ok 0
  let kept := x.kept && decide ((s.mapping x.mapNo).phase = .backward)
  let r : CollRun := { x.early with keptRun := kept, byTransition := byTransition, version := BitVec.ofNat 32 (ver.toOption.getD 0) }
  let s := s.setColl k { x with now := some r, early := {} }
  if missing then s.collAbort k .gone
  else if x.disagrees then s.collAbort k .badParam
  else match ver with
    | .error e => s.collAbort k e
    | .ok _ =>
      let s := if x.run = 0 then s.sendDigests k (s.collOthers k) else s
      (s.collSendAll k 0x41 [] (s.collOthers k)).collDrive k

/-- EXPECT subtracted from a word of memory. -/
def State.subtract (s : State) (a n : Nat) : State :=
  match s.writeMem .unit a (leBytes 8 (BitVec.ofNat 64 (s.num a 8) - BitVec.ofNat 64 n).toNat) with
  | .ok s => s
  | .error _ => s

/-- COLL_RUN_START: the ready word has reached EXPECT, no run is in progress and no transition of its mapping runs; or a
COLLECTIVE_RUN that came during a run takes effect. -/
def execCollRunStart (k : Fin 256) (s : State) : Out1 :=
  let x := s.collOf k.val
  if !x.posted || x.now.isSome || s.transitionRuns x then .next s
  else if x.readyAgain ≠ 0 then
    .next (((s.setColl k.val { x with readyAgain := x.readyAgain - 1 }).subtract x.readyAddr x.expect).collStart k.val false)
  else if s.num x.readyAddr 8 < x.expect then .next s
  else .next ((s.subtract x.readyAddr x.expect).collStart k.val false)

/-! ## Completion (R341, R344, R345, R347, R349) -/

/-- DST bytes of a run on this device. -/
def State.dstBytes (s : State) (x : Coll) : Nat := ((x.myDsts s.me).map (fun r => x.dstLen r * x.w)).foldl (· + ·) 0

/-- A gather completing in FORWARD is kept within the budget (R349). -/
def State.keep (s : State) (k : Nat) : State :=
  let x := s.collOf k
  let m := s.mapping x.mapNo
  let n := s.dstBytes x
  if x.op = opAllGather ∧ x.keepable ∧ x.inMap ∧ m.valid ∧ m.phase = .forward ∧ !x.kept ∧ m.keepUsed.toNat + n ≤ fld m.record 47 0 then
    (s.setMapping x.mapNo { m with keepUsed := m.keepUsed + BitVec.ofNat 48 n }).modColl k (fun x => { x with kept := true })
  else s

/-- The number of a mapping's phase (R354, R357). -/
def phaseNo : Phase → Nat
  | .forward => 0
  | .backward => 1
  | .update => 2

/-- The phase after a phase (R346). -/
def nextPhase : Phase → Phase
  | .forward => .backward
  | .backward => .update
  | .update => .forward

/-- Every KEPT bit of a mapping cleared. -/
def State.unkeep (s : State) (m : Nat) : State :=
  { s with coll := { s.coll with colls := s.coll.colls.map (fun (p : Nat × Coll) => (p.1, if p.2.inMap ∧ p.2.mapNo = m then { p.2 with kept := false } else p.2)) } }

/-- The mapping enters its next phase, signals and reports it (R347, R349). -/
def State.enterPhase (s : State) (m : Nat) : State :=
  let x := s.mapping m
  let p := nextPhase x.phase
  let s := s.setMapping m { x with phase := p, transition := false, todo := [], keepUsed := if p = .update then 0 else x.keepUsed }
  let s := if p = .update then s.unkeep m else s
  let s := if fld x.record 166 166 = 1 then s.signalUnit (BitVec.ofNat 48 (fld x.record 239 192)) (fld x.record 172 167) 0 else s
  s.raise [fld x.record 165 160] kCollective .device .ok 0 (payload32 [(0, 8, 0x03), (9, 2, phaseNo p), (11, 4, m)])

/-- The entry of a posted collective by its COLL_ID. -/
def State.collById (s : State) (id : Nat) : Option Nat := (s.coll.colls.find? (fun (_, x) => x.posted && x.id == id)).map (·.1)

/-- The transition reaches its next run, or its end (R347); a run in progress is waited for, and the transition's own follows it. -/
def State.mapGo (s : State) (m : Nat) : State :=
  let x := s.mapping m
  if !x.transition || x.stopped then s
  else match x.todo with
    | [] => s.enterPhase m
    | id :: _ => match s.collById id.toNat with
      | none => s.setMapping m { x with stopped := true }
      | some k => if (s.collOf k).now.isSome then s else s.collStart k true

/-- A transition of a collective's mapping goes on as far as it may. -/
def State.mapAfter (s : State) (k : Nat) : State := if (s.collOf k).inMap then s.mapGo (s.collOf k).mapNo else s

/-- β × old + (1 − β) × new (R345). -/
def smoothed (beta old new : Nat) : Nat := dAdd (dMul beta old) (dMul (dSub (dNat 1) beta) new)

/-- The closing run of a measurement: the estimates and the GNS notice (R345). -/
def State.gnsClose (s : State) (k : Nat) (g : Gns) (run : Nat) : State :=
  let x := s.collOf k
  let r := dNat g.ranks
  let d := dNat (g.ranks - 1)
  let ge := dDiv (dSub (dMul r g.sBig.toNat) g.sSmall.toNat) d
  let te := dDiv (dMul (dMul (dNat x.gnsBatch) r) (dSub g.sSmall.toNat g.sBig.toNat)) d
  let beta := r64 (f32 s.coll.gnsBeta.toNat)
  let gh := if x.measured then smoothed beta x.gHat.toNat ge else ge
  let th := if x.measured then smoothed beta x.tHat.toNat te else te
  let b := if (FVal.zero).lt (f64 gh) then dDiv th gh else 0x7FF0000000000000
  let s := s.setColl k { x with gHat := BitVec.ofNat 64 gh, tHat := BitVec.ofNat 64 th, measured := true }
  s.raise [s.coll.gnsNq.toNat, 0] kGns .device .ok x.id
    (leBytes 64 (pack [(0, 64, g.sSmall.toNat), (64, 64, g.sBig.toNat), (128, 64, ge), (192, 64, te), (256, 64, gh), (320, 64, th),
      (384, 64, b), (448, 16, g.ranks), (464, 16, g.runs), (480, 32, run)]))

/-- A completed run's sums join the measurement on the root's device (R344). -/
def State.gnsAdd (s : State) (k : Nat) (r : CollRun) (run : Nat) : State :=
  let x := s.collOf k
  if !x.measures || x.srcDev x.root != s.me then s
  else
    let g := s.coll.gns.getD { ranks := x.nRanks }
    if g.ranks ≠ x.nRanks then { s with coll := { s.coll with gns := none, gnsDropped := satInc s.coll.gnsDropped } }
    else
      let g := { g with
        runs := g.runs + 1, sSmall := BitVec.ofNat 64 (dAdd g.sSmall.toNat r.gnsSmall.toNat), sBig := BitVec.ofNat 64 (dAdd g.sBig.toNat r.gnsBig.toNat) }
      if x.gnsLast then ({ s with coll := { s.coll with gns := none } }).gnsClose k g run
      else { s with coll := { s.coll with gns := some g } }

/-- Every device is done, and on the root's device every partial noise sum has come. -/
def State.collOver (s : State) (k : Nat) : Bool :=
  let x := s.collOf k
  match x.now with
  | none => false
  | some r =>
    r.localDone && (s.collOthers k).all r.done.contains &&
      (!x.measures || (r.gnsSent && (x.srcDev x.root != s.me || (s.collOthers k).all r.gnsFrom.contains)))

/-- A run that is over completes: the counts, the kept copy's release, the measurement, the transition (R341, R347, R349). -/
def State.collSettle (s : State) (k : Nat) : State :=
  if !s.collOver k then s
  else
    let x := s.collOf k
    let r := x.now.getD {}
    let n := BitVec.ofNat 48 (s.dstBytes x)
    let s := s.setColl k { x with now := none, run := x.run + 1, kept := x.kept && !r.keptRun }
    let s := { s with coll := { s.coll with runs := satInc s.coll.runs } }
    let s := if r.keptRun then s.modMapping x.mapNo (fun m => { m with keepUsed := if n.toNat ≤ m.keepUsed.toNat then m.keepUsed - n else 0 }) else s
    let s := s.gnsAdd k r x.run.toNat
    let s := if r.byTransition then s.modMapping x.mapNo (fun m => { m with todo := m.todo.tail }) else s
    let s := match x.early.aborted with
      | none => s
      | some st => s.collFail k st
    s.mapAfter k

/-- A run ends early on every device, and a transition that waited for its end goes on (R347, R353). -/
def State.collEnds (s : State) (k : Nat) (st : Status) : State := (s.collAbort k st).mapAfter k

/-- A run goes on as far as it may. -/
def State.collMore (s : State) (k : Nat) : State := (s.collDrive k).mapAfter k

/-- Chunks of a chain. -/
def Coll.chunkCount (k : Coll) : Nat := ceilDiv (k.count k.root * k.w) chunkBytes
/-- Bytes of chunk c. -/
def Coll.chunkLen (k : Coll) (c : Nat) : Nat := min chunkBytes (k.count k.root * k.w - c * chunkBytes)

/-- Every DST element of this device is written, and where it permutes in place every outgoing tile has been read (R341, R343, R351, R352). -/
def State.deviceReady (s : State) (k : Nat) : Bool :=
  let x := s.collOf k
  match x.now with
  | none => false
  | some r =>
    if r.localDone || r.awaited != 0 then false
    else if r.keptRun then true
    else if x.chain then
      (x.myDsts s.me).isEmpty || (decide (r.chunks.length = x.chunkCount) &&
        (!x.verify || x.srcDev x.root == s.me || r.chunks.all r.verified.contains))
    else decide (x.due s.me ≤ r.got) && (r.staged.isEmpty || x.devices.all r.pushed.contains)

/-- DONE_ADDR counts a completion on this device (R337). -/
def State.countDone (s : State) (x : Coll) : State :=
  if x.doneAddr = 0 then s
  else match s.writeMem .unit x.doneAddr (leBytes 8 (BitVec.ofNat 64 (s.num x.doneAddr 8) + 1).toNat) with
    | .ok s => s
    | .error _ => s

/-- Order 4 on this device (R341, R349, R354). -/
def State.collDone (s : State) (k : Nat) : State :=
  let x := s.collOf k
  let r := x.now.getD {}
  let s := (s.modRun k (fun y => { y with localDone := true })).countDone x
  let s := if fld x.desc 20 20 = 1 then s.signalUnit (BitVec.ofNat 48 (fld x.desc 207 160)) (fld x.desc 26 21) 0 else s
  let s := s.collSendAll k 0x42 [] (s.collOthers k)
  let y := (s.collOf k).now.getD {}
  ((s.collNotice k 0x01 [x.nq] .ok y.bytesOut y.bytesIn r.keptRun).keep k).collSettle k

/-- Staged tiles, read from the stage. -/
def State.unstage (s : State) (x : Coll) (r : CollRun) : List (W64 × List Byte) :=
  r.staged.map (fun (a, o, n) => (a, s.bytes (fld x.desc 447 384 + o) n))

/-- COLL_DEVICE_DONE: staged tiles reach their buffers, then, with every write answered, order 4. -/
def execCollDeviceDone (k : Fin 256) (s : State) : Out1 :=
  let x := s.collOf k.val
  let r := x.now.getD {}
  if !s.deviceReady k.val then .next s
  else match s.defer (r.staged.map (fun (a, _, n) => (permWrite, a, n))) (.collDeviceDone k) with
    | some s => .next s
    | none => match s.collWrites k.val (s.unstage x r) with
      | .error e => .next (s.collEnds k.val e)
      | .ok s =>
        let s := s.modRun k.val (fun y => { y with staged := [], bytesIn := y.bytesIn + (y.staged.map (fun p => p.2.2)).foldl (· + ·) 0 })
        .next (if s.deviceReady k.val then s.collDone k.val else s)

/-! ## Requests of other devices (R355) -/

/-- The collective a request names, if its run number is that of the run now due. -/
def State.collNamed (s : State) (r : MioReq) : Option Nat :=
  (s.collById (fld r.aux 31 0)).filter (fun k => (s.collOf k).run.toNat % 65536 == fld r.aux 47 32)

/-- The device a request comes from. -/
def State.peerOf (s : State) (r : MioReq) : Nat := (s.assoc r.assoc).peer.toNat

/-- The collective a request names, for the run that follows the one in progress here. -/
def State.collNext (s : State) (r : MioReq) : Option Nat :=
  (s.collById (fld r.aux 31 0)).filter (fun k => (s.collOf k).now.isSome && ((s.collOf k).run.toNat + 1) % 65536 == fld r.aux 47 32)

/-- What a request of another device adds to the run it names: the one in progress, or one not yet at order 1 here. -/
def State.noteRun (s : State) (k : Nat) (r : MioReq) (f : CollRun → CollRun) : State :=
  if (s.collOf k).now.isSome && (s.collOf k).run.toNat % 65536 == fld r.aux 47 32 then s.modRun k f
  else s.modColl k (fun x => { x with early := f x.early })

/-- A request for a run performed and answered: GONE where no such run is due. -/
def State.collServe (s : State) (op : Nat) (r : MioReq) (f : State → Nat → Status × State) : State :=
  let (s, go) := s.receive r.assoc r.counter r.phase r.psn r.path r.frame
  if !go then s
  else if r.version ≠ 0 ∨ r.data.length ≠ r.length ∨ (op ≠ 0x40 ∧ r.target ≠ 0) then s.reply r op .badParam s.cur.deviceGen []
  else match (s.collNamed r).or (if op = 0x40 then none else s.collNext r) with
    | none => s.reply r op .gone s.cur.deviceGen []
    | some k =>
      let (st, s) := f s k
      s.reply r op st s.cur.deviceGen []

/-- Spans that elements arriving for a run may write. -/
def State.arrivalSpans (s : State) (r : MioReq) : List (Nat × W64 × Nat) :=
  match s.collNamed r with
  | none => []
  | some k =>
    let x := s.collOf k
    if x.combines then (x.myDsts s.me).map (fun q => (permWrite, x.dst q, x.dstLen q * x.w)) else [(permWrite, r.target, r.data.length)]

/-- MIODER_COLL_DATA. -/
def execMioderCollData (r : MioReq) (s : State) : Out1 :=
  match s.defer (s.arrivalSpans r) (.mioderCollData r) with
  | some s => .next s
  | none => .next (s.collServe 0x40 r (fun s k =>
      if r.data.length % (s.collOf k).w ≠ 0 then (.badParam, s)
      else match s.collArrive k r.target r.data with
        | .error e => (e, if (s.collOf k).now.isSome ∧ e ≠ .badParam then s.collEnds k e else s)
        | .ok s => (.ok, (s.collDist k (s.collOthers k)).gnsSend k)))

/-- A digest that comes with the first READY is kept; one that disagrees ends the run in progress (R338). -/
def State.noteDigest (s : State) (k d : Nat) (digest : List Byte) : State :=
  let s := if digest = [] then s else s.modColl k (fun x => { x with digests := Tab.set x.digests d digest })
  if (s.collOf k).now.isSome && (s.collOf k).disagrees then s.collEnds k .badParam else s

/-- MIODER_COLL_READY: before this device's own order 1 it is kept for the run. -/
def execMioderCollReady (q : CollReady) (s : State) : Out1 :=
  let r := q.req
  let (s, go) := s.receive r.assoc r.counter r.phase r.psn r.path r.frame
  if !go then .next s
  else match s.collById (fld r.aux 31 0) with
    | none => .next (s.reply r 0x41 .gone s.cur.deviceGen [])
    | some k =>
      let x := s.collOf k
      let d := s.peerOf r
      let s := (s.reply r 0x41 .ok s.cur.deviceGen []).noteRun k r (fun y => { y with ready := dedup (y.ready ++ [d]) })
      let s := s.noteDigest k d q.digest
      .next (if x.now.isSome ∧ x.run.toNat % 65536 = fld r.aux 47 32 then s.collMore k else s)

/-- MIODER_COLL_DONE: with the last, the run completes. -/
def execMioderCollDone (r : MioReq) (s : State) : Out1 :=
  .next (s.collServe 0x42 r (fun s k =>
    (.ok, (s.noteRun k r (fun y => { y with done := dedup (y.done ++ [s.peerOf r]) })).collSettle k)))

/-- The status a code names. -/
def statusOf (n : Nat) : Status :=
  ([Status.ok, .notReady, .gone, .busy, .denied, .badParam, .reset, .deadlineMiss, .singular, .numeric, .versionGone, .rearmReject,
    .dark, .noSession, .integrity].find? (fun st => statusCode st == n)).getD .badParam

/-- MIODER_COLL_ABORT: the run ends here with the same status (R353); one that has not begun here, once the run before it is over. -/
def execMioderCollAbort (r : MioReq) (s : State) : Out1 :=
  .next (s.collServe 0x43 r (fun s k =>
    if r.data.length ≠ 2 then (.badParam, s)
    else if s.collNamed r = none then (.ok, s.noteRun k r (fun y => { y with aborted := some (statusOf (ofLe r.data)) }))
    else (.ok, (s.collFail k (statusOf (ofLe r.data))).mapAfter k)))

/-- MIODER_COLL_GNS: partial sums for the root's device (R344). -/
def execMioderCollGns (r : MioReq) (s : State) : Out1 :=
  .next (s.collServe 0x44 r (fun s k =>
    if r.data.length ≠ 16 then (.badParam, s)
    else
      (.ok, (s.noteRun k r (fun y => { y with
        gnsFrom := dedup (y.gnsFrom ++ [s.peerOf r])
        gnsSmall := BitVec.ofNat 64 (dAdd y.gnsSmall.toNat (ofLe (r.data.take 8)))
        gnsBig := BitVec.ofNat 64 (dAdd y.gnsBig.toNat (ofLe (r.data.drop 8))) })).collSettle k)))

/-- COLL_TIMEOUT: after the first order 1 of the run (R353). -/
def execCollTimeout (k : Fin 256) (s : State) : Out1 :=
  let x := s.collOf k.val
  .next (if x.posted ∧ (x.now.isSome ∨ x.early.ready ≠ []) then s.collEnds k.val .deadlineMiss else s)

/-! ## Transitions (R347) -/

/-- PHASE_TRANSITION_START. -/
def execPhaseTransitionStart (m : Fin 16) (s : State) : Out1 :=
  let x := s.mapping m.val
  let a := fld x.record 127 64
  let n := fld x.record 159 128
  if !x.valid || x.transition || decide (s.num a 8 < n) then .next s
  else .next (((s.subtract a n).setMapping m.val { x with transition := true, stopped := false, todo := nth [] x.lists (phaseNo x.phase) }).mapGo m.val)

/-! ## Chains (R351, R352) -/

/-- The chain of devices (R351). -/
def Coll.chainDevs (k : Coll) : List Nat :=
  dedup (k.srcDev k.root :: (k.rs.map (fun i => k.dstDev ((k.root + i) % max 1 k.nRanks))))

/-- The device after one in the chain. -/
def after (d : Nat) : List Nat → Option Nat
  | [] => none
  | x :: t => if x = d then t.head? else after d t

/-- The next chunk is wholly held here: always at the root, elsewhere once its bytes have arrived. -/
def Coll.holds (k : Coll) (me c : Nat) (r : CollRun) : Bool :=
  k.srcDev k.root == me || decide (Tab.get 0 r.arrived c = k.chunkLen c)

/-- Chunk c, of n bytes read at one address, reaches this device's other ranks and the next device of the chain. -/
def State.chainPass (s : State) (k c n : Nat) (x : Coll) (version : BitVec 32) (source : W64) (ranks : List Nat) (nxt : Option Nat) : State :=
  let at_ := chunkAt c
  match s.collRead x version (source + at_) n with
  | .error e => s.collEnds k e
  | .ok b => match s.collWrites k (ranks.map (fun q => (x.dst q + at_, b))) with
    | .error e => s.collEnds k e
    | .ok s =>
      let s := s.modRun k (fun y => { y with chunks := y.chunks ++ [c], bytesIn := y.bytesIn + ranks.length * b.length })
      match nxt with
      | none => s
      | some d => match s.collDeliver k d (x.firstDst d + at_) b with
        | .ok s => s
        | .error e => s.collEnds k e

/-- Chunk c, of n bytes, moves on where its turn has come: it is held here and the next device is ready (R351). -/
def State.chainTry (s : State) (k : Fin 256) (x : Coll) (r : CollRun) (c n : Nat) : State :=
  let me := s.me
  let nxt := after me x.chainDevs
  if !x.chain || x.op != opBroadcast || decide (x.chunkCount ≤ c) || !x.holds me c r || nxt.any (fun d => !r.ready.contains d) then s
  else
    let from_ := if x.srcDev x.root = me then x.src x.root else x.firstDst me
    let at_ := chunkAt c
    let here := (x.myDsts me).filter (fun q => x.dst q != from_)
    match s.defer ((permRead, from_ + at_, n) :: here.map (fun q => (permWrite, x.dst q + at_, n))) (.chainChunkReceived k) with
    | some s => s
    | none => s.chainPass k.val c n x r.version from_ here nxt

/-- CHAIN_CHUNK_RECEIVED: the next chunk reaches this device's ranks and the next device of the chain, which is ready. -/
def execChainChunkReceived (k : Fin 256) (s : State) : Out1 :=
  let x := s.collOf k.val
  match x.now with
  | none => .next s
  | some r => .next (s.chainTry k x r r.chunks.length (x.chunkLen r.chunks.length))

/-- A chunk is being fetched again. -/
def State.refetching (s : State) (k c : Nat) : Bool :=
  s.mio.assocs.any (fun (p : Nat × Assoc) => p.2.kept.any (fun r => r.purpose == .chunk k c))

/-- GETs of a chunk from the root's device (R352). -/
def State.refetch (s : State) (k c a : Nat) (t : W64) : List (Nat × Nat) → State
  | [] => s
  | (off, n) :: r =>
    State.refetch (s.request a { op := 0x02, target := t + BitVec.ofNat 64 off, length := n, gen := s.cur.deviceGen } (.chunk k c)) k c a t r

/-- A fetched piece of a chunk is written to this device's ranks. -/
def State.chunkPiece (s : State) (k : Nat) (target : W64) (b : List Byte) : State :=
  let x := s.collOf k
  let off := target - x.src x.root
  if x.now.isNone then s
  else match s.collWrites k ((x.myDsts s.me).map (fun q => (x.dst q + off, b))) with
    | .ok s => s
    | .error e => s.collEnds k e

/-- The digest of a chunk of n bytes compared: verified, fetched again, or a second time the run ends with INTEGRITY (R352). -/
def State.chunkCheck (s : State) (k c n : Nat) (x : Coll) (again : Bool) (addr : W64) : State :=
  match s.collRead { x with desc := 0 } 0 addr n with
  | .error e => s.collEnds k e
  | .ok b =>
    if Config.sha3 b = s.bytes (fld x.desc 831 768 + 640 + 64 * c) 64 then s.modRun k (fun y => { y with verified := y.verified ++ [c] })
    else if again then s.collEnds k .integrity
    else match s.upAssoc (x.srcDev x.root) with
      | none => s.collEnds k .reset
      | some a =>
        let t := x.src x.root + chunkAt c
        (s.modRun k (fun y => { y with refetched := y.refetched ++ [c] })).refetch k c a t
          (putPieces (n / (s.assoc a).limit + 2) (s.assoc a).limit t.toNat 0 n)

/-- A chunk of n bytes that arrived is verified once, at its place in the first rank of this device. -/
def State.chunkTry (s : State) (k : Fin 256) (chunk n : Nat) (x : Coll) (r : CollRun) : State :=
  if !x.verify || x.srcDev x.root == s.me || !r.chunks.contains chunk || r.verified.contains chunk || s.refetching k.val chunk then s
  else
    let a := x.firstDst s.me + chunkAt chunk
    match s.defer [(permRead, a, n)] (.chunkVerified k chunk) with
    | some s => s
    | none => s.chunkCheck k.val chunk n x (r.refetched.contains chunk) a

/-- CHUNK_VERIFIED: the digest agrees, or the chunk is fetched again, or a second time the run ends with INTEGRITY. -/
def execChunkVerified (k : Fin 256) (chunk : Nat) (s : State) : Out1 :=
  let x := s.collOf k.val
  match x.now with
  | none => .next s
  | some r => .next (s.chunkTry k chunk (x.chunkLen chunk) x r)

/-! ## Ends from outside (R353) -/

/-- Runs ended early by a test on their collective. -/
def State.collsEnd (s : State) (p : Coll → Bool) (st : Status) : List Nat → State
  | [] => s
  | k :: t =>
    let x := s.collOf k
    State.collsEnd (if x.posted && x.now.isSome && p x then s.collEnds k st else s) p st t

/-- An association with a device went DOWN (R353). -/
def State.collsAssocDown (s : State) (dev : Nat) : State := s.collsEnd (fun x => x.devices.contains dev) .reset (s.coll.colls.map (fun (p : Nat × Coll) => p.1))

/-- A fabric span of this device touches an erased span of local memory. -/
def State.spanHit (s : State) (addr : W64) (n a len : Nat) : Bool :=
  match s.place true permRead addr n with
  | .here l => decide (l < a + len ∧ a < l + n)
  | .far _ _ _ => false
  | .refused _ => false
  | .wait => false

/-- A wipe erased a span: runs whose buffers it covers end with RESET (R353). -/
def State.collsWiped (s : State) (a len : Nat) : State :=
  s.collsEnd (fun x =>
    (x.mySrcs s.me).any (fun r => s.spanHit (x.src r) (x.srcLen r * x.w) a len) || (x.myDsts s.me).any (fun r => s.spanHit (x.dst r) (x.dstLen r * x.w) a len) ||
      decide (fld x.desc 447 384 < a + len ∧ a < fld x.desc 447 384 + fld x.desc 511 448)) .reset (s.coll.colls.map (fun (p : Nat × Coll) => p.1))

/-! ## Posting (R337, R338, R343, R346) -/

/-- The descriptor's reserved bits. -/
def collReserved : List (Nat × Nat) := [(63, 38), (111, 109), (223, 208), (2047, 896)]

/-- The encodings of a descriptor (R337). -/
def collDescOk (d : BitVec 2048) : Bool :=
  let x : Coll := { desc := d }
  let f := Fmt.ofCode (fld d 11 8)
  collReserved.all (fun (h, l) => fld d h l == 0) &&
  decide (1 ≤ x.op ∧ x.op ≤ 6) && f.isSome && decide (x.reduce ≠ 3) &&
  (if x.combines then decide (x.fmt = .fp32 ∨ x.fmt = .bf16 ∨ x.fmt = .int32) else !x.fmt.isMx && x.fmt != .slice8) &&
  (!x.keepable || x.op == opAllGather) && (!x.chain || x.op == opBroadcast) && (!x.verify || x.chain) &&
  decide (1 ≤ x.nRanks ∧ x.nRanks ≤ 4096) && decide (x.root < x.nRanks) && decide (1 ≤ x.expect) && (URef.ofBits (fld d 191 160)).isSome &&
  decide (spanRegion x.readyAddr 8 = some .gallery) && decide (x.readyAddr % 8 = 0)

/-- A cover by rectangles: every tile of the tensor exactly once (R343). -/
def Coll.coversOnce (k : Coll) (new : Bool) : Bool :=
  let rows := fld k.desc 687 672
  let cols := fld k.desc 703 688
  (k.rs.all (fun r => let q := k.rect r new; decide (q.2.1 = 0 ∨ q.2.2.2 = 0 ∨ (q.1 + q.2.1 ≤ rows ∧ q.2.2.1 + q.2.2.2 ≤ cols)))) &&
  (List.range rows).all (fun a => (List.range cols).all (fun b =>
    (k.rs.filter (fun r => (tileIn (k.rect r new) a b).isSome)).length == 1))

/-- Bytes that pass through the stage of this device (R343). -/
def Coll.stageNeed (k : Coll) (me : Nat) : Nat :=
  ((k.rs.map k.moves).flatten.filter (fun m => m.dev == me && k.stagesAt me m.target)).length * k.tileBytes

/-- Tables of a collective (R19, R335, R336, R343). -/
def Coll.tablesOk (k : Coll) (me : Nat) : Bool :=
  k.ranks.all (fun r => (URef.ofBits (fld r 31 0)).isSome) &&
  (k.op != opPermute || (k.coversOnce false && k.coversOnce true && decide (k.stageNeed me ≤ fld k.desc 511 448)))

/-- Numbers of a table in device-local memory. -/
def State.table (s : State) (a w n : Nat) : List Nat := (List.range n).map (fun i => s.num (a + i * w) w)

/-- A table can be read: none, or its status. -/
def State.tableFails (s : State) (a n : Nat) : Option Status := s.readStatus .unit a n

/-- The first failing status. -/
def firstFail : List (Option Status) → Option Status
  | [] => none
  | some e :: _ => some e
  | none :: t => firstFail t

/-- A manifest that Folio verification has accepted on this device (R338). -/
def State.manifestAccepted (s : State) (a : Nat) : Bool :=
  s.sec.folios.any (fun (p : Nat × Folio) => p.2.manifest != [] && s.bytes a p.2.manifest.length == p.2.manifest)

/-- The lowest free entry of a table of n. -/
def freeEntry (used : List Nat) (n : Nat) : Option Nat := (List.range n).find? (fun k => !used.contains k)

/-- Entries of a collective's count table (R337, R338). -/
def Coll.countEntries (x : Coll) : Nat := if x.op = opPermute then 0 else if x.op = opAllToAll then x.nRanks * x.nRanks else x.nRanks

/-- A descriptor whose encodings a post takes. -/
def Coll.takes (x : Coll) : Bool := collDescOk x.desc && !(x.op == opPermute && fld x.desc 383 320 != 0)

/-- Reads of a post that fail are counted where they failed (R224, R444). -/
def State.collPostReads (s : State) (addr : Nat) : State :=
  let x : Coll := { desc := BitVec.ofNat 2048 (s.num addr 256) }
  s.countFirst [(addr, 256), (fld x.desc 319 256, 64 * x.nRanks), (fld x.desc 383 320, 8 * x.countEntries)]

/-- A descriptor and its tables posted: the entry, or the refusal (R338). -/
def State.collPlace (s : State) (x : Coll) : Except Status (Nat × State) :=
  let used := (s.coll.colls.filter (fun (p : Nat × Coll) => p.2.posted)).map (fun (p : Nat × Coll) => p.1)
  if !x.tablesOk s.me then .error .badParam
  else if (s.collById x.id).isSome then .error .busy
  else if x.verify && !s.manifestAccepted (fld x.desc 831 768) then .error .denied
  else match freeEntry used 256 with
    | none => .error .busy
    | some k => .ok (k, s.setColl k x)

/-- COLLECTIVE_POST: the entry, or the refusal (R338). -/
def State.collPost (s : State) (addr : Nat) : Except Status (Nat × State) :=
  let region := spanRegion addr 256
  if addr % 256 ≠ 0 ∨ (region ≠ some .gallery ∧ region ≠ some .vault) then .error .badParam
  else match s.readStatus .command addr 256 with
    | some e => .error e
    | none =>
      let x : Coll := { desc := BitVec.ofNat 2048 (s.num addr 256) }
      let rt := fld x.desc 319 256
      let ct := fld x.desc 383 320
      if !x.takes then .error .badParam
      else match firstFail [s.tableFails rt (64 * x.nRanks), s.tableFails ct (8 * x.countEntries)] with
        | some e => .error e
        | none => s.collPlace { x with
            posted := true, ranks := (s.table rt 64 x.nRanks).map (BitVec.ofNat 512), counts := (s.table ct 8 x.countEntries).map (BitVec.ofNat 64) }

/-- COLLECTIVE_RUN: order 1 on this device now, or when the run in progress, or the transition, is over (R341, R348). -/
def State.collRunCmd (s : State) (k : Nat) : Except Status State :=
  let x := s.collOf k
  if !x.posted then .error .gone
  else if x.now.isSome || s.transitionRuns x then .ok (s.setColl k { x with readyAgain := x.readyAgain + 1 })
  else .ok ((s.subtract x.readyAddr x.expect).collStart k false)

/-- COLLECTIVE_CANCEL: the run ends with GONE; a transition that the collective's failed run stopped is over (R347, R353). -/
def State.collCancel (s : State) (k : Nat) : Except Status State :=
  let x := s.collOf k
  let m := s.mapping x.mapNo
  if !x.posted then .error .gone
  else if x.now.isSome then .ok (s.collEnds k .gone)
  else if x.inMap && m.transition && m.stopped && m.todo.head? == some (BitVec.ofNat 32 x.id) then
    .ok (s.setMapping x.mapNo { m with transition := false, stopped := false, todo := [] })
  else .ok s

/-- What a host has taken from the loaded Productions. -/
def State.prodForget (s : State) (f : Production → Production) : State :=
  { s with cur := { s.cur with prods := s.cur.prods.map (fun (p : Nat × Production) => (p.1, f p.2)) } }

/-- COLLECTIVE_RELEASE (R356). -/
def State.collRelease (s : State) (k : Nat) : Except Status State :=
  let x := s.collOf k
  if !x.posted then .error .gone
  else if x.now.isSome || x.kept || s.coll.maps.any (fun (p : Nat × Mapping) => p.2.valid && p.2.lists.any (fun l => l.contains (BitVec.ofNat 32 x.id))) then
    .error .busy
  else .ok ({ s with coll := { s.coll with colls := Tab.erase s.coll.colls k } }.prodForget (fun p => { p with colls := p.colls.filter (· != k) }))

/-- Lists of a mapping record: address and entries of each phase (R346). -/
def mapSpans (r : BitVec 2048) : List (Nat × Nat) := [(fld r 319 256, fld r 335 320), (fld r 447 384, fld r 351 336), (fld r 511 448, fld r 367 352)]

/-- A mapping record whose encodings a post takes. -/
def mapRecordOk (r : BitVec 2048) : Bool :=
  (URef.ofBits (fld r 223 192)).isSome && !(mapSpans r).any (fun (_, n) => decide (1024 < n)) && decide (spanRegion (fld r 127 64) 8 = some .gallery) && decide (fld r 127 64 % 8 = 0)

/-- A mapping record installed in FORWARD (R346): in use is a mapping with a run or a transition in progress, or a
kept copy. -/
def State.mappingPlace (s : State) (m : Nat) (r : BitVec 2048) : Except Status State :=
  if 16 ≤ m ∨ !mapRecordOk r then .error .badParam
  else match firstFail ((mapSpans r).map (fun (a, n) => s.tableFails a (4 * n))) with
    | some e => .error e
    | none =>
      let lists : List (List (BitVec 32)) := (mapSpans r).map (fun (a, n) => (s.table a 4 n).map (BitVec.ofNat 32))
      let named := fun (id : BitVec 32) => match s.collById id.toNat with
        | none => false
        | some k => (s.collOf k).inMap && (s.collOf k).mapNo == m
      let busy := s.coll.colls.any (fun (p : Nat × Coll) => p.2.posted && p.2.inMap && p.2.mapNo == m && (p.2.now.isSome || p.2.kept))
      if !lists.all (fun l => l.all named) then .error .badParam
      else if (s.mapping m).valid && (busy || (s.mapping m).transition) then .error .busy
      else .ok (s.setMapping m { valid := true, record := r, lists := lists })

/-- Reads of a mapping's post that fail are counted (R224, R444). -/
def State.mappingPostReads (s : State) (addr : Nat) : State :=
  s.countFirst ((addr, 256) :: (mapSpans (BitVec.ofNat 2048 (s.num addr 256))).map (fun (a, n) => (a, 4 * n)))

/-- MAPPING_POST (R346). -/
def State.mappingPostCmd (s : State) (m addr : Nat) : Except Status State :=
  if 16 ≤ m then .error .badParam
  else match s.readStatus .command addr 256 with
    | some e => .error e
    | none => s.mappingPlace m (BitVec.ofNat 2048 (s.num addr 256))

/-- MAPPING_RELEASE (R356). -/
def State.mappingReleaseCmd (s : State) (m : Nat) : Except Status State :=
  if !(s.mapping m).valid then .error .gone
  else if (s.mapping m).transition then .error .busy
  else .ok ({ s with coll := { s.coll with maps := Tab.erase s.coll.maps m } }.prodForget (fun p => { p with maps := p.maps.filter (· != m) }))

/-! ## Accesses released (R323, R353, R428) -/

/-- Runs in progress go on after what held their accesses. -/
def State.collsGo (s : State) : List Nat → State
  | [] => s
  | k :: t => State.collsGo (if (s.collOf k).now.isSome then s.collMore k else s) t

/-- Every run in progress. -/
def State.collsResume (s : State) : State := s.collsGo (s.coll.colls.map (fun (p : Nat × Coll) => p.1))

/-- MIGRATE_PASS_DONE. -/
def execMigratePassDone (fail : Option Status) (s : State) : Out1 := .next (s.migratePass fail).collsResume

/-- MIGRATE_COMPLETE. -/
def execMigrateComplete (fail : Option Status) (s : State) : Out1 := .next (s.migrateLast fail).collsResume

end Sys2Proof.Machine
end

