-- ==== Sys2Proof/Machine/Conservator.lean ====
section
/-! DEFINITION. The Conservators: closes, sweeps, update rules, folds and refreshes, working copies, compares (R227 to R265).
Log entries with the readings and choices that are the model's: 38, 39, 40. -/

namespace Sys2Proof.Machine

/-! ## FP32 operations, each rounded once (R228) -/

def a32 (a b : FVal) : FVal := rnd32 (a.add b)
def s32 (a b : FVal) : FVal := rnd32 (a.sub b)
def m32 (a b : FVal) : FVal := rnd32 (a.mul b)
def d32 (a b : FVal) : FVal := rnd32 (a.div b)
def q32 (a : FVal) : FVal := rnd32 a.sqrt
/-- x to an integer power, rounded once. -/
def pow32 (x : FVal) (t : Nat) : FVal :=
  match x with
  | .fin s m e => rnd32 (.fin (s && t % 2 == 1) (m ^ t) (e * t))
  | v => v

/-- A matrix-unit product: each element from zero in ascending reduction index, and whether any saturated (R228, R248). -/
def matMul (a b : Mat) (inner rows cols : Nat) : Mat × Bool :=
  let cells := (List.range rows).map (fun i => (List.range cols).map (fun j =>
    (List.range inner).foldl (fun acc k => accFloat acc ((a.at i k).mul (b.at k j))) (FVal.zero, false)))
  (cells.map (fun r => r.map (·.1)), cells.any (fun r => r.any (·.2)))

/-! ## Memory of a shard (R229, R230, R247) -/

/-- A Conservator's access that failed: its status, and the span of this device it failed at, read or written. -/
structure MemErr where
  st  : Status
  hit : Option (Bool × Nat × Nat) := none
deriving DecidableEq, Repr

/-- A failed access counted where it failed (R224, R444). -/
def State.noteErr (s : State) (e : MemErr) : State :=
  match e.hit with
  | none => s
  | some (w, a, n) => if w then s.countWrite a n e.st else s.countRead a n e.st

/-- A read by a Conservator: of this device, or of another one, whose bytes and status are open. -/
def State.consRead (s : State) (fab : Bool) (addr n : Nat) : Except MemErr (List Byte) :=
  if n = 0 then .ok []
  else match s.place fab permRead (BitVec.ofNat 64 addr) n with
    | .here a =>
      if (s.heldBy a n).isSome then .error { st := .notReady }
      else (s.readMem .unit a n).mapError (fun e => { st := e, hit := some (false, a, n) })
    | .far _ _ _ => (s.remote addr n).mapError (fun e => { st := e })
    | .refused e => .error { st := e }
    | .wait => .error { st := .notReady }

/-- Answers awaited by a Conservator. -/
def State.awaitCons (s : State) (n k : Nat) : State := s.modCon n (fun x => { x with awaited := x.awaited + k })

/-- Packets of a write to another device (R309). -/
def State.putPackets (s : State) (p : Purpose) (k : Nat) (fwd : Bool) (t : W64) (b : List Byte) : List (Nat × Nat) → State
  | [] => s
  | (off, m) :: r =>
    State.putPackets (s.request k {
      op := 0x01, target := t + BitVec.ofNat 64 off, fwd := fwd, gen := s.cur.deviceGen, length := m
      data := (b.drop off).take m } p) p k fwd t b r

/-- The packets a write of bytes over an association is cut into. -/
def State.cutPut (s : State) (k : Nat) (t : W64) (b : List Byte) : List (Nat × Nat) :=
  putPieces (b.length / 512 + 4) (s.assoc k).limit t.toNat 0 b.length

/-- A write by Conservator n: of this device, or of another one, whose answers it awaits. -/
def State.consWrite (s : State) (n : Nat) (fab : Bool) (addr : Nat) (b : List Byte) : Except MemErr State :=
  if b.isEmpty then .ok s
  else match s.place fab permWrite (BitVec.ofNat 64 addr) b.length with
    | .here a => if (s.heldBy a b.length).isSome then .error { st := .notReady } else match s.writeMem .unit a b with
      | .ok s => .ok (if fab then s.markDirty (addr % 2 ^ 48) b.length else s)
      | .error e => .error { st := e, hit := some (true, a, b.length) }
    | .far k fwd t =>
      let ps := s.cutPut k t b
      .ok (((s.awaitCons n ps.length).putPackets (.cons n (s.con n).round) k fwd t b ps).markDirty (addr % 2 ^ 48) b.length)
    | .refused e => .error { st := e }
    | .wait => .error { st := .notReady }

/-- A copy of n bytes by Conservator c. -/
def State.consCopy (s : State) (c : Nat) (fabFrom : Bool) (src : Nat) (fabTo : Bool) (dst n : Nat) : Except MemErr State :=
  match s.consRead fabFrom src n with
  | .error e => .error e
  | .ok b => s.consWrite c fabTo dst b

/-- FP32 values of bytes. -/
def vals32 (b : List Byte) : List FVal := (words32 b.length b).map f32
/-- Bytes of FP32 values. -/
def bytes32 (l : List FVal) : List Byte := (l.map (fun v => leBytes 4 (r32 v))).flatten

/-- A block of a shard: its first tile row and column, its tiles down and across (R229). -/
structure Blk where
  ti : Nat
  tj : Nat
  nr : Nat
  nc : Nat
deriving DecidableEq, Repr

/-- Blocks of R × C in row-major order. -/
def blocksOf (r c b : Nat) : List Blk :=
  let tb := b / 64
  ((List.range (ceilDiv r b)).map (fun i => (List.range (ceilDiv c b)).map (fun j =>
    { ti := tb * i, tj := tb * j, nr := min tb (r / 64 - tb * i), nc := min tb (c / 64 - tb * j) : Blk }))).flatten

/-- Tile numbers of a block in a shard of `tc` tile columns. -/
def Blk.tiles (k : Blk) (tc : Nat) : List Nat := ((List.range k.nr).map (fun i => (List.range k.nc).map (fun j => (k.ti + i) * tc + k.tj + j))).flatten

/-- Tiles of FP32 read one after another. -/
def State.readTiles (s : State) (fab : Bool) (base : Nat) : List Nat → Except MemErr Mat
  | [] => .ok []
  | t :: r => match s.consRead fab (base + 16384 * t) 16384 with
    | .error e => .error e
    | .ok b => match State.readTiles s fab base r with
      | .error e => .error e
      | .ok l => .ok (vals32 b :: l)

/-- Tiles of FP32 written. -/
def State.writeTiles (s : State) (n : Nat) (fab : Bool) (base : Nat) : List (Nat × List FVal) → Except MemErr State
  | [] => .ok s
  | (t, v) :: r => match s.consWrite n fab (base + 16384 * t) (bytes32 v) with
    | .error e => .error e
    | .ok s => State.writeTiles s n fab base r

/-- The rows of a block held as tiles. -/
def Blk.rows (k : Blk) (ts : Mat) : Mat :=
  matOf (64 * k.nr) (64 * k.nc) (fun i j => ts.at (i / 64 * k.nc + j / 64) (64 * (i % 64) + j % 64))
/-- The tiles of a block held as rows. -/
def Blk.untile (k : Blk) (m : Mat) : Mat :=
  matOf (k.nr * k.nc) 4096 (fun t e => m.at (64 * (t / k.nc) + e / 64) (64 * (t % k.nc) + e % 64))

/-- Frobenius norm of a block: lines by the tree, then lines, then tiles, in order (R248). -/
def frob32 (ts : Mat) : FVal :=
  let plus := fun (a b : FVal × Bool) => (a32 a.1 b.1, false)
  let line := fun (l : List FVal) => ((tree plus (l.map (fun v => some (m32 v v, false)))).getD (FVal.zero, false)).1
  let sum := fun (l : List FVal) => match l with
    | [] => FVal.zero
    | v :: t => t.foldl a32 v
  q32 (sum (ts.map (fun t => sum ((rowsOf 64 64 t).map line))))

/-! ## Rule records (R232, R233) -/

abbrev Rule := BitVec 2048

def uId (u : Rule) : Nat := fld u 3 0
def uPLog (u : Rule) : Nat := fld u 5 4
def uPrio (u : Rule) : Nat := fld u 7 6
def uSkip (u : Rule) : Bool := fld u 8 8 == 1
def uGraft (u : Rule) : Bool := fld u 9 9 == 1
def uK (u : Rule) : Nat := fld u 31 16
def uF (u : Rule) (hi lo : Nat) : FVal := f32 (fld u hi lo)
def uLr (u : Rule) : FVal := uF u 63 32
def uB1 (u : Rule) : FVal := uF u 95 64
def uB2 (u : Rule) : FVal := uF u 127 96
def uEps (u : Rule) : FVal := uF u 159 128
def uWd (u : Rule) : FVal := uF u 191 160
def uScale (u : Rule) : FVal := uF u 223 192
def uFb (u : Rule) : FVal := uF u 255 224

def urSgdm : Nat := 0
def urAdamw : Nat := 1
def urKron : Nat := 2
def urEigen : Nat := 3
def urKfac : Nat := 4
def urOrtho : Nat := 5

/-- Moments of a rule (R233). -/
def moments (id : Nat) : Nat := if id = urAdamw ∨ id = urKron ∨ id = urEigen then 2 else 1
/-- The rule uses roots or bases. -/
def usesRoots (id : Nat) : Bool := id == urKron || id == urEigen || id == urKfac
/-- A rule record's own encodings (R232, R233). -/
def ruleOk (u : Rule) : Bool := decide (uId u ≤ 5) && fld u 391 384 != 0 && (uId u != urKfac || uPLog u == 0)
/-- The rule takes matrix-unit products (R227, R250 to R252). -/
def usesMatrix (id : Nat) : Bool := usesRoots id || id == urOrtho
/-- Rule and source (R233). -/
def sourceOk (u : Rule) (src : Nat) : Bool :=
  if usesRoots (uId u) then src == 1 || (src == 2 && uId u != urKfac) else src == 0

/-- The rule record of a shard (R230, R232). -/
def State.readRule (s : State) (a : Nat) : Except MemErr Rule :=
  match s.consRead false (s.recGet a 127 64) 256 with
  | .error e => .error e
  | .ok b => .ok (BitVec.ofNat 2048 (ofLe b))

/-! ## Addresses of a shard's arrays (R230, R233) -/

def State.rN (s : State) (a : Nat) : Nat := s.rRows a * s.rCols a
/-- Base of slot x. -/
def State.rSlotBase (s : State) (a x : Nat) : Nat := if x = 0 then s.recGet a 255 192 else s.recGet a 319 256
def State.rGrad (s : State) (a c : Nat) : Nat := s.recGet a 447 384 + c % s.rHeld a * 4 * s.rN a
/-- Bytes of one working-copy tile (R229). -/
def State.rTileBytes (s : State) (a : Nat) : Nat := blockBytes (fmtOf (s.rWorkFmt a))
/-- Bytes of one working buffer. -/
def State.rWorkBytes (s : State) (a : Nat) : Nat := s.rN a / 4096 * s.rTileBytes a
def State.rWork (s : State) (a x : Nat) : Nat := s.recGet a 511 448 + x % 2 * s.rWorkBytes a
def State.rBlocks (s : State) (a : Nat) : List Blk := blocksOf (s.rRows a) (s.rCols a) (s.rBlock a)

/-- Orders of a shard's left and right factors, in order (R233). -/
def State.factorOrders (s : State) (a : Nat) : List Nat × List Nat :=
  let b := s.rBlock a
  let r := s.rRows a
  let c := s.rCols a
  if s.rSource a = 2 then ((s.rBlocks a).map (fun k => 64 * k.nr), (s.rBlocks a).map (fun k => 64 * k.nc))
  else ((List.range (ceilDiv r b)).map (fun i => min b (r - b * i)), (List.range (ceilDiv c b)).map (fun j => min b (c - b * j)))

/-- Offset of matrix k where matrix i takes `f` of its order. -/
def offsetOf (f : Nat → Nat) (orders : List Nat) (k : Nat) : Nat := ((orders.take k).map f).foldl (· + ·) 0

/-- Index of the left or right matrix of a block (R251). -/
def State.matIndex (s : State) (a : Nat) (block : Nat) (left : Bool) : Nat :=
  let (l, _) := s.factorOrders a
  let nj := ceilDiv (s.rCols a) (s.rBlock a)
  if s.rSource a = 2 then (if left then block else l.length + block)
  else if left then block / nj else l.length + block % nj

/-- A root or basis, FP32, row-major, in full (R233). -/
def State.readRoot (s : State) (a base k : Nat) : Except MemErr Mat :=
  let (l, r) := s.factorOrders a
  let n := nth 0 (l ++ r) k
  match s.consRead (s.rFab a 3) (base + offsetOf (fun o => 4 * o * o) (l ++ r) k) (4 * n * n) with
  | .error e => .error e
  | .ok b => .ok (rowsOf n n (vals32 b))

/-- The left and right matrices of a block from ROOTS or STAGING; the identity while none is installed (R251, R256). -/
def State.blockRoots (s : State) (a : Nat) (staged : Bool) (k : Nat) (b : Blk) : Except MemErr (Mat × Mat) :=
  if !staged && s.recGet a 1184 1184 == 0 then .ok (identity (64 * b.nr), identity (64 * b.nc))
  else
    let base := if staged then s.recGet a 703 640 else s.recGet a 639 576
    match s.readRoot a base (s.matIndex a k true), s.readRoot a base (s.matIndex a k false) with
    | .ok l, .ok r => .ok (l, r)
    | .error e, _ => .error e
    | _, .error e => .error e

/-! ## One block's update (R250 to R252) -/

/-- Elements of a block, in tiles. -/
def zipT (f : FVal → FVal → FVal) (a b : Mat) : Mat := (a.zip b).map (fun (x, y) => (x.zip y).map (fun (p, q) => f p q))
def mapT (f : FVal → FVal) (a : Mat) : Mat := a.map (fun x => x.map f)
/-- All finite. -/
def finT (a : Mat) : Bool := a.all (fun x => allFinite x)

/-- L X R over a block in tiles. -/
def sandwich (k : Blk) (l x r : Mat) : Mat × Bool :=
  let n := 64 * k.nr
  let c := 64 * k.nc
  let (p, s1) := matMul l (k.rows x) n n c
  let (q, s2) := matMul p r c n c
  (k.untile q, s1 || s2)

/-- Transpose of a square matrix. -/
def tr (m : Mat) : Mat := m.trans m.length

/-- g := s × G, one operation. -/
def scaled (u : Rule) (g : Mat) : Mat := mapT (fun x => m32 (uScale u) x) g

/-- βm + (1 − β)x. -/
def ema (β : FVal) (m x : Mat) : Mat := zipT (fun p q => a32 (m32 β p) (m32 (s32 one32 β) q)) m x

/-- â (R251). -/
def adamDir (u : Rule) (t : Nat) (m v : Mat) : Mat :=
  let c1 := s32 one32 (pow32 (uB1 u) t)
  let c2 := s32 one32 (pow32 (uB2 u) t)
  zipT (fun p q => d32 (d32 p c1) (a32 (q32 (d32 q c2)) (uEps u))) m v

/-- The iterations of R252 on rows. -/
def orthoIter (n m : Nat) (ca cb cc : FVal) : Nat → Mat × Bool → Mat × Bool
  | 0, x => x
  | k + 1, (x, sat) =>
    let xt := x.trans m
    let wide := decide (n ≤ m)
    let o := min n m
    let (g, s1) := if wide then matMul x xt m n n else matMul xt x n m m
    let (g2, s2) := matMul g g o o o
    let p := matOf o o (fun i j => a32 (m32 cb (g.at i j)) (m32 cc (g2.at i j)))
    let (y, s3) := if wide then matMul p x n n m else matMul x p m n m
    orthoIter n m ca cb cc k (matOf n m (fun i j => a32 (m32 ca (x.at i j)) (y.at i j)), sat || s1 || s2 || s3)

/-- What a block's update reads. -/
structure BlkIn where
  w : Mat
  m : Mat
  v : Mat
  k : Mat
  g : Mat
  l : Mat
  r : Mat
  oldL : Mat
  oldR : Mat
  rebase : Bool
  noRoots : Bool
deriving DecidableEq, Repr

/-- New moments, the direction u, whether the matrix unit saturated (R251, R252, R257). -/
def direction (u : Rule) (t : Nat) (b : Blk) (x : BlkIn) : Mat × Mat × Mat × Bool :=
  let g := scaled u x.g
  let id := uId u
  if id = urSgdm then
    let m := zipT (fun p q => a32 (m32 (uB1 u) p) q) x.m g
    (m, x.v, m, false)
  else if id = urAdamw then
    let m := ema (uB1 u) x.m g
    let v := ema (uB2 u) x.v (mapT (fun p => m32 p p) g)
    (m, v, adamDir u t m v, false)
  else if id = urKron then
    let m := ema (uB1 u) x.m g
    let v := ema (uB2 u) x.v (mapT (fun p => m32 p p) g)
    let a := adamDir u t m v
    let (d, sat) := sandwich b x.l m x.r
    let dn := frob32 d
    let dir := if !uGraft u then d
      else if x.noRoots || dn.isZero then a
      else mapT (fun p => m32 p (d32 (frob32 a) dn)) d
    (m, v, dir, sat)
  else if id = urEigen then
    let (m0, s0) := if x.rebase then
        let (p, s1) := sandwich b x.oldL x.m (tr x.oldR)
        let (q, s2) := sandwich b (tr x.l) p x.r
        (q, s1 || s2)
      else (x.m, false)
    let (g', s1) := sandwich b (tr x.l) g x.r
    let m := ema (uB1 u) m0 g'
    let v := ema (uB2 u) x.v (mapT (fun p => m32 p p) g')
    let (d, s2) := sandwich b x.l (adamDir u t m v) (tr x.r)
    (m, v, d, s0 || s1 || s2)
  else if id = urKfac then
    let (p, sat) := sandwich b x.l g x.r
    let m := zipT (fun p q => a32 (m32 (uB1 u) p) q) x.m p
    (m, x.v, m, sat)
  else
    let m := zipT (fun p q => a32 (m32 (uB1 u) p) q) x.m g
    let n := 64 * b.nr
    let c := 64 * b.nc
    let den := a32 (frob32 m) (uEps u)
    let (y, sat) := orthoIter n c (uF u 319 288) (uF u 351 320) (uF u 383 352) (fld u 391 384) (b.rows (mapT (fun p => d32 p den) m), false)
    let ratio := d32 (FVal.ofInt n) (FVal.ofInt c)
    let k := m32 (uF u 447 416) (q32 (if one32.lt ratio then ratio else one32))
    (m, x.v, mapT (fun p => m32 k p) (b.untile y), sat)

/-- New master and compensation (R250). -/
def applyDelta (u : Rule) (comp : Bool) (w k dir : Mat) : Mat × Mat :=
  let delta := zipT (fun d w => m32 (uLr u).neg (a32 d (m32 (uWd u) w))) dir w
  if comp then
    let y := zipT s32 delta k
    let t' := zipT a32 w y
    (t', zipT s32 (zipT s32 t' w) y)
  else (zipT a32 w delta, k)

/-! ## Working copies (R258, R259) -/

/-- Draw of element e of tile t of a block. -/
def drawOf (sr : Bool) (ctr t e : Nat) : Option Nat := if sr then some (Config.workDraw ctr (4096 * t + e) % 65536) else none

/-- A tile converted: its block in memory, and elements that saturated (R49, R56, R258). -/
def workTile (f : Fmt) (axis : Nat) (sr : Bool) (ctr t : Nat) (vs : List FVal) : List Byte × Nat :=
  let at_ := fun i j => nth FVal.zero vs (64 * i + j)
  let line := fun (l b : Nat) => (List.range 32).map (fun k => if axis = 0 then at_ l (32 * b + k) else at_ (32 * b + k) l)
  let scales := (List.range 128).map (fun k => mxScale f (line (k / 2) (k % 2)))
  let convs := (List.range 4096).map (fun e =>
    let i := e / 64
    let j := e % 64
    if f.isMx then
      let k := if axis = 0 then 2 * i + j / 32 else 2 * j + i / 32
      mxElement f ((blockAmax (line (k / 2) (k % 2))).isZero) (nth 0 scales k) (drawOf sr ctr t e) (at_ i j)
    else convert f .toMax (drawOf sr ctr t e) (at_ i j))
  (leBytes (512 * f.bits) (convs.foldr (fun c acc => c.code % 2 ^ f.bits + 2 ^ f.bits * acc) 0) ++
    (if f.isMx then scales.map (fun c => BitVec.ofNat 8 c) else []),
   (convs.filter (fun c => c.sat)).length)

/-- The values a working tile holds (R50). -/
def tileVals (f : Fmt) (axis : Nat) (b : List Byte) : List FVal :=
  let v := ofLe (b.take (512 * f.bits))
  (List.range 4096).map (fun e =>
    let code := v / 2 ^ (f.bits * e) % 2 ^ f.bits
    let k := if axis = 0 then 2 * (e / 64) + e % 64 / 32 else 2 * (e % 64) + e / 64 / 32
    if f.isMx then mxValue f (nth 0 b (512 * f.bits + k)).toNat code else valueOf f code)

/-- A working tile's tiles written; the count of saturated elements. -/
def State.writeWork (s : State) (c a x ctr : Nat) : List (Nat × List FVal) → Nat → Except MemErr (State × Nat)
  | [], n => .ok (s, n)
  | (t, v) :: r, n =>
    let (b, k) := workTile (fmtOf (s.rWorkFmt a)) (s.recGet a 153 153) (s.recGet a 154 154 == 1) ctr t v
    match s.consWrite c (s.rFab a 2) (s.rWork a x + t * s.rTileBytes a) b with
    | .error e => .error e
    | .ok s => State.writeWork s c a x ctr r (n + k)

/-! ## Readiness (R238, R245) -/

/-- A Conservator can take up work. -/
def State.consIdle (s : State) (n : Nat) : Bool := decide ((s.con n).activity = .idle) && !(s.con n).inReset

/-- The shard is ready (R245). -/
def State.ready (s : State) (n i : Nat) : Bool :=
  let e := s.shard n i
  decide (e.state = .live) && s.rDone e.record.toNat != s.rCloses e.record.toNat

/-- Arrivals at a record. -/
def State.rArrived (s : State) (a : Nat) : Nat := s.recGet a 1023 960

/-- A close was interrupted and is to go on: not one that a read or write ended (R237, R249, R260). -/
def State.closeOpen (s : State) (n i : Nat) : Bool :=
  let e := s.shard n i
  decide (e.state ≠ .empty) && s.rCloseState e.record.toNat != 0 && !e.closeFailed

/-- A gradient is complete in ACC and its close has not begun (R237). -/
def State.complete (s : State) (n i : Nat) : Bool :=
  let e := s.shard n i
  let a := e.record.toNat
  decide (e.state ≠ .empty) && s.rCloseState a == 0 && s.rExpect a != 0 && decide (s.rExpect a ≤ s.rArrived a)

/-- A close is due or interrupted (R237, R249). -/
def State.closeDue (s : State) (n i : Nat) : Bool := s.closeOpen n i || s.complete n i

/-- The held buffer of the next close is free (R238). -/
def State.heldFree (s : State) (a : Nat) : Bool :=
  decide ((BitVec.ofNat 32 (s.rCloses a) - BitVec.ofNat 32 (s.rDone a)).toNat < s.rHeld a)

/-- The shard whose oldest gradient closed first, the lowest entry on a tie (R245). -/
def State.nextShard (s : State) (n : Nat) : Option Nat :=
  let ready := (List.range 64).filter (s.ready n)
  let at_ := fun i => (s.shard n i).closeOrder.headD 0
  match ready with
  | [] => none
  | i :: t => some (t.foldl (fun b i => if at_ i < at_ b then i else b) i)

/-- A close that may begin or go on now: it comes before any other work (R238, R245). -/
def State.anyClose (s : State) (n : Nat) : Bool :=
  (List.range 64).any (fun i => s.closeOpen n i || (s.complete n i && s.heldFree (s.recAt n i)))

/-- A Conservator takes up work on a shard: nothing of it is sent yet. -/
def Cons.begin (x : Cons) (act : Activity) (i : Nat) : Cons :=
  { x with activity := act, shardNow := i, awaited := 0, round := x.round + 1, sent := false, bad := false }

/-- A Conservator's work is over or broken off: answers still to come are of no more use. -/
def Cons.leave (x : Cons) : Cons := x.begin .idle x.shardNow

/-- A shard is halted with a status (R249, R260). -/
def State.halt (s : State) (n i : Nat) (st : Status) (close : Nat) : State :=
  let a := s.recAt n i
  let s := (s.recSet a 1186 1186 1).rLast a st
  let s := s.modCon n (fun x => { x.leave with halts := satInc x.halts })
  (s.modShard n i (fun e => { e with state := .halted })).sweepNotice n i evHalted st close 0

/-- A read or write of a close or sweep ended with a status: a remote reset leaves the work to be taken up again, a migration to be tried
again, others halt (R249). -/
def State.haltWith (s : State) (n i : Nat) (st : Status) (close : Nat) : State :=
  if st = .reset then (s.modCon n Cons.leave).fresh
  else if st = .notReady then s
  else
    let closing := decide ((s.con n).activity = .close)
    ((s.halt n i st close).modShard n i (fun e => { e with closeFailed := e.closeFailed || closing })).fresh

/-- The same, the failed access counted. -/
def State.haltOn (s : State) (n i : Nat) (e : MemErr) (close : Nat) : State := (s.noteErr e).haltWith n i e.st close

/-! ## Closes (R237 to R239) -/

/-- A held buffer is not free: the wait begins, with one CLOSE_STALL notice (R238). -/
def State.closeStall (s : State) (n i : Nat) : State :=
  match (s.shard n i).stalled with
  | some _ => s
  | none => (s.modShard n i (fun e => { e with stalled := some s.now })).sweepNotice n i evCloseStall .ok (s.rCloses (s.recAt n i)) 0

/-- µs since a tick, onto a saturating count. -/
def State.sinceUs (s : State) (from_ : Nat) (v : BitVec 32) : BitVec 32 := satInc v ((s.now - from_) / 1000)

/-- A wait under R238 ends: its time is added. -/
def State.stallEnds (s : State) (n i : Nat) : State :=
  match (s.shard n i).stalled with
  | none => s
  | some t => (s.modCon n (fun x => { x with closeStallUs := s.sinceUs t x.closeStallUs })).modShard n i (fun e => { e with stalled := none })

/-- A copy of the work a Conservator does, made once; a failure ends the work. The flag says that no answer to it is awaited. -/
def State.copyOnce (s : State) (n : Nat) (copy : Except MemErr State) (fail : MemErr → State) : State × Bool :=
  if (s.con n).sent then (s, (s.con n).awaited = 0)
  else match copy with
    | .error e => (fail e, false)
    | .ok s => (s.modCon n (fun x => { x with sent := true }), (s.con n).awaited = 0)

/-- Order 2 of a close (R237). -/
def State.closeCopy (s : State) (n i : Nat) : Except MemErr State :=
  let a := s.recAt n i
  s.consCopy n false (s.recGet a 383 320) (s.rFab a 1) (s.rGrad a (s.rCloses a)) (4 * s.rN a)

/-- A close begins or goes on: a copy into another device's memory leaves at once. -/
def State.closeBegin (s : State) (n i : Nat) : State :=
  let a := s.recAt n i
  let s := s.modCon n (fun x => x.begin .close i)
  if s.rCloseState a = 1 ∧ s.rFab a 1 then (s.copyOnce n (s.closeCopy n i) (fun e => s.haltOn n i e (s.rCloses a))).1 else s

/-- GRADIENT_CLOSE: order 1, or an interrupted close taken up again; while the held buffer is not free the gradient waits, whatever the
Conservator does (R237, R238, R249). -/
def execGradientClose (n : ConsNo) (i : Fin 64) (s : State) : Out1 :=
  let n := n.val
  let i := i.val
  let a := s.recAt n i
  if (s.con n).inReset || !s.closeDue n i then .next s
  else if s.complete n i && !s.heldFree a then .next (s.closeStall n i)
  else if !s.consIdle n then .next s
  else if s.closeOpen n i then .next (s.closeBegin n i)
  else
    let s := (s.stallEnds n i).recSet a 1023 960 (s.rArrived a - s.rExpect a)
    .next ((s.recSet a 1057 1056 1).closeBegin n i)

/-- CLOSE_COPY_DONE: orders 2 and 3, once every write of the copy has completed (R237). -/
def execCloseCopyDone (n : ConsNo) (s : State) : Out1 :=
  let n := n.val
  let x := s.con n
  let i := x.shardNow
  let a := s.recAt n i
  let c := s.rCloses a
  if x.activity ≠ .close ∨ s.rCloseState a ≠ 1 then .next s
  else match s.copyOnce n (s.closeCopy n i) (fun e => s.haltOn n i e c) with
    | (s, false) => .next s
    | (s, true) =>
      let s := s.recSet a 1087 1024 ((c + 1) % 2 ^ 32 + 2 * 2 ^ 32)
      .next (({ s with closeTick := s.closeTick + 1 }).modShard n i (fun e => { e with closeOrder := e.closeOrder ++ [s.closeTick] }))

/-- A refresh is due after gradient c (R254): folded next, or skipped. -/
def State.refreshDue (s : State) (n i c k : Nat) : State :=
  let a := s.recAt n i
  let e := s.shard n i
  if k = 0 ∨ (c + s.recGet a 1351 1336) % k ≠ 0 then s
  else if e.refreshing ∨ e.foldDue ∨ s.recGet a 1185 1185 = 1 then
    (s.modCon n (fun x => { x with rootSkips := satInc x.rootSkips })).sweepNotice n i evRootSkipped .ok c 0
  else s.modShard n i (fun e => { e with foldDue := true, refreshFrom := BitVec.ofNat 32 c })

/-- CLOSE_ZERO_DONE: orders 4 and 5, or an overrun; with ACTIVATION a refresh may be due (R237, R239, R254). -/
def execCloseZeroDone (n : ConsNo) (s : State) : Out1 :=
  let n := n.val
  let x := s.con n
  let i := x.shardNow
  let a := s.recAt n i
  if x.activity ≠ .close ∨ s.rCloseState a ≠ 2 then .next s
  else
    let c := (BitVec.ofNat 32 (s.rCloses a) - 1).toNat
    let s := (s.zeroMem (s.recGet a 383 320) (4 * s.rN a)).recSet a 1057 1056 0
    let s := s.modCon n Cons.leave
    let s := if s.rArrived a ≠ 0 then
        let s := ((s.recSet a 1186 1186 1).rLast a .badParam).modShard n i (fun e => { e with state := .halted })
        (s.modCon n (fun x => { x with overruns := satInc x.overruns })).sweepNotice n i evOverrun .badParam c 0
      else s.sweepNotice n i evClosed .ok c 0
    match s.readRule a with
    | .error e => .next (s.noteErr e)
    | .ok u => .next (if s.rSource a = 1 then s.refreshDue n i c (uK u) else s)

/-! ## Sweeps (R245 to R257) -/

/-- Close number from which a staged set is used (R256). -/
def State.stagedAt (s : State) (a : Nat) : Nat := s.recGet a 1183 1152 + (if s.rDelayed a then s.rStale a else 1)

/-- A staged set that the sweep of gradient c reads (R256). -/
def State.usesStaged (s : State) (a c : Nat) : Bool := s.recGet a 1185 1185 == 1 && decide (s.stagedAt a ≤ c)

/-- The sweep is the first that should have read a set still being formed (R256). -/
def State.rootLate (s : State) (n i c : Nat) : Bool :=
  let e := s.shard n i
  let a := e.record.toNat
  (e.refreshing || e.foldDue) && c == e.refreshFrom.toNat + (if s.rDelayed a then s.rStale a else 1)

/-- SWEEP_START: order 1, then the wait of order 2 (R245, R246, R256). -/
def execSweepStart (n : ConsNo) (i : Fin 64) (s : State) : Out1 :=
  let n := n.val
  let i := i.val
  let a := s.recAt n i
  let c := s.rDone a
  if !s.consIdle n || s.anyClose n || s.nextShard n != some i then .next s
  else match s.readRule a with
    | .error e => .next (s.haltOn n i e c)
    | .ok u =>
      if !ruleOk u then .next (s.halt n i .badParam c)
      else
        let s := if usesRoots (uId u) && s.rootLate n i c then
            (s.modCon n (fun x => { x with rootLate := satInc x.rootLate })).sweepNotice n i evRootLate .ok c 0
          else s
        .next (s.modCon n (fun x => { x.begin .holdWait i with
          rule := u, block := 0, satCount := 0, waitFrom := s.now
          useStaged := usesRoots (uId u) && s.usesStaged a c }))

/-- A hold word that is not zero: a negative one is reported once (R242). -/
def State.holdNote (s : State) (n i : Nat) (w : Nat) : State :=
  if w / 2 ^ 63 % 2 = 1 ∧ !(s.shard n i).holdNoted then
    (s.modShard n i (fun e => { e with holdNoted := true })).sweepNotice n i evOverrun .badParam (s.rDone (s.recAt n i)) 0
  else s

/-- The writes of a skip: slot S copied to slot 1 − S, the working copy formed again from the master; the saturated elements counted (R260). -/
def State.skipCopy (s : State) (n i : Nat) : Except MemErr State :=
  let a := s.recAt n i
  let u := (s.con n).rule
  let size := 4 * s.rN a * (1 + moments (uId u) + bit (s.rComp a))
  let src := s.rSlotBase a (s.rSlot a)
  let all := List.range (s.rN a / 4096)
  match s.consCopy n (s.rFab a 0) src (s.rFab a 0) (s.rSlotBase a (1 - s.rSlot a)) size, s.readTiles (s.rFab a 0) src all with
  | .error e, _ => .error e
  | _, .error e => .error e
  | .ok s, .ok w => match s.writeWork n a ((s.rVersion a + 1) % 2) s.freeCtr (all.zip w) 0 with
    | .error e => .error e
    | .ok (s, sat) => .ok (s.fresh.modCon n (fun x => { x with satCount := sat }))

/-- A skip begins: writes into another device's memory leave at once (R260, R261). -/
def State.skipBegin (s : State) (n i : Nat) : State :=
  let a := s.recAt n i
  let s := s.modCon n (fun x => { x with activity := .skipCopy })
  if s.rFab a 0 || s.rFab a 2 then (s.copyOnce n (s.skipCopy n i) (fun e => s.haltOn n i e (s.rDone a))).1 else s

/-- SWEEP_PASS_START: the hold word is zero; the selector drops PREV_VALID (R246 orders 2 and 3). A DISCARD goes on as a skip (R261). -/
def execSweepPassStart (n : ConsNo) (s : State) : Out1 :=
  let n := n.val
  let x := s.con n
  let i := x.shardNow
  let a := s.recAt n i
  if x.activity ≠ .holdWait ∨ (n, i) ∈ s.cur.ckptHolds then .next s
  else
    let w := s.num (holdAddr a ((s.rVersion a + 1) % 2)) 8
    if w ≠ 0 then .next (s.holdNote n i w)
    else
      let skip := (s.shard n i).discard
      let s := ((s.recSet a 33 33 0).modCon n (fun x => { x with
        activity := .pass, useStaged := x.useStaged && !skip, holdWaitUs := s.sinceUs x.waitFrom x.holdWaitUs })).modShard n i
          (fun e => { e with holdNoted := false })
      .next (if skip then s.skipBegin n i else s)

/-- Everything a block's update reads (R247). -/
def State.readBlock (s : State) (n i : Nat) (b : Blk) : Except MemErr BlkIn :=
  let x := s.con n
  let a := s.recAt n i
  let u := x.rule
  let base := s.rSlotBase a (s.rSlot a)
  let part := 4 * s.rN a
  let ts := b.tiles (s.rCols a / 64)
  let two := decide (moments (uId u) = 2)
  let comp := s.rComp a
  let rd := fun (want : Bool) (p : Nat) => if want then s.readTiles (s.rFab a 0) (base + p * part) ts else .ok []
  let roots := fun staged => if usesRoots (uId u) then s.blockRoots a staged x.block b else .ok ([], [])
  match rd true 0, rd true 1, rd two 2, rd comp (if two then 3 else 2), s.readTiles (s.rFab a 1) (s.rGrad a (s.rDone a)) ts,
      roots x.useStaged, roots false with
  | .ok w, .ok m, .ok v, .ok k, .ok g, .ok (l, r), .ok (ol, or) =>
    .ok {
          w := w, m := m, v := v, k := k, g := g, l := l, r := r, oldL := ol, oldR := or,
          rebase := x.useStaged && uId u == urEigen, noRoots := !x.useStaged && s.recGet a 1184 1184 == 0 }
  | .error e, _, _, _, _, _, _ => .error e
  | _, .error e, _, _, _, _, _ => .error e
  | _, _, .error e, _, _, _, _ => .error e
  | _, _, _, .error e, _, _, _ => .error e
  | _, _, _, _, .error e, _, _ => .error e
  | _, _, _, _, _, .error e, _ => .error e
  | _, _, _, _, _, _, .error e => .error e

/-- What a block's update writes (R247). -/
def State.writeBlock (s : State) (n i : Nat) (b : Blk) (w m v k : Mat) : Except MemErr State :=
  let u := (s.con n).rule
  let a := s.recAt n i
  let base := s.rSlotBase a (1 - s.rSlot a)
  let part := 4 * s.rN a
  let ts := b.tiles (s.rCols a / 64)
  let two := decide (moments (uId u) = 2)
  let wr := fun (s : State) (want : Bool) (p : Nat) (x : Mat) => if want then s.writeTiles n (s.rFab a 0) (base + p * part) (ts.zip x) else .ok s
  match wr s true 0 w with
  | .error e => .error e
  | .ok s => match wr s true 1 m with
    | .error e => .error e
    | .ok s => match wr s two 2 v with
      | .error e => .error e
      | .ok s => match wr s (s.rComp a) (if two then 3 else 2) k with
        | .error e => .error e
        | .ok s => match s.writeWork n a ((s.rVersion a + 1) % 2) s.freeCtr (ts.zip w) 0 with
          | .error e => .error e
          | .ok (s, sat) => .ok ((s.modCon n (fun x => { x with satCount := satAdd 0xFFFFFFFF x.satCount sat })).fresh)

/-- Adds of a 64 × 64 tile pair (p, q) of a product into a statistics region (R137, R253). -/
def State.statAdd (s : State) (region tb β : Nat) (m : Mat) : List (Nat × Nat) → State
  | [] => s
  | (p, q) :: t =>
    let vs := (List.range 4096).map (fun e => r32 (m.at (64 * p + e / 64) (64 * q + e % 64)))
    State.statAdd (s.addAll (region + 256 * pairLine tb β p q) vs) region tb β m t

/-- Tile pairs p ≤ q below n. -/
def pairsUpTo (n : Nat) : List (Nat × Nat) := ((List.range n).map (fun p => ((List.range n).filter (fun q => decide (p ≤ q))).map (fun q => (p, q)))).flatten

/-- GRADIENT: g gᵀ into XX and gᵀ g into YY (R253). -/
def State.gradStats (s : State) (n i : Nat) (b : Blk) (g : Mat) : State × Bool :=
  let a := s.recAt n i
  let k := (s.con n).block
  let tb := s.rBlock a / 64
  let gr := b.rows g
  let gt := gr.trans (64 * b.nc)
  let (l, s1) := matMul gr gt (64 * b.nc) (64 * b.nr) (64 * b.nr)
  let (r, s2) := matMul gt gr (64 * b.nr) (64 * b.nc) (64 * b.nc)
  ((s.statAdd (s.recGet a 767 704) tb k l (pairsUpTo b.nr)).statAdd (s.recGet a 831 768) tb k r (pairsUpTo b.nc), s1 || s2)

/-- A non-finite shard: halted, or skipped (R260). -/
def State.nonFinite (s : State) (n i : Nat) : State :=
  if uSkip (s.con n).rule then s.skipBegin n i
  else s.halt n i .numeric (s.rDone (s.recAt n i))

/-- SWEEP_BLOCK_DONE (R247, R260); matrix-unit steps are counted for the rules that take its products (R263). -/
def execSweepBlockDone (n : ConsNo) (s : State) : Out1 :=
  let n := n.val
  let x := s.con n
  let i := x.shardNow
  let a := s.recAt n i
  let u := x.rule
  if x.activity ≠ .pass then .next s
  else match (s.rBlocks a)[x.block]? with
    | none => .next s
    | some b => match s.readBlock n i b with
      | .error e => .next (s.haltOn n i e (s.rDone a))
      | .ok y =>
        let t := s.rDone a + 1
        let (m, v, dir, sat) := direction u t b y
        let (w, k) := applyDelta u (s.rComp a) y.w y.k dir
        let g := scaled u y.g
        if !finT g || !finT w || !finT m || !finT v || !finT k || sat then .next (s.nonFinite n i)
        else
          let (s', sat') := if s.rSource a = 2 then s.gradStats n i b g else (s, false)
          if sat' then .next (s.nonFinite n i)
          else match s'.writeBlock n i b w m v k with
            | .error e => .next (s.haltOn n i e (s.rDone a))
            | .ok s => .next ((s.modCon n (fun x => { x with
                block := x.block + 1, matrixSteps := if usesMatrix (uId u) then satInc x.matrixSteps (Config.matrixSteps s.freeCtr) else x.matrixSteps })).fresh)

/-- The commit write of order 5 (R246): held buffer c mod h becomes free with it, which ends a wait under R238. -/
def State.commitWrite (s : State) (n i : Nat) : State :=
  let a := s.recAt n i
  let s := s.store a (leBytes 8 (pack [(0, 32, s.rVersion a + 1), (32, 1, 1 - s.rSlot a), (33, 1, 1)]))
  let s := s.modCon n (fun x => { x with activity := .afterCommit, sent := false, commits := satInc x.commits })
  let s := s.modShard n i (fun e => { e with closeOrder := e.closeOrder.tail, discard := false })
  if s.heldFree a then s.stallEnds n i else s

/-- Gradients of the statistics a pass added are counted in both regions (R253). -/
def State.bumpRows (s : State) (a : Nat) : State :=
  let bump := fun (s : State) (r : Nat) => s.pokeNum (r + 8) 8 ((s.num (r + 8) 8 + 1) % 2 ^ 64)
  bump (bump s (s.recGet a 767 704)) (s.recGet a 831 768)

/-- Order 7, and with GRADIENT the refresh that may be due (R244, R246, R254). -/
def State.commitEnds (s : State) (n i : Nat) : State :=
  let a := s.recAt n i
  let c := (BitVec.ofNat 32 (s.rDone a) - 1).toNat
  let x := s.con n
  let s := (s.recSet a 1279 1248 x.satCount).modCon n Cons.leave
  let s := if s.recGet a 1334 1334 = 1 then s.signalUnit (BitVec.ofNat 48 (s.recGet a 1327 1280)) (s.recGet a 1333 1328) 0 else s
  let s := s.sweepNotice n i evCommitted .ok c x.satCount
  if s.rSource a = 2 then s.refreshDue n i c (uK x.rule) else s

/-- STAGING copied to ROOTS (R246 order 6). -/
def State.install (s : State) (n i : Nat) : Except MemErr State :=
  let a := s.recAt n i
  let (l, r) := s.factorOrders a
  s.consCopy n (s.rFab a 3) (s.recGet a 703 640) (s.rFab a 3) (s.recGet a 639 576) (offsetOf (fun o => 4 * o * o) (l ++ r) (l ++ r).length)

/-- The staged set is installed: ROOTS_VALID and STAGED (R246 order 6). -/
def State.installed (s : State) (n i : Nat) : State := let a := s.recAt n i; (s.recSet a 1184 1184 1).recSet a 1185 1185 0

/-- A copy of order 6 that failed: counted where it failed, the set stays staged. -/
def State.installFails (s : State) (n : Nat) (e : MemErr) : State :=
  if e.st = .notReady then s else (s.noteErr e).modCon n (fun x => { x with sent := true, bad := true })

/-- Orders 6 and 7, taken up again after a reset (R246, R249, R256): while writes to another device's ROOTS are awaited they are not over. -/
def State.afterCommit (s : State) (n : Nat) : State :=
  let i := (s.con n).shardNow
  if !(s.con n).useStaged then s.commitEnds n i
  else
    let (s, _) := s.copyOnce n (s.install n i) (fun e => s.installFails n e)
    let x := s.con n
    if !x.sent || x.awaited != 0 then s
    else (if x.bad then s else s.installed n i).commitEnds n i

/-- SWEEP_COMMIT: orders 5 to 7 once every write of the pass has completed (R246, R254). -/
def execSweepCommit (n : ConsNo) (s : State) : Out1 :=
  let n := n.val
  let x := s.con n
  let i := x.shardNow
  let a := s.recAt n i
  if x.inReset then .next s
  else if x.activity = .afterCommit then .next (s.afterCommit n)
  else if x.activity ≠ .pass ∨ x.block < (s.rBlocks a).length ∨ x.awaited ≠ 0 then .next s
  else
    let s := if s.rSource a = 2 then s.bumpRows a else s
    .next ((s.commitWrite n i).afterCommit n)

/-- SKIP_COPY_DONE: the state copied unchanged, the working copy formed again; orders 5 to 7 once every write of the copy has completed
(R260, R261). -/
def execSkipCopyDone (n : ConsNo) (s : State) : Out1 :=
  let n := n.val
  let x := s.con n
  let i := x.shardNow
  let c := s.rDone (s.recAt n i)
  if x.activity ≠ .skipCopy then .next s
  else match s.copyOnce n (s.skipCopy n i) (fun e => s.haltOn n i e c) with
    | (s, false) => .next s
    | (s, true) =>
      let s := (s.commitWrite n i).modCon n (fun x => { x with skips := satInc x.skips })
      .next ((s.sweepNotice n i evSkipped .numeric c 0).afterCommit n)

/-- An answer to a write of a Conservator's work: the last one lets the work complete; a failed one ends a close or a sweep (R246, R249),
and of a fold, which the spec gives no such ending, nothing. -/
def State.consAnswer (s : State) (n round : Nat) (st : Status) : State :=
  let x := s.con n
  let i := x.shardNow
  if round ≠ x.round ∨ x.awaited = 0 then s
  else
    let s := s.modCon n (fun x => { x with awaited := x.awaited - 1, bad := x.bad || st != .ok })
    if st = .ok ∨ x.activity = .afterCommit ∨ x.activity = .idle then s
    else s.haltWith n i st (if x.activity = .close then s.rCloses (s.recAt n i) else s.rDone (s.recAt n i))

/-! ## Compares (R259) -/

/-- Spacing q of a format at a magnitude (R52). -/
def spacing (f : Fmt) (v : FVal) : FVal :=
  match f.layout with
  | none => one32
  | some l => if v.isZero then .fin false 1 l.qmin else .fin false 1 (max (v.exponent - l.mbits) l.qmin)

/-- Largest |w̃ − w| / q over the elements of a tile that did not saturate. -/
def tileDev (f : Fmt) (axis : Nat) (ws : List FVal) (b : List Byte) : FVal :=
  let line := fun (l k : Nat) => (List.range 32).map (fun x => nth FVal.zero ws (if axis = 0 then 64 * l + 32 * k + x else 64 * (32 * k + x) + l))
  ((numbered 0 (ws.zip (tileVals f axis b))).map (fun (e, w, wt) =>
    let k := if axis = 0 then 2 * (e / 64) + e % 64 / 32 else 2 * (e % 64) + e / 64 / 32
    let sc : Int := if f.isMx then ((mxScale f (line (k / 2) (k % 2)) : Nat) : Int) - 127 else 0
    let c := if f.isMx then convert f .toMax none (w.scale (-sc)) else convert f .toMax none w
    if c.sat then FVal.zero else d32 (s32 wt w).abs ((spacing f (w.scale (-sc))).scale sc))).foldl maxMag FVal.zero

/-- COMPARE_DONE: the lowest entry that waits for a compare (R234, R259). -/
def execCompareDone (n : ConsNo) (s : State) : Out1 :=
  let n := n.val
  match (List.range 64).find? (fun i => (s.shard n i).compareQueued) with
  | none => .next s
  | some i =>
    let a := s.recAt n i
    if !s.consIdle n || s.anyClose n then .next s
    else
      let s := s.modShard n i (fun e => { e with compareQueued := false })
      let all := List.range (s.rN a / 4096)
      match s.readTiles (s.rFab a 0) (s.rSlotBase a (s.rSlot a)) all,
          s.consRead (s.rFab a 2) (s.rWork a (s.rVersion a % 2)) (s.rWorkBytes a) with
      | .ok w, .ok b =>
        let k := s.rTileBytes a
        let dev := (all.zip w).map (fun (t, ws) => tileDev (fmtOf (s.rWorkFmt a)) (s.recGet a 153 153) ws ((b.drop (k * t)).take k))
        let v := r32 (dev.foldl maxMag FVal.zero)
        .next ((s.recSet a 1247 1216 v).sweepNotice n i evCompare .ok (s.rDone a) v)
      | .error e, _ => .next ((s.noteErr e).fresh.sweepNotice n i evCompare e.st (s.rDone a) 0)
      | _, .error e => .next ((s.noteErr e).fresh.sweepNotice n i evCompare e.st (s.rDone a) 0)

/-! ## Folds and refreshes (R253, R254, R293) -/

/-- Tile pairs of a packed factor, in order. -/
def factorTiles (n : Nat) : List (Nat × Nat) := pairsUpTo (n / 64)

/-- One factor folded: its tiles from FACTORS and from the statistics region (R253). -/
def State.foldFactor (s : State) (c a : Nat) (u : Rule) (region at_ β n rows : Nat) : Except MemErr State :=
  let tb := s.rBlock a / 64
  let first := s.recGet a 1187 1187 == 0
  let size := packedBytes n
  match s.consRead (s.rFab a 3) at_ size with
  | .error e => .error e
  | .ok old =>
    let f := rowsOf (size / 16384) 4096 (vals32 old)
    let stat := (factorTiles n).map (fun (p, q) => vals32 (s.bytes (region + 256 * pairLine tb β p q) 16384))
    let new := zipT (fun f x =>
      let y := d32 x (rnd32 (FVal.ofInt rows))
      if first then y else a32 (m32 (uFb u) f) (m32 (s32 one32 (uFb u)) y)) f stat
    s.consWrite c (s.rFab a 3) at_ (bytes32 new.flat)

/-- Factors folded one after another: (region, offset, position, order). -/
def State.foldAll (s : State) (c a : Nat) (u : Rule) (rows : Nat → Nat) : List (Nat × Nat × Nat × Nat) → Except MemErr State
  | [] => .ok s
  | (region, at_, β, n) :: t => match (if rows region = 0 then .ok s else s.foldFactor c a u region at_ β n (rows region)) with
    | .error e => .error e
    | .ok s => State.foldAll s c a u rows t

/-- Statistics and ROWS written with zero. -/
def State.clearStats (s : State) (a region count : Nat) : State :=
  let tb := s.rBlock a / 64
  (s.zeroMem (region + 256) (count * (tb * (tb + 1) / 2) * 16384)).pokeNum (region + 8) 8 0

/-- A root job of a refresh (R293): factor and result addresses, order. -/
def rootDesc (u : Rule) (e : RootEng) (entry aAddr outAddr warm n : Nat) (hasRoots : Bool) : JobDesc :=
  let eig := decide (uId u = urEigen)
  BitVec.ofNat 2048 (pack [(0, 8, if eig then opEig else opInvroot), (8, 1, 1),
    (12, 2, if eig && hasRoots then 2 else 0), (28, 2, 1), (32, 32, entry), (64, 32, n),
    (144, 2, if eig then 0 else if uId u = urKfac then 0 else uPLog u),
    (512, 64, if eig then 0 else r64 (uF u 287 256)), (832, 64, aAddr), (960, 64, outAddr), (1088, 64, e.optWork.toNat),
    (1152, 64, e.optWorkMib.toNat * 2 ^ 20), (1216, 64, if eig && hasRoots then warm else 0)])

/-- A Conservator's array address as a Root job takes it: device-local (R271). -/
def State.localAddr (s : State) (fab : Bool) (addr : Nat) : Option Nat :=
  match s.place fab permRead (BitVec.ofNat 64 addr) 1 with
  | .here a => some a
  | .far _ _ _ => none
  | .refused _ => none
  | .wait => none

/-- The Conservators that submit to the engine of a Troupe: those at its position in both dies of its Stage (R227). -/
def consOfTroupe (t : Nat) : List Nat := [16 * (t / 8) + t % 8, 16 * (t / 8) + 8 + t % 8]

/-- The largest block size that a Troupe's engine serves: of the loaded shards that submit root jobs to it (R293). -/
def State.largestBlock (s : State) (t : Nat) : Nat :=
  (((consOfTroupe t).map (fun n => ((s.con n).entries.filter (fun (p : Nat × ShardEntry) =>
    p.2.state != .empty && s.rSource p.2.record.toNat != 0)).map (fun (p : Nat × ShardEntry) => s.rBlock p.2.record.toNat))).flatten).foldl max 0

/-- Jobs of a refresh submitted in order; a refusal is a failed job (R254, R255, R269, R293). -/
def State.submitRoots (s : State) (n i : Nat) (u : Rule) (troupe : Nat) : List (Nat × Nat × Nat) → State
  | [] => s
  | (fOff, rOff, order) :: t =>
    let a := s.recAt n i
    let e := s.engine troupe
    let fab := s.rFab a 3
    let b := s.largestBlock troupe
    let ad := fun base off => s.localAddr fab (base + off)
    let s := match ad (s.recGet a 575 512) fOff, ad (s.recGet a 703 640) rOff, ad (s.recGet a 639 576) rOff with
      | some f, some o, some w =>
        if e.optWork = 0 ∨ e.optWorkMib.toNat * 2 ^ 20 < 16 * b * b + 4096 then
          (s.refuseJob (some troupe) .badParam).refreshFails n i .badParam
        else match s.acceptJob (rootDesc u e i f o w order (s.recGet a 1184 1184 == 1)) (uPrio u) (.conservator n i) (some troupe) with
          | (s, .ok seq) => s.modShard n i (fun x => { x with refreshJobs := x.refreshJobs ++ [seq] })
          | (s, .error st) => s.refreshFails n i st
      | _, _, _ => (s.refuseJob (some troupe) .badParam).refreshFails n i .badParam
    State.submitRoots s n i u troupe t

/-- The Troupe whose engine serves a Conservator (R17, R227): its Stage's, at position n mod 8. -/
def troupeOfCons (n : Nat) : Nat := 8 * stageOfCons n + n % 8

/-- The refresh of a shard: factors folded, statistics cleared, jobs submitted (R253, R254). -/
def State.refresh (s : State) (n i : Nat) (u : Rule) : State :=
  let a := s.recAt n i
  let (l, r) := s.factorOrders a
  let xx := s.recGet a 767 704
  let yy := s.recGet a 831 768
  let base := s.recGet a 575 512
  let offs := fun k => offsetOf packedBytes (l ++ r) k
  let parts := (numbered 0 l).map (fun (k, o) => (xx, base + offs k, k, o)) ++
    (numbered 0 r).map (fun (k, o) => (yy, base + offs (l.length + k), k, o))
  let rows := fun region => s.num (region + 8) 8
  let s := s.modShard n i (fun e => { e with foldDue := false, refreshing := true, refreshBad := false, refreshJobs := [] })
  let s := s.modCon n (fun x => x.begin .idle i)
  match s.foldAll n a u rows parts with
  | .error e => ((s.noteErr e).fresh.refreshFails n i e.st).refreshOver n i
  | .ok s =>
    let s := if rows xx = 0 ∧ rows yy = 0 then s else s.recSet a 1187 1187 1
    let s := (s.clearStats a xx l.length).clearStats a yy r.length
    let jobs := (numbered 0 (l ++ r)).map (fun (k, o) => (offs k, offsetOf (fun o => 4 * o * o) (l ++ r) k, o))
    (s.submitRoots n i u (troupeOfCons n) jobs).refreshOver n i

/-- FACTOR_FOLD_DONE: the lowest entry whose refresh is due (R253 to R255). -/
def execFactorFoldDone (n : ConsNo) (s : State) : Out1 :=
  let n := n.val
  match (List.range 64).find? (fun i => (s.shard n i).foldDue) with
  | none => .next s
  | some i =>
    if !s.consIdle n || s.anyClose n then .next s
    else match s.readRule (s.recAt n i) with
      | .error e => .next ((((s.noteErr e).modShard n i (fun x => { x with foldDue := false, refreshing := true, refreshBad := false })).refreshFails n i e.st).refreshOver n i)
      | .ok u => .next (s.refresh n i u)

/-! ## Resets (R249) -/

/-- A Stage reset leaves a Conservator's work where its record says: a close and a sweep are taken up again from the record, orders 6 and 7
after a commit complete after the reset. -/
def Cons.resetWork (x : Cons) : Cons :=
  { x.begin (if x.activity = .afterCommit then .afterCommit else .idle) x.shardNow with block := 0 }

/-! ## Registers (unit code 0x800 + n, R263) -/

def activityNo : Activity → Nat
  | .idle => 0 | .close => 1 | .holdWait => 2 | .pass => 3 | .afterCommit => 4 | .fold => 5 | .compare => 6 | .skipCopy => 7

def entryNo : EntryState → Nat
  | .empty => 0 | .live => 1 | .halted => 2

/-- What a Conservator does now and on which entry: with nothing else in hand, a fold that is due, else a queued compare (R245, R263). -/
def State.consDoes (s : State) (n : Nat) : Activity × Nat :=
  let x := s.con n
  let first := fun (p : ShardEntry → Bool) => (List.range 64).find? (fun i => p (x.entry i))
  if x.activity ≠ .idle ∨ x.inReset ∨ s.anyClose n then (x.activity, x.shardNow)
  else match first (·.foldDue), first (·.compareQueued) with
    | some i, _ => (.fold, i)
    | none, some i => (.compare, i)
    | none, none => (.idle, x.shardNow)

/-- A word of a Conservator's registers. -/
def State.consReg (s : State) (n off : Nat) : Nat :=
  let x := s.con n
  if off = 0x000 then pack [(0, 1, bit (decide ((s.consDoes n).1 ≠ .idle))), (1, 3, activityNo (s.consDoes n).1), (4, 6, (s.consDoes n).2),
    (10, 7, ((List.range 64).filter (s.ready n)).length)]
  else if off = 0x008 then pack [(0, 32, x.commits.toNat), (32, 16, x.skips.toNat), (48, 16, x.halts.toNat)]
  else if off = 0x010 then pack [(0, 16, x.rootLate.toNat), (16, 16, x.rootFails.toNat), (32, 16, x.rootSkips.toNat), (48, 16, x.overruns.toNat)]
  else if off = 0x018 then x.sweepNq.toNat
  else if off = 0x020 then x.matrixSteps.toNat
  else if off = 0x028 then pack [(0, 32, x.holdWaitUs.toNat), (32, 32, x.closeStallUs.toNat)]
  else if 0x100 ≤ off ∧ off < 0x300 then
    let e := x.entry ((off - 0x100) / 8)
    pack [(0, 48, e.record.toNat), (48, 2, entryNo e.state), (50, 12, e.window.toNat)]
  else 0

/-- The RC fields of a word after a read. -/
def Cons.clear (x : Cons) (off : Nat) : Cons :=
  if off = 0x008 then { x with commits := 0, skips := 0, halts := 0 }
  else if off = 0x010 then { x with rootLate := 0, rootFails := 0, rootSkips := 0, overruns := 0 }
  else if off = 0x020 then { x with matrixSteps := 0 }
  else if off = 0x028 then { x with holdWaitUs := 0, closeStallUs := 0 }
  else x

/-- A write of a word: SWEEP_NQ. -/
def Cons.write (x : Cons) (off : Nat) (v : W64) : Cons := if off = 0x018 then { x with sweepNq := BitVec.ofNat 6 (fld v 5 0) } else x

end Sys2Proof.Machine
end

