-- ==== Sys2Proof/Machine/Units.lean ====
section
/-! DEFINITION. Unit descriptors and the Ensemble table (R21 to R34), descriptor reads over Mioder (R27), and what the responses
and the loss of an association do to the requests behind them (R308, R322, R328, R433).
Log entries with the readings and choices that are the model's: 16, 17, 18. -/

namespace Sys2Proof.Machine

/-! ## Descriptors of hardware units (R21, R22) -/

/-- Free Understudies of a Troupe (R40, R42). -/
def Troupe.free (t : Troupe) : Nat := bit (t.presentA && !t.engagedA) + bit (t.presentB && !t.engagedB)

/-- Troupes a unit covers; for a Core its own. -/
def URef.troupes : URef → List Nat
  | .core c => [troupeOfCore c]
  | .troupe t => [t]
  | .stage st => troupesOfStage st
  | .device => List.range 32
  | .ensemble _ => []

/-- A reset of the unit's own scope, or of a wider one, covers it (R22). -/
def State.resetCovers (s : State) : URef → Bool
  | .core c => (s.core c).inReset
  | .troupe t => (s.troupe t).inReset
  | .stage st => (s.stage st).inReset
  | .device => s.cur.deviceInReset
  | .ensemble _ => false

/-- STATE of a hardware unit (R21, R22): 1 ACTIVE, 2 RESET, 3 DARK. -/
def State.unitState (s : State) (r : URef) : Nat :=
  if r.leaves.all (fun c => (s.core c).dark) then 3 else if s.resetCovers r then 2 else 1

/-- DEPTH of a hardware unit, and the least depth a kind allows (R21, R27). -/
def URef.depth : URef → Nat
  | .core _ => 0
  | .troupe _ => 1
  | .stage _ => 2
  | .device => 3
  | .ensemble _ => 1

/-- Direct members of a hardware unit (R21). -/
def URef.members : URef → Nat
  | .core _ => 0
  | .troupe _ => 16
  | .stage _ => 8
  | .device => 4
  | .ensemble _ => 0

/-- TAG of a unit. -/
def State.tagOf (s : State) : URef → Nat
  | .core c => (s.core c).tag.toNat
  | .troupe t => (s.troupe t).tag.toNat
  | .stage st => (s.stage st).tag.toNat
  | .device => s.cur.deviceTag.toNat
  | .ensemble e => (s.ensemble e).tag.toNat

/-- Local Ensembles that hold a unit as a direct member (R21). -/
def State.parents (s : State) (u : UnitName) : Nat :=
  (s.ensembles.filter (fun (p : Nat × Ensemble) => p.2.defined && p.2.members.contains u)).length

/-- What a hardware unit of this device brings (R27). -/
def State.aggOf (s : State) (r : URef) (level : Nat) : Agg :=
  {
    leaves := r.leaves.length, dark := (r.leaves.filter (fun c => (s.core c).dark)).length,
    spares := (r.troupes.map (fun t => (s.troupe t).free)).foldl (· + ·) 0, depth := r.depth + level,
    degraded := r.leaves.any (fun c => (s.core c).dark), inReset := r.leaves.any (fun c => (s.core c).inReset),
    live := r.leaves.any (fun c => !(s.core c).dark && !(s.core c).inReset) }

/-- Two sums joined. -/
def Agg.join (a b : Agg) : Agg :=
  {
    leaves := a.leaves + b.leaves, dark := a.dark + b.dark, spares := a.spares + b.spares, depth := max a.depth b.depth,
    degraded := a.degraded || b.degraded, inReset := a.inReset || b.inReset, live := a.live || b.live,
    unreachable := a.unreachable || b.unreachable, gone := a.gone || b.gone }

/-- A member that contributes no descriptor counts with the least depth of its kind (R27). -/
def absent (u : UnitName) (level : Nat) : Agg := { depth := level + ((nameRef u).map URef.depth).getD 0, unreachable := true }

/-- STATE of an Ensemble (R27). -/
def Agg.state (a : Agg) : Nat := if a.leaves = 0 then 1 else if a.dark = a.leaves then 3 else if a.live then 1 else 2

/-- The members of an Ensemble of this device, and of the local Ensembles among them: what the local ones bring, and the names on
other devices with their nesting. -/
def State.gather (s : State) : Nat → Nat → Nat → Agg × List (UnitName × Nat)
  | 0, _, _ => ({}, [])
  | fuel + 1, e, level =>
    (s.ensemble e).members.foldl (fun acc u =>
      let go : Agg × List (UnitName × Nat) :=
        if !s.isHere u then ({}, [(u, level)])
        else match nameRef u with
          | none => ({}, [])
          | some (.ensemble d) =>
            if (s.ensemble d).defined then
              let x := State.gather s fuel d (level + 1)
              ({ x.1 with depth := max x.1.depth (level + 1) }, x.2)
            else ({ depth := level + 1, gone := true }, [])
          | some r => (s.aggOf r level, [])
      (acc.1.join go.1, acc.2 ++ go.2)) ({}, [])

/-- The 64 bytes of a descriptor (R21). -/
def descBytes (fields : List (Nat × Nat × Nat)) : List Byte := leBytes 64 (pack fields)

/-- The descriptor of a hardware unit. -/
def State.describeUnit (s : State) (r : URef) : List Byte :=
  let a := s.aggOf r 0
  let core : List (Nat × Nat × Nat) := match r with
    | .core c => [(320, 10, (s.core c).phys.toNat), (330, 1, bit (s.core c).onUnderstudy)]
    | .troupe _ => []
    | .stage _ => []
    | .device => []
    | .ensemble _ => []
  descBytes ([(0, 32, r.bits), (32, 16, s.me), (48, 16, r.depth), (64, 32, (s.genOf r).toNat), (96, 4, s.unitState r),
    (104, 1, bit a.degraded), (105, 1, bit a.inReset), (112, 16, r.members), (128, 32, a.leaves), (160, 32, a.dark), (192, 32, a.spares),
    (224, 6, s.queueOf r), (256, 32, s.tagOf r), (304, 16, s.parents (s.nameOf r))] ++ core)

/-- The descriptor of an Ensemble from what its members brought. -/
def State.describeEnsemble (s : State) (e : Nat) (a : Agg) : List Byte :=
  let x := s.ensemble e
  let r := URef.ensemble e
  descBytes [(0, 32, r.bits), (32, 16, s.me), (48, 16, a.depth), (64, 32, x.resetGen.toNat), (96, 4, a.state),
    (104, 1, bit a.degraded), (105, 1, bit a.inReset), (106, 1, bit (x.members.any (fun u => !s.isHere u))), (107, 1, bit a.unreachable),
    (108, 1, bit x.locked), (109, 1, bit a.gone), (112, 16, x.members.length), (128, 32, a.leaves), (160, 32, a.dark), (192, 32, a.spares),
    (224, 6, x.reportQueue.toNat), (256, 32, x.tag.toNat), (288, 14, x.base.toNat), (304, 16, s.parents (s.nameOf r))]

/-- What a descriptor from another device brings (R27). -/
def aggFrom (b : List Byte) (level : Nat) : Agg :=
  let v := ofLe b
  {
    leaves := bitsOf v 159 128, dark := bitsOf v 191 160, spares := bitsOf v 223 192, depth := bitsOf v 63 48 + level,
    degraded := bitOf v 104, inReset := bitOf v 105, live := bitsOf v 99 96 == 1 && decide (bitsOf v 191 160 < bitsOf v 159 128),
    unreachable := bitOf v 107, gone := bitOf v 109 }

/-! ## Descriptor reads (R27, R308) -/

/-- A job changed, by its number. -/
def State.modDescJob (s : State) (id : Nat) (f : DescJob → DescJob) : State :=
  { s with mio := { s.mio with descJobs := s.mio.descJobs.map (fun (j : DescJob) => if j.id = id then f j else j) } }

/-- A job's answer goes to the one who asked; the job is over. -/
def State.jobAnswers (s : State) (j : DescJob) (st : Status) (b : List Byte) : State :=
  let s := { s with mio := { s.mio with descJobs := s.mio.descJobs.filter (fun (x : DescJob) => x.id != j.id) } }
  match j.slot with
  | some k => s.workEnds k st (if st = .ok then [.data b] else [])
  | none =>
    let gen := match nameRef j.unit with
      | some r => s.genOf r
      | none => s.cur.deviceGen
    s.respond j.assoc j.reqId 0x08 st gen b

/-- A job with nothing left to wait for answers. -/
def State.jobSettle (s : State) (id : Nat) : State :=
  match s.mio.descJobs.find? (fun j => j.id == id) with
  | none => s
  | some j =>
    if !j.waiting.isEmpty || j.direct then s
    else match nameRef j.unit with
      | some (.ensemble e) => s.jobAnswers j .ok (s.describeEnsemble e j.agg)
      | some (.core _) => s
      | some (.troupe _) => s
      | some (.stage _) => s
      | some .device => s
      | none => s

/-- The first name of a waiting list, without it. -/
def dropName (u : UnitName) : List (UnitName × Nat) → List (UnitName × Nat)
  | [] => []
  | x :: t => if x.1 = u then t else x :: dropName u t

/-- A member on another device answered a descriptor read, or did not (R27, R30). -/
def State.describeAnswer (s : State) (id : Nat) (u : UnitName) (st : Status) (b : List Byte) : State :=
  match s.mio.descJobs.find? (fun j => j.id == id) with
  | none => s
  | some j =>
    if j.direct then s.jobAnswers j st b
    else match j.waiting.find? (fun x => x.1 == u) with
      | none => s
      | some (_, level) =>
        let a : Agg := if st = .ok then aggFrom b level
          else if st = .gone then { absent u level with unreachable := false, gone := true }
          else absent u level
        (s.modDescJob id (fun j => { j with agg := j.agg.join a, waiting := dropName u j.waiting })).jobSettle id

/-- Descriptor reads sent to the members of a job; a member that cannot be reached contributes nothing (R26, R27). -/
def State.jobAsk (s : State) (id bounds : Nat) : List (UnitName × Nat) → State
  | [] => s
  | (u, _) :: t =>
    let s := match (if 255 ≤ bounds then none else s.upAssoc (nameDevice u)) with
      | none => s.describeAnswer id u .reset []
      | some k => s.request k {
          op := 0x08, target := u.setWidth 64, gen := s.cur.deviceGen, aux := BitVec.ofNat 48 (1 + (bounds + 1) * 2 ^ 32) } (.describe id u)
    State.jobAsk s id bounds t

/-- A free job number from 1,024 up, for reads of peers. -/
def State.freeJob (s : State) : Nat := 1 + (s.mio.descJobs.map (·.id)).foldl max 1023

/-- A descriptor that needs no other device; none where it does. -/
def State.describeNow (s : State) (u : UnitName) : Option (Status × List Byte) :=
  match nameRef u with
  | none => some (.badParam, [])
  | some (.ensemble e) =>
    if !s.isHere u then none
    else if !(s.ensemble e).defined then some (.gone, [])
    else
      let x := s.gather 4097 e 1
      if x.2.isEmpty then some (.ok, s.describeEnsemble e x.1) else none
  | some r => if s.isHere u then some (.ok, s.describeUnit r) else none

/-- A descriptor read that goes to other devices starts (R24, R27, R33): the membership is that of this moment. -/
def State.describeStart (s : State) (j : DescJob) (bounds : Nat) : State :=
  let u := j.unit
  if !s.isHere u then
    match s.upAssoc (nameDevice u) with
    | none => ({ s with mio := { s.mio with descJobs := s.mio.descJobs ++ [j] } }).jobAnswers j .gone []
    | some k =>
      ({ s with mio := { s.mio with descJobs := s.mio.descJobs ++ [{ j with direct := true, waiting := [(u, 0)] }] } }).request k {
        op := 0x08, target := u.setWidth 64, gen := s.cur.deviceGen, aux := BitVec.ofNat 48 (1 + (bounds + 1) * 2 ^ 32) } (.describe j.id u)
  else
    let e := match nameRef u with
      | some (.ensemble e) => e
      | some (.core _) => 0
      | some (.troupe _) => 0
      | some (.stage _) => 0
      | some .device => 0
      | none => 0
    let x := s.gather 4097 e 1
    ({ s with mio := { s.mio with descJobs := s.mio.descJobs ++ [{ j with agg := x.1, waiting := x.2 }] } }).jobAsk j.id bounds x.2

/-- Devices of the members a job waits for. -/
def State.jobMissing (s : State) (id dev : Nat) : List (UnitName × Nat) → State
  | [] => s
  | (u, _) :: t => State.jobMissing (if nameDevice u = dev then s.describeAnswer id u .reset [] else s) id dev t

/-- DESCRIBE_MEMBER_TIMEOUT: the members of a device have not answered within 1 ms (R27). -/
def execDescribeMemberTimeout (job : Nat) (device : BitVec 16) (s : State) : Out1 :=
  match s.mio.descJobs.find? (fun j => j.id == job) with
  | none => .next s
  | some j => .next (s.jobMissing job device.toNat j.waiting)

/-- MIODER_UNIT_DESCRIBE (R308, R412). -/
def State.serveDescribe (s : State) (r : MioReq) : State :=
  let u : UnitName := BitVec.ofNat 48 (fld r.target 47 0)
  if mioBad r 0x08 || !s.isHere u || fld r.aux 3 0 != 1 then s.reply r 0x08 .badParam s.cur.deviceGen []
  else if (s.assoc r.assoc).hostPeer && s.confined then s.reply r 0x08 .denied s.cur.deviceGen []
  else
    let gen := match nameRef u with
      | some x => s.genOf x
      | none => s.cur.deviceGen
    match s.describeNow u with
    | some (st, b) => s.reply r 0x08 st gen b
    | none => s.describeStart { id := s.freeJob, slot := none, assoc := r.assoc, reqId := r.reqId, unit := u, waiting := [] } (boundsOf r.aux)

/-- MIODER_UNIT_DESCRIBE. -/
def execMioderUnitDescribe (r : MioReq) (s : State) : Out1 :=
  let (s, go) := s.receive r.assoc r.counter r.phase r.psn r.path r.frame
  .next (if go then s.serveDescribe r else s)

/-! ## The Ensemble table (R23, R25, R26, R34) -/

/-- Slots of the member pool in use: base and number of each Ensemble but one. -/
def State.poolUsed (s : State) (but : Option Nat) : List (Nat × Nat) :=
  (s.ensembles.filter (fun (p : Nat × Ensemble) => p.2.defined && but != some p.1)).map (fun (p : Nat × Ensemble) => (p.2.base.toNat, p.2.members.length))

/-- A run of slots is free. -/
def runFree (used : List (Nat × Nat)) (b n : Nat) : Bool := used.all (fun (x, m) => decide (b + n ≤ x ∨ x + m ≤ b))

/-- The lowest run of n free slots of the pool: it begins at 0 or where a used run ends (R23). -/
def poolBase (used : List (Nat × Nat)) (n : Nat) : Option Nat :=
  let starts := 0 :: used.map (fun (x, m) => x + m)
  let fits := starts.filter (fun b => decide (b + n ≤ 16384) && runFree used b n)
  match fits with
  | [] => none
  | b :: t => some (t.foldl min b)

/-- Leaf Cores of this device that a member covers. -/
def State.leavesOf (s : State) (u : UnitName) : List Nat := (s.expand u).leaves

/-- The members of this device cover disjoint sets of leaf Cores (R25). -/
def State.disjoint (s : State) (ms : List UnitName) : Bool := noRepeats ((ms.map s.leavesOf).flatten)

/-- The local Ensembles reached from one. -/
def State.below (s : State) : Nat → UnitName → List Nat
  | 0, _ => []
  | fuel + 1, u =>
    if !s.isHere u then []
    else match nameRef u with
      | some (.ensemble e) => e :: ((s.ensemble e).members.map (State.below s fuel)).flatten
      | some (.core _) => []
      | some (.troupe _) => []
      | some (.stage _) => []
      | some .device => []
      | none => []

/-- A name is a unit, and no EMPTY local Ensemble: else how a definition with it ends (R34). -/
def State.memberFault (s : State) (u : UnitName) : Option Status :=
  match nameRef u with
  | none => some .badParam
  | some (.ensemble e) => if s.isHere u && !(s.ensemble e).defined then some .gone else none
  | some (.core _) => none
  | some (.troupe _) => none
  | some (.stage _) => none
  | some .device => none

/-- A membership checked (R25, R26, R34): `self` is the Ensemble edited. -/
def State.membersFault (s : State) (self : Option Nat) (added all : List UnitName) : Option Status :=
  if all.isEmpty ∨ 4096 < all.length then some .badParam
  else match firstFail (added.map s.memberFault) with
    | some e => some e
    | none =>
      if !s.disjoint all then some .badParam
      else match self with
        | none => none
        | some e => if (all.map (s.below 4097)).flatten.contains e then some .badParam else none

/-- ENSEMBLE_DEFINE: the entry taken (R34). REPORT_QUEUE stays 0 (DEDUCED: log entry 18), RESET_GEN starts at 0 and the members take the
lowest free run (DESIGN CHOICE: log entry 17). -/
def State.defineEnsemble (s : State) (ms : List UnitName) (tag : BitVec 32) (locked : Bool) : Except Status (Nat × State) :=
  match s.membersFault none ms ms with
  | some e => .error e
  | none =>
    let used := (s.ensembles.filter (fun (p : Nat × Ensemble) => p.2.defined)).map (fun (p : Nat × Ensemble) => p.1)
    match freeEntry used 4096, poolBase (s.poolUsed none) ms.length with
    | some k, some b => .ok (k, s.setEnsemble k { defined := true, members := ms, base := BitVec.ofNat 14 b, tag := tag, locked := locked })
    | _, _ => .error .badParam

/-- The Ensemble is a rank, or lies below a rank, of a collective whose run has not completed (R34). -/
def State.inRun (s : State) (e : Nat) : Bool :=
  s.coll.colls.any (fun (p : Nat × Coll) => p.2.posted && p.2.now.isSome &&
    p.2.ranks.any (fun r => (s.below 4097 (BitVec.ofNat 48 (fld r 47 0))).contains e))

/-- The Ensemble of this device a name names: its index, or how a request on it ends. -/
def State.ensembleNamed (s : State) (u : UnitName) : Except Status Nat :=
  match nameRef u with
  | some (.ensemble e) => if !s.isHere u then .error .badParam else if (s.ensemble e).defined then .ok e else .error .gone
  | some (.core _) => .error .badParam
  | some (.troupe _) => .error .badParam
  | some (.stage _) => .error .badParam
  | some .device => .error .badParam
  | none => .error .badParam

/-- Every name of a list taken out of another once; none where one is missing. -/
def takeOut : List UnitName → List UnitName → Option (List UnitName)
  | [], l => some l
  | u :: t, l => if l.contains u then takeOut t (l.erase u) else none

/-- ENSEMBLE_EDIT: one atomic change (R34); the whole list is placed anew in the lowest free run, its own slots free (DESIGN CHOICE: log
entry 17). -/
def State.editEnsemble (s : State) (u : UnitName) (add remove : List UnitName) : Except Status State :=
  match s.ensembleNamed u with
  | .error e => .error e
  | .ok e =>
    let x := s.ensemble e
    if x.locked then .error .denied
    else if s.inRun e then .error .busy
    else match takeOut remove x.members with
      | none => .error .badParam
      | some l =>
        let ms := l ++ add
        match s.membersFault (some e) add ms with
        | some st => .error st
        | none => match poolBase (s.poolUsed (some e)) ms.length with
          | none => .error .badParam
          | some b => .ok (s.setEnsemble e { x with members := ms, base := BitVec.ofNat 14 b })

/-- What refuses the removal of an Ensemble (R34). -/
def State.ensembleHeld (s : State) (e : Nat) : Bool :=
  s.inRun e || decide (s.parents (s.nameOf (.ensemble e)) ≠ 0) || s.cur.resets.any (fun r => r.ensemble == some e)

/-- ENSEMBLE_DELETE (R34). -/
def State.deleteEnsemble (s : State) (u : UnitName) : Except Status State :=
  match s.ensembleNamed u with
  | .error e => .error e
  | .ok e =>
    if (s.ensemble e).locked then .error .denied
    else if s.ensembleHeld e then .error .busy
    else .ok { s with ensembles := Tab.erase s.ensembles e }

/-! ## Responses and lost associations (R308, R317, R322, R328, R433) -/

/-- What a response to a MSG brings to its sender (R29, R308). -/
def msgTally (st : Status) (gen : BitVec 32) (b : List Byte) : Tally :=
  if b.length = 8 then
    { accepted := ofLe (b.take 4), refused := ofLe (b.drop 4), boundary := st == .badParam, gone := st == .gone, reset := st == .reset, gen := gen }
  else if st = .ok then { accepted := 1, gen := gen }
  else { refused := 1, boundary := st == .badParam, gone := st == .gone, reset := st == .reset, gen := gen }

/-- A part of a request forwarded in several packets is answered; the last part answers the request, with the first status that was not OK
(R309, R322). -/
def State.relayAnswer (s : State) (a : Nat) (id : BitVec 32) (op : BitVec 8) (part : Nat) (st : Status) (gen : BitVec 32) (b : List Byte) : State :=
  match s.mio.relays.find? (fun (x : Relay) => x.assoc == a && x.reqId == id) with
  | none => s.respond a id op st gen b
  | some x =>
    let y : Relay := { x with
      waiting := x.waiting - 1, status := if x.status = .ok then st else x.status, gen := gen, parts := Tab.set x.parts part b }
    let rest := s.mio.relays.filter (fun (z : Relay) => !(z.assoc == a && z.reqId == id))
    if y.waiting = 0 then
      let all : List Byte := (y.parts.map (fun (p : Nat × List Byte) => p.2)).flatten
      ({ s with mio := { s.mio with relays := rest } }).respond a id op y.status gen (if y.status = Status.ok then all else [])
    else { s with mio := { s.mio with relays := rest ++ [y] } }

/-- A write of a checkpoint's content to another device is answered; the last one ends the work, with the first status that was not OK
(R309, R384). -/
def State.restoreAnswer (s : State) (k : Nat) (seq : BitVec 32) (st : Status) : State :=
  let x := s.slot k
  match x.work with
  | .restoring left st0 d =>
    if x.seq ≠ seq ∨ left = 0 then s
    else
      let st1 := if st0 = .ok then st else st0
      let s := s.setSlot k { x with work := .restoring (left - 1) st1 d }
      if left = 1 then s.workEnds k st1 (if st1 = .ok then [.digest d] else []) else s
  | _ => s

/-- The request of a kept packet completes. -/
def State.answerReq (s : State) (r : PendReq) (st : Status) (gen : BitVec 32) (b : List Byte) : State :=
  match r.purpose with
  | .stream c num i => (s.streamAnswer c num i st b).driveXfer c num
  | .send c seq =>
    if r.out.op = 0x05 then s.answerMsg (.localCore c seq) (msgTally st gen b)
    else s.modCore c (fun x => x.modSend seq (fun y => { y.note st with waiting := y.waiting - 1 }))
  | .handle c ep => s.modCore c (fun y => y.modEp ep (fun e => if e.releasing.isSome then { e with answer := some st } else e))
  | .token => s
  | .describe id u => s.describeAnswer id u st b
  | .resetBranch => s
  | .relay a id part =>
    if r.out.op = 0x05 then s.answerMsg (.remote a 0 id 0) (msgTally st gen b) else s.relayAnswer a id r.out.op part st gen b
  | .migGet id off => s.migAnswer id (some off) st b
  | .migPut id => s.migAnswer id none st b
  | .coll k =>
    if st = .ok then (if r.out.op = 0x01 then s.modRun k (fun y => { y with awaited := y.awaited - 1 }) else s)
    else if (s.collOf k).now.isSome && (r.out.op == 0x40 || r.out.op == 0x01) then s.collEnds k st else s
  | .cons n round => s.consAnswer n round st
  | .restore k seq => s.restoreAnswer k seq st
  | .chunk k _ =>
    if st = .ok then s.chunkPiece k r.out.target b
    else if (s.collOf k).now.isSome then s.collEnds k st else s
  | .response => s

/-- The Core whose request a packet carries. -/
def Purpose.core : Purpose → Option Nat
  | .stream c _ _ => some c
  | .send c _ => some c
  | .handle c _ => some c
  | .token => none
  | .describe _ _ => none
  | .resetBranch => none
  | .relay _ _ _ => none
  | .migGet _ _ => none
  | .migPut _ => none
  | .coll _ => none
  | .cons _ _ => none
  | .restore _ _ => none
  | .chunk _ _ => none
  | .response => none

/-- The Core that sent a request has been reset since (R433). -/
def State.forgotten (s : State) (r : PendReq) : Option Nat := r.purpose.core.filter (fun c => (s.core c).resetGen != r.gen)

/-- A response completes its request, or is discarded after a reset of the requester (R308, R433). -/
def State.completeReq (s : State) (k : Nat) (r : PendReq) (st : Status) (gen : BitVec 32) (b : List Byte) : State :=
  match s.forgotten r with
  | some c =>
    let peer : UnitName := BitVec.ofNat 48 ((s.assoc k).peer.toNat * 2 ^ 32 + URef.bits .device)
    s.discardReply c 5 gen.toNat gen.toNat peer
  | none => s.answerReq r st gen b

/-- MIODER_RESPONSE: BUSY to a MSG leaves the request for its retry (R317). -/
def execMioderResponse (x : MioResp) (s : State) : Out1 :=
  let (s, go) := s.receive x.assoc x.counter x.phase x.psn x.path x.frame
  if !go then .next s
  else
    let a := s.assoc x.assoc
    let mine := fun (r : PendReq) => r.reqId == x.reqId && r.out.status.isNone
    match a.reqs.find? mine with
    | none => .next s
    | some r =>
      if r.out.op = 0x05 ∧ x.status = .busy ∧ (s.forgotten r).isNone then
        .next (s.setAssoc x.assoc { a with reqs := a.reqs.map (fun r => if mine r then { r with busyWait := true } else r) })
      else
        let s := s.setAssoc x.assoc { a with reqs := a.reqs.filter (fun r => !mine r) }
        .next ((s.completeReq x.assoc r x.status x.gen x.data).pump x.assoc)

/-- Outstanding requests end with RESET; the parts of one message are one request. -/
def State.endReqs (s : State) : List (BitVec 32) → List PendReq → State
  | _, [] => s
  | seen, r :: t =>
    if r.out.status.isSome ∨ seen.contains r.reqId then State.endReqs s seen t
    else State.endReqs (if (s.forgotten r).isSome then s else s.answerReq r .reset 0 []) (r.reqId :: seen) t

/-- A migration between this device and a peer that is lost is abandoned (R323). -/
def State.migPeerLost (s : State) (dev : BitVec 16) : State :=
  match s.mio.migration with
  | none => s
  | some m =>
    let e : AccEntry := Tab.get {} s.mio.accession m.entry
    if e.targetDev = dev ∨ e.newDev = dev then s.migFail m .reset else s

/-- What the loss of an association does once its entry is changed: its requests, its runs, a migration (R323, R328, R353). -/
def State.assocLost (s : State) (a : Assoc) : State :=
  (((s.endReqs [] a.kept).collsAssocDown a.peer.toNat).migPeerLost a.peer).collsResume

/-- An association goes DOWN (R328). -/
def State.assocDown (s : State) (k : Nat) : State :=
  let a := s.assoc k
  if a.state ≠ .up then s
  else
    let s := (s.setAssoc k { a with state := .down, reqs := [], backlog := [] }).assocLost a
    s.link { event := 0x06, peer := a.peer.toNat, assoc := k, status := .reset }

/-- ASSOC_TIMEOUT. -/
def execAssocTimeout (a : AssocNo) (s : State) : Out1 := .next (s.assocDown a.val)

/-- Associations taken DOWN by a test. -/
def State.assocsDown (s : State) (p : Assoc → Bool) : List Nat → State
  | [] => s
  | k :: t => State.assocsDown (if p (s.assoc k) then s.assocDown k else s) p t

/-- REPLY_DISCARDED: a reply with an old generation arrives; its request completes with RESET and the current generation (R433). -/
def State.replyOld (s : State) (c : Nat) (r : LateReply) : State :=
  let gen := match nameRef r.peer with
    | some u => s.genOf u
    | none => s.cur.deviceGen
  let s := s.discardReply c r.kind.val r.gen.toNat gen.toNat r.peer
  if r.kind.val = 0 then s.answerMsg (.localCore c (BitVec.ofNat 16 r.request)) { refused := 1, reset := true, gen := gen }
  else if r.kind.val = 1 ∨ r.kind.val = 5 then
    match (s.core c).xferAt r.request with
    | none => s
    | some x => (s.modCore c (fun y => y.modXfer x.cue.num (fun x => { x.fail .reset x.base with waiting := [] })))
  else if r.kind.val = 3 then
    s.modCore c (fun y => y.modEp r.request (fun e => if e.releasing.isSome then { e with sent := false, answer := some .reset } else e))
  else if r.kind.val = 4 then s.rootCueEnds c (BitVec.ofNat 32 r.request) .reset
  else s

/-- REPLY_DISCARDED; a reply that carries its unit's current generation is not one. -/
def execReplyDiscarded (c : CoreNo) (r : LateReply) (s : State) : Out1 :=
  let gen := match nameRef r.peer with
    | some u => s.genOf u
    | none => s.cur.deviceGen
  .next (if s.isHere r.peer ∧ gen = r.gen then s else s.replyOld c.val r)

end Sys2Proof.Machine
end

