-- ==== Sys2Proof/Machine/Vault.lean ====
section
/-! DEFINITION. The Vault: channels, groups, rebuild, row repair, page states, epochs and conversion (R208 to R225). State holds the
bytes of memory as plaintext; `State.lineCipher` and `State.codeword` give what R219 and R210 store for them.
Log entry with the readings and choices that are the model's: 37. -/

namespace Sys2Proof.Machine

def pagesPerGroup : Nat := 4194304
/-- First address of a page. -/
def pageAddr (g p : Nat) : Nat := g * 0x4000000000 + p * 0x10000
/-- Stage that owns a group (R208). -/
def stageOfGroup (g : Nat) : Nat := g / 2

/-- Channels in a state. -/
def VGroup.inState (g : VGroup) (st : ChState) : List Nat := (List.range 18).filter (fun k => decide (g.chan k = st))
/-- Pages marked STALE, ascending. -/
def VGroup.stalePages (g : VGroup) : List Nat := (g.pages.filter (fun (_, p) => p.stale)).map (·.1)
/-- A channel given a state. -/
def VGroup.setChan (g : VGroup) (k : Nat) (st : ChState) : VGroup := { g with ch := Tab.set g.ch k st }

/-- A VAULT notice about a group, with the group's state after the event (R225). -/
def State.groupNotice (s : State) (event g channel addr count : Nat) : State :=
  s.vaultNotice event (stageOfGroup g) g channel (s.group g).stateNo addr count

/-! ## Conversion sweep (R221) -/

/-- Every group has completed its sweep: the old slot is cleared, SWEEP_DONE (R221). -/
def State.sweepDone (s : State) : State :=
  if s.vault.sweepActive && (List.range 8).all (fun g => !(s.group g).sweeping) then
    let live : BitVec 2 := if s.sec.vaultEpoch.toNat % 2 = 0 then 1 else 2
    ({ s with vault := { s.vault with sweepActive := false, keyLive := live } }).vaultNotice 0x09 0 0 0x1F 0 0 0
  else s

/-- A sweep started in every group (R221); the sweep of a LOST group is complete at once. -/
def State.sweepStartAll (s : State) : List Nat → State
  | [] => s
  | g :: t => State.sweepStartAll (s.modGroup g (fun x => { x with sweeping := !x.isLost, sweepPos := 0 })) t

/-- PAGE_CONVERTED: the next page of a group's sweep, in ascending order (R221). -/
def execPageConverted (g : Fin 8) (s : State) : Out1 :=
  let x := s.group g.val
  if !x.sweeping || x.marksStale || x.isLost then .next s
  else
    let p := x.sweepPos.toNat
    let pg := x.page p
    let x := { x with pages := Tab.set x.pages p { pg with epochSel := !pg.epochSel }, sweepPos := x.sweepPos + 1,
                      sweeping := decide (p + 1 < pagesPerGroup) }
    .next ((s.setGroup g.val x).sweepDone)

/-! ## Group loss and poison (R213, R218) -/

/-- A group becomes LOST: GROUP_LOST once; its sweep is deemed complete (R213, R215, R221). -/
def State.loseGroup (s : State) (g channel : Nat) : State :=
  if (s.group g).lost then s
  else ((s.modGroup g (fun x => { x with lost := true, sweeping := false })).groupNotice 0x08 g channel 0 0).sweepDone

/-- Three channels out make the group LOST (R213, R215). -/
def State.checkLost (s : State) (g channel : Nat) : State :=
  if 3 ≤ (s.group g).erasedCh.length then s.loseGroup g channel else s

/-- A line enters the poison list, with LINE_LOST; a full list puts the group in LOST (R218). -/
def State.poisonLine (s : State) (l : Nat) : State :=
  let g := groupOf l
  if (s.group g).poison.contains l then s
  else if 4096 ≤ (s.group g).poison.length then s.loseGroup g 0x1F
  else (s.modGroup g (fun x => { x with poison := x.poison ++ [l] })).groupNotice 0x05 g 0x1F l 0

/-- Lines poisoned one after another. -/
def State.poisonLines (s : State) : List Nat → State
  | [] => s
  | l :: t => State.poisonLines (s.poisonLine l) t

/-! ## What the dies store (R210, R219) -/

/-- A tweak times the primitive element of GF(2^128) (IEEE 1619), as a little-endian number. -/
def xtsNext (t : Nat) : Nat := (2 * t % 2 ^ 128) ^^^ (if bitOf t 127 then 0x87 else 0)

/-- XTS over whole blocks with the first key, from a tweak. -/
def xtsBlocks (k : List Byte) : Nat → List (List Byte) → List Byte
  | _, [] => []
  | t, p :: more =>
    let c := ofLe (Config.aes256 k (leBytes 16 (ofLe p ^^^ t)))
    leBytes 16 (c ^^^ t) ++ xtsBlocks k (xtsNext t) more

/-- Key of a Vault page by its EPOCH_SEL (R219, R392). -/
def State.pageKey (s : State) (g p : Nat) : List Byte :=
  vaultKey s.sec.nonce (if ((s.group g).page p).epochSel then s.vault.keyEpoch1 else s.vault.keyEpoch0).toNat

/-- The ciphertext of the line at an address: AES-256 in XTS mode, tweak the address shifted right by 10 bits (R219). -/
def State.lineCipher (s : State) (l : Nat) : List Byte :=
  let k := s.pageKey (groupOf l) (pageOf l)
  xtsBlocks (k.take 32) (ofLe (Config.aes256 (k.drop 32) (leBytes 16 (l / 1024)))) (chunksOf 64 16 (s.bytes (l / 1024 * 1024) 1024))

/-- Codeword `i` of a line by channel: byte `i` of each data channel's share, then the two check symbols (R209, R210). -/
def State.codeword (s : State) (l i : Nat) : List Byte :=
  let d := (List.range 16).map (fun k => nth 0 (s.lineCipher l) (64 * k + i))
  d ++ Config.checkSymbols d

/-! ## Lines (R210 to R214) -/

/-- Codewords corrected (R224). -/
def State.vaultCorrected (s : State) (g k : Nat) : State := s.modGroup g (fun x => { x with corrected := satInc x.corrected k })

/-- Channels in error of codeword `i` beyond the erasures of its line (R210, R214). -/
def wrongIn (erased : List Nat) (l : List (Fin 64 × Fin 18)) (i : Fin 64) : List Nat :=
  without (dedup ((l.filter (fun p => p.1 == i)).map (·.2.val))) erased

/-- What decoding a readable line does (R210, R214): with no erasure each codeword corrects one symbol, and one with more is beyond the
code; with one erasure any further error is; with two nothing further is detected. A line beyond the code is poisoned (R218). -/
def State.vaultDecode (s : State) (l : Nat) (erased : List Nat) (err : VaultErr) : State :=
  let g := groupOf l
  match err with
  | .clean => s
  | .symbols e =>
    let bad := ((List.finRange 64).map (fun i => (wrongIn erased e i).length)).filter (0 < ·)
    if bad.isEmpty then s
    else if erased.isEmpty then
      if bad.all (· == 1) then s.vaultCorrected g bad.length else (s.vaultLostRead g).poisonLine l
    else if erased.length = 1 then (s.vaultLostRead g).poisonLine l
    else s

/-- A read of a line (R214, R218). -/
def State.vaultRead (s : State) (l : Nat) (err : VaultErr) : State :=
  let g := groupOf l
  if s.vaultReadFails l 1024 then s.vaultLostRead g
  else s.vaultDecode l ((s.group g).erasures (pageOf l)) err

/-- VAULT_LINE_ACCESS: a read, or a write of bytes of one line; a partial write reads the line first (R211, R214, R218). -/
def execVaultLineAccess (addr : Nat) (acc : LineAcc) (err : VaultErr) (s : State) : Out1 :=
  if regionOf addr ≠ some .vault then .next s
  else
    let l := addr / 1024 * 1024
    match acc with
    | .read => .next (s.vaultRead l err)
    | .write off data =>
      let b := data.take (1024 - off)
      if (s.group (groupOf l)).isLost then .next s
      else if b.length = 1024 then .next (s.store l b)
      else
        let s := s.vaultRead l err
        if s.vaultReadFails l 1024 then .next s else .next (s.store (l + off) b)

/-! ## Channels (R215) -/

/-- CH_HELD. -/
def execChHeld (g : Fin 8) (ch : Fin 18) (s : State) : Out1 :=
  let x := s.group g.val
  if x.chan ch.val = .active ∨ x.chan ch.val = .rebuilding then
    .next (((s.setGroup g.val (x.setChan ch.val .held)).groupNotice 0x01 g.val ch.val 0 0).checkLost g.val ch.val)
  else .next s

/-- A retraining attempt begins. -/
def VGroup.beginRetrain (x : VGroup) (ch : Nat) : VGroup :=
  { x.setChan ch .retraining with retrainCh := BitVec.ofNat 5 ch, attempts := 0, retrains := satInc x.retrains }

/-- DRIFT_RETRAIN: an ACTIVE channel of a NORMAL group with no rebuild running (R215). -/
def execDriftRetrain (g : Fin 8) (ch : Fin 18) (s : State) : Out1 :=
  let x := s.group g.val
  if x.chan ch.val = .active ∧ x.stateNo = 0 ∧ (x.inState .rebuilding).isEmpty then
    .next (s.setGroup g.val (x.beginRetrain ch.val))
  else .next s

/-- RETRAIN_START: a HELD channel, no other of the group retraining (R215). -/
def execRetrainStart (g : Fin 8) (ch : Fin 18) (s : State) : Out1 :=
  let x := s.group g.val
  if x.chan ch.val = .held ∧ (x.inState .retraining).isEmpty then .next (s.setGroup g.val (x.beginRetrain ch.val))
  else .next s

/-- Training succeeded (R215). -/
def State.retrainOk (s : State) (g ch : Nat) : State :=
  let x := s.group g
  let stale := x.stalePages.length
  let y := { x with retrainCh := 0x1F, attempts := 0, rebuilt := if (x.inState .rebuilding).isEmpty then 0 else x.rebuilt }
  (s.setGroup g (y.setChan ch (if stale = 0 then .active else .rebuilding))).groupNotice 0x02 g ch 0 stale

/-- The third attempt failed: FAILED, recorded (R215, R427). -/
def State.retrainFailed (s : State) (g ch : Nat) : State :=
  let x := s.group g
  let s := s.setGroup g { x.setChan ch .failed with retrainCh := 0x1F, attempts := 0 }
  let (s, _) := s.record catVaultCh (pack [(0, 3, g), (3, 5, ch)]) 0x03
  (s.groupNotice 0x03 g ch 0 0).checkLost g ch

/-- RETRAIN_ATTEMPT_END (R215). -/
def execRetrainAttemptEnd (g : Fin 8) (ok : Bool) (s : State) : Out1 :=
  let x := s.group g.val
  let ch := x.retrainCh.toNat
  if 18 ≤ ch then .next s
  else if ok then .next (s.retrainOk g.val ch)
  else if 2 ≤ x.attempts then .next (s.retrainFailed g.val ch)
  else .next (s.setGroup g.val { x with attempts := x.attempts + 1, retrains := satInc x.retrains })

/-! ## Rebuild and row repair (R216, R217) -/

/-- Channels of a list made ACTIVE. -/
def VGroup.activate (x : VGroup) : List Nat → VGroup
  | [] => x
  | k :: t => VGroup.activate (x.setChan k .active) t

/-- A rebuild runs (R216). -/
def VGroup.rebuildRuns (x : VGroup) : Bool := !(x.inState .rebuilding).isEmpty && !x.marksStale && !x.isLost

/-- The rebuild of a group ends: every REBUILDING channel is ACTIVE, REBUILD_DONE (R215). -/
def State.rebuildDone (s : State) (g : Nat) (y : VGroup) : State :=
  let rb := y.inState .rebuilding
  (s.setGroup g (y.activate rb)).groupNotice 0x04 g (rb.headD 0x1F) 0 y.rebuilt

/-- PAGE_REBUILT: the lowest STALE page; the last one ends the rebuild, as does the lack of one where a zero fill cleared them (R215,
R216, R223). -/
def execPageRebuilt (g : Fin 8) (s : State) : Out1 :=
  let x := s.group g.val
  if !x.rebuildRuns then .next s
  else match x.stalePages with
    | [] => .next (s.rebuildDone g.val x)
    | p :: more =>
      let y := { x with pages := Tab.set x.pages p { x.page p with stale := false }, rebuilt := x.rebuilt + 1 }
      .next (if more.isEmpty then s.rebuildDone g.val y else s.setGroup g.val y)

/-- ROW_REPAIR_START (R217). -/
def execRowRepairStart (g : Fin 8) (ch : Fin 18) (addr : Nat) (repairLeft : Bool) (s : State) : Out1 :=
  if regionOf addr ≠ some .vault ∨ groupOf addr ≠ g.val ∨ (s.group g.val).isLost then .next s
  else
    let x := s.group g.val
    let p := pageOf addr
    let y := { x with pages := Tab.set x.pages p { x.page p with erasedCh := BitVec.ofNat 5 ch.val } }
    if repairLeft then .next (s.setGroup g.val { y with repairing := y.repairing ++ [(p, ch.val)] })
    else
      let s := s.setGroup g.val y
      let (s, _) := s.record catVaultPage (pack [(0, 25, pageAddr g.val p / 65536), (25, 5, ch.val)]) 0x07
      .next (s.groupNotice 0x07 g.val ch.val (pageAddr g.val p) 0)

/-- ROW_REPAIRED: the share of the page is rebuilt as R216 has it, never while a channel is HELD or RETRAINING or the group LOST, and the
repair ends (R217). -/
def execRowRepaired (g : Fin 8) (addr : Nat) (s : State) : Out1 :=
  let x := s.group g.val
  let p := pageOf addr
  if regionOf addr ≠ some .vault ∨ groupOf addr ≠ g.val ∨ x.marksStale ∨ x.isLost then .next s
  else match x.repairing.find? (fun (q, _) => q == p) with
    | none => .next s
    | some (_, ch) =>
      let y := { x with pages := Tab.set x.pages p { x.page p with erasedCh := 0x1F },
                        repairing := x.repairing.erase (p, ch), rowRepairs := satInc x.rowRepairs }
      .next ((s.setGroup g.val y).groupNotice 0x06 g.val ch (addr / 1024 * 1024) 0)

/-- PAGE_STATE_ERROR: the eight pages of a page-state word lose all their lines (R218). -/
def execPageStateError (g : Fin 8) (word : Nat) (s : State) : Out1 :=
  if pagesPerGroup / 8 ≤ word then .next s
  else .next (s.poisonLines ((List.range 512).map (fun i => pageAddr g.val (8 * word) + 1024 * i)))

/-! ## Registers (unit code 0x004, R224) -/

def chCode : ChState → Nat
  | .active => 0 | .held => 1 | .retraining => 2 | .rebuilding => 3 | .failed => 4

/-- Word `off` of a group's registers. -/
def VGroup.reg (x : VGroup) (off : Nat) : Nat :=
  if off = 0x00 then pack [(0, 3, x.stateNo), (3, 1, bit (!(x.inState .rebuilding).isEmpty)), (4, 5, x.retrainCh.toNat),
    (9, 3, x.rebuildShare.toNat), (12, 3, x.sweepShare.toNat)]
  else if off = 0x08 then pack ((List.range 18).map (fun k => (3 * k, 3, chCode (x.chan k))))
  else if off = 0x10 then pack [(0, 32, x.corrected.toNat), (32, 32, x.uncorrectable.toNat)]
  else if off = 0x18 then pack [(0, 23, x.stalePages.length), (32, 13, x.poison.length)]
  else if off = 0x20 then pack [(0, 16, x.retrains.toNat), (16, 16, x.rowRepairs.toNat),
    (32, 23, (x.pages.filter (fun (_, p) => decide (p.erasedCh.toNat < 18))).length)]
  else if off = 0x28 then x.sweepPos.toNat
  else 0

/-- The RC fields after a read. -/
def VGroup.clear (x : VGroup) (off : Nat) : VGroup :=
  if off = 0x10 then { x with corrected := 0, uncorrectable := 0 }
  else if off = 0x20 then { x with retrains := 0 } else x

/-- A share field takes 1 to 4 eighths; other values are ignored (R224). -/
def newShare (old : BitVec 3) (v : Nat) : BitVec 3 := if 1 ≤ v ∧ v ≤ 4 then BitVec.ofNat 3 v else old

/-- A write of a group's word: REBUILD_SHARE and SWEEP_SHARE, never more than four eighths together (R221, R224). -/
def VGroup.write (x : VGroup) (off : Nat) (v : W64) : VGroup :=
  if off = 0x00 then
    let r := newShare x.rebuildShare (fld v 11 9)
    let w := newShare x.sweepShare (fld v 14 12)
    if r.toNat + w.toNat ≤ 4 then { x with rebuildShare := r, sweepShare := w } else x
  else x

/-- The device-wide Vault registers. -/
def Vault.reg (v : Vault) (off : Nat) : Nat :=
  if off = 0x800 then pack [(0, 2, v.keyLive.toNat), (2, 1, bit v.sweepActive), (3, 1, bit v.zeroFilled), (4, 6, v.vaultNq.toNat)]
  else if off = 0x808 then pack [(0, 16, v.chErrLimit.toNat), (16, 16, v.errWindowUs.toNat)]
  else 0

/-- A write of a device-wide word; a write of 0 to a limit is ignored (R224). -/
def Vault.write (v : Vault) (off : Nat) (x : W64) : Vault :=
  if off = 0x800 then { v with vaultNq := BitVec.ofNat 6 (fld x 9 4) }
  else if off = 0x808 then
    { v with chErrLimit := if fld x 15 0 = 0 then v.chErrLimit else BitVec.ofNat 16 (fld x 15 0),
             errWindowUs := if fld x 31 16 = 0 then v.errWindowUs else BitVec.ofNat 16 (fld x 31 16) }
  else v

end Sys2Proof.Machine
end

