-- ==== Sys2Proof/Machine/Sessions.lean ====
section
/-! DEFINITION. The Curator's sessions and result slots (R363 to R375, R400, R415), SECURITY notices, MEAS_GEN and the credential
table (R394 to R396, R403, R417).
Log entries with the readings and choices that are the model's: 54, 58. -/

namespace Sys2Proof.Machine

/-! ## SECURITY notices and the measurement generation (R403, R417) -/

/-- What a SECURITY notice reports. -/
structure SecInfo where
  event : Nat
  status : Status := .ok
  folio : Nat := 0
  entry : Nat := 0
  peer  : Nat := 0
  epoch : Nat := 0
deriving DecidableEq, Repr

/-- A SECURITY notice to queue 0 and the queue SECURITY_NQ names (R417). -/
def State.secNotice (s : State) (i : SecInfo) : State :=
  s.raise [0, s.sec.securityNq.toNat] kSecurity .device i.status 0
    (payload32 [(0, 8, i.event), (8, 5, i.folio), (13, 5, i.entry), (32, 16, i.peer), (64, 64, s.sec.measGen.toNat), (128, 32, i.epoch)])

/-- MEAS_GEN rises by 1 (R403). -/
def State.measure (s : State) : State := { s with sec := { s.sec with measGen := s.sec.measGen + 1 } }

/-! ## Result slots (R372 to R375) -/

def resultSlots : Nat := 1024

/-- Slots that are not FREE. -/
def State.slotsInUse (s : State) : Nat := (s.cur.slots.filter (fun (p : Nat × Slot) => p.2.state != .free)).length

/-- The lowest FREE slot. -/
def State.freeSlot (s : State) : Option Nat :=
  freeEntry ((s.cur.slots.filter (fun (p : Nat × Slot) => p.2.state != .free)).map (fun (p : Nat × Slot) => p.1)) resultSlots

/-- A slot made FREE. -/
def State.dropSlot (s : State) (k : Nat) : State := { s with cur := { s.cur with slots := Tab.erase s.cur.slots k } }

/-- The next value of the sequence counter, which skips 0 (R372). -/
def nextSeq (v : BitVec 32) : BitVec 32 := if v + 1 = 0 then 1 else v + 1

/-- An asynchronous command claims a slot (R372). -/
def State.claim (s : State) (k : Nat) (h : Hdr) (op : Nat) (nq : Option Nat) (w : Work) : State :=
  let q := nextSeq s.cur.slotSeq
  ({ s with cur := { s.cur with slotSeq := q } }).setSlot k {
    state := .pending, session := h.session, seq := q, opcode := BitVec.ofNat 16 op, tag := h.tag, nq := nq, work := w }

/-- The command behind a slot ends: READY with a RESULT notice, or FREE where the slot was abandoned (R372, R374, R375). -/
def State.slotEnds (s : State) (k : Nat) (st : Status) (fs : List Fld) : State :=
  let x := s.slot k
  match x.state with
  | .free => s
  | .ready => s
  | .abandoned => s.dropSlot k
  | .pending =>
    let s := s.setSlot k { x with state := .ready, status := st, fields := fs, work := .none, ended := true }
    match x.nq with
    | none => s
    | some q => s.raise [q] kResult .device st x.tag.toNat
        (payload32 [(0, 10, k), (16, 16, x.opcode.toNat), (32, 32, x.seq.toNat), (64, 32, x.session.toNat)])

/-- RESULT_SLOT_EXPIRE: a slot left READY (R374). -/
def execResultSlotExpire (k : Fin 1024) (s : State) : Out1 :=
  .next (if (s.slot k.val).state = .ready then
    (({ s with cur := { s.cur with slotExpired := satInc s.cur.slotExpired } }).dropSlot k.val)
  else s)

/-- What becomes of the slots of a session that closes (R374). -/
def closeSlots (n : BitVec 32) : Tab Slot → Tab Slot
  | [] => []
  | (k, x) :: t =>
    if x.session ≠ n then (k, x) :: closeSlots n t
    else match x.state with
      | .free => (k, x) :: closeSlots n t
      | .ready => closeSlots n t
      | .pending => (k, { x with state := .abandoned }) :: closeSlots n t
      | .abandoned => (k, x) :: closeSlots n t

/-! ## Sessions (R363 to R366, R400) -/

/-- An open session. -/
def State.session (s : State) (n : BitVec 32) : Option Session := s.cur.sessions.find? (fun x => x.number == n)

/-- A session closes; in confidential host mode the associations it vouched for go DOWN (R366, R374, R415). -/
def State.closeSession (s : State) (n : BitVec 32) : State :=
  if (s.session n).isNone then s
  else
    let s := { s with cur := { s.cur with sessions := s.cur.sessions.filter (fun x => x.number != n), slots := closeSlots n s.cur.slots } }
    if s.sec.hostConf then
      s.assocsDown (fun a => decide (a.conf = some n)) (s.mio.assocs.map (fun (p : Nat × Assoc) => p.1))
    else s

/-- Sessions closed one after another. -/
def State.closeSessions (s : State) : List (BitVec 32) → State
  | [] => s
  | n :: t => State.closeSessions (s.closeSession n) t

/-- SESSION_IDLE_TIMEOUT. -/
def execSessionIdleTimeout (n : BitVec 32) (s : State) : Out1 := .next (s.closeSession n)

/-- SESSION_COUNTER_CLOSE. -/
def execSessionCounterClose (n : BitVec 32) (s : State) : Out1 := .next (s.closeSession n)

/-! ## Credentials (R394 to R396) -/

def credOwner : Nat := 1
def credOperator : Nat := 2
def credObserver : Nat := 3
def credPublisher : Nat := 4
def credBroker : Nat := 5

/-- A credential entry. -/
def State.cred (s : State) (e : Nat) : Cred := Tab.get {} s.sec.creds e

/-- The entry that holds a digest, of the kinds given (R394). -/
def State.credOf (s : State) (digest : List Byte) (kinds : List Nat) : Option (Nat × Cred) :=
  s.sec.creds.find? (fun (p : Nat × Cred) => p.2.kind != 0 && p.2.digest == digest && kinds.contains p.2.kind.toNat)

/-- An OWNER entry exists. -/
def State.owned (s : State) : Bool := s.sec.creds.any (fun (p : Nat × Cred) => p.2.kind == 1)

/-- A credential entry written to flash: MEAS_GEN rises, a notice says so (R396, R403). -/
def State.credWrite (s : State) (e : Nat) (c : Cred) (event : Nat) : State :=
  let creds := if c.kind = 0 then Tab.erase s.sec.creds e else Tab.set s.sec.creds e c
  (({ s with sec := { s.sec with creds := creds } }).measure).secNotice { event := event, entry := e }

/-- CRED_STATUS. -/
def State.credStatus (s : State) (st : Status) : State :=
  { s with sec := { s.sec with credStatus := BitVec.ofNat 16 (statusCode st) } }

/-- A session opened with the OWNER key. -/
def State.ownerSession (s : State) (n : BitVec 32) : Bool := (s.session n).any (fun x => x.role == .owner)

/-- Bytes of a key record (R396). -/
def keyBytes : Nat := 2592

/-- CRED_GO: the entry and the kind of CRED_CTL applied (R396). -/
def State.credApply (s : State) (n : BitVec 32) : State :=
  let e := s.sec.credEntry.toNat
  let kind := s.sec.credKind.toNat
  if !s.ownerSession n then s.credStatus .denied
  else if kind = 1 ∨ 6 ≤ kind then s.credStatus .badParam
  else if kind = 0 then (s.credWrite e {} 0x07).credStatus .ok
  else if regionOf s.sec.credAddr.toNat ≠ some .vault then s.credStatus .badParam
  else match s.readMem .unit s.sec.credAddr.toNat keyBytes with
    | .error st => s.credStatus st
    | .ok key =>
      let d := Config.sha3 key
      if s.sec.creds.any (fun (p : Nat × Cred) => p.1 != e && p.2.kind != 0 && p.2.digest == d) then s.credStatus .badParam
      else (s.credWrite e { kind := BitVec.ofNat 3 kind, digest := d, key := key } 0x07).credStatus .ok

/-- CRED_GO: a write of CRED_CTL with CRED_GO 1 from a session. -/
def State.credGo (s : State) (n : BitVec 32) (v : W64) : State :=
  ({ s with sec := { s.sec with credEntry := BitVec.ofNat 5 (fld v 4 0), credKind := BitVec.ofNat 3 (fld v 7 5) } }).credApply n

/-- OWNER_RELEASE: the table is empty, every session closes (R396). -/
def State.ownerRelease (s : State) (n : BitVec 32) : State :=
  if !s.ownerSession n then s.credStatus .denied
  else
    let s := (({ s with sec := { s.sec with creds := [] } }).measure).credStatus .ok
    (s.closeSessions (s.cur.sessions.map (·.number))).secNotice { event := 0x0A }

end Sys2Proof.Machine
end

