-- ==== Sys2Proof/Machine/Regs.lean ====
section
/-! DEFINITION. The register blocks as a whole: routing, reads, reads that clear, writes and forced writes (R12, R42, R54, R78, R87,
R88, R139, R164, R181, R193, R199, R200, R207, R224, R263, R295, R303, R330, R357, R378, R388, R418, R421, R443, R444, R465).
Log entry with the readings and choices that are the model's: 53. -/

namespace Sys2Proof.Machine

/-! ## Routing (R199, R200, R421, R432) -/

/-- A register block (R199). -/
inductive Block where
  | curator | ports | mioder | security | vault
  | stage (st : Nat) | troupe (t : Nat) | core (c : Nat) | cons (n : Nat) | engine (t : Nat)
deriving DecidableEq, Repr

/-- The block of a unit code; none where it is not listed or its index is out of range (R199). -/
def unitBlock (u : Nat) : Option Block :=
  if u = 0 then some .curator else if u = 1 then some .ports else if u = 2 then some .mioder else if u = 3 then some .security
  else if u = 4 then some .vault
  else if 0x100 ≤ u ∧ u < 0x104 then some (.stage (u - 0x100))
  else if 0x200 ≤ u ∧ u < 0x220 then some (.troupe (u - 0x200))
  else if 0x400 ≤ u ∧ u < 0x600 then some (.core (u - 0x400))
  else if 0x800 ≤ u ∧ u < 0x840 then some (.cons (u - 0x800))
  else if 0x900 ≤ u ∧ u < 0x920 then some (.engine (u - 0x900))
  else none

/-- The Stage whose door a block lies behind, if any (R432). -/
def Block.door : Block → Option Nat
  | .curator => none | .ports => none | .mioder => none | .security => none | .vault => none | .stage _ => none
  | .troupe t => some (stageOfTroupe t) | .core c => some (stageOfCore c) | .cons n => some (stageOfCons n)
  | .engine t => some (stageOfTroupe t)

/-- A block is behind a closed door, or dark, at an offset (R41, R431, R432); identity and the registers the door itself holds are answered.
A Core both dark and under reset answers DARK (DESIGN CHOICE: log entry 33). -/
def State.blockStatus (s : State) (b : Block) (off : Nat) : Option Status :=
  match b with
  | .core c =>
    if off = 0 then none
    else if (s.core c).dark then some .dark
    else if (s.core c).inReset then some .reset else none
  | .troupe t => if (s.troupe t).inReset ∧ 0x020 < off then some .reset else none
  | .engine t => if (s.troupe t).inReset then some .reset else none
  | .cons n => if (s.con n).inReset then some .reset else none
  | .curator => none | .ports => none | .mioder => none | .security => none | .vault => none | .stage _ => none

/-- The block and offset a register access reaches, or how it ends (R199, R200, R421). -/
def State.regRoute (s : State) (a : Nat) : Except Status (Block × Nat) :=
  if a < regBase ∨ regEnd ≤ a ∨ a % 8 ≠ 0 then .error .badParam
  else
    let u := (a - regBase) / 0x1000000
    let off := (a - regBase) % 0x1000000
    match unitBlock u with
    | none => .error .badParam
    | some b =>
      if 0x100 ≤ u ∧ s.cur.phase ≠ .ready then .error .notReady
      else match s.blockStatus b off with
        | some e => .error e
        | none => .ok (b, off)

/-- A register access that a Stage door answered with RESET is counted (R444). -/
def State.regCount (s : State) (a : Nat) (e : Status) : State :=
  if e ≠ .reset then s
  else match (unitBlock ((a - regBase) / 0x1000000)).bind Block.door with
    | none => s
    | some st => s.doorCount st

/-- The Core whose takeover holds an access to a register at its door (R428): its own block but for CORE_ID. -/
def State.regHeld (s : State) (a : Nat) : Option Nat :=
  if regBase ≤ a ∧ a < regEnd ∧ a % 0x1000000 ≠ 0 then
    match unitBlock ((a - regBase) / 0x1000000) with
    | some (.core c) => if s.holding c then some c else none
    | _ => none
  else none

/-! ## Reading -/

/-- A number from 0 to `n` − 1 whose place in an array of `k`-byte items starts at `base`, with the offset in the item. -/
def regItem (off base k n : Nat) : Option (Nat × Nat) :=
  if base ≤ off ∧ off < base + k * n then some ((off - base) / k, (off - base) % k) else none

/-- Bits of the indexes below `n` that satisfy a test. -/
def bitsWhere (n : Nat) (p : Nat → Bool) : Nat := ((List.range n).map (fun k => if p k then 2 ^ k else 0)).foldl (· + ·) 0

/-- Codes of a bring-up phase (R443). -/
def phaseCode : BPhase → Nat
  | .curator => 1 | .clocks => 2 | .network => 3 | .memory => 4 | .links => 5 | .compute => 6 | .ready => 7 | .failed => 8

def updateCode : UpdateState → Nat
  | .none => 0 | .staged => 1 | .activating => 2

/-- A 32-bit field of the Calibration page (R461). -/
def calField (page : List Byte) (at_ n : Nat) : Nat := ofLe ((page.drop at_).take n)

/-- The Curator's words (R193, R388, R443, R465). -/
def State.curatorWord (s : State) (off : Nat) : Nat :=
  let c := s.cur
  if off = 0x000 then pack [(0, 7, c.sessions.length), (7, 11, s.slotsInUse), (18, 1, bit c.rehearsal)]
  else if off = 0x008 then pack [(0, 32, c.cmdDrops.toNat), (32, 32, c.slotExpired.toNat)]
  else if off = 0x010 then s.mod.powerCapW.toNat
  else if 0x018 ≤ off ∧ off < 0x038 then
    let x := s.stage ((off - 0x018) / 8)
    pack [(0, 10, x.railMin.toNat), (10, 10, x.railMax.toNat)]
  else if off = 0x100 then pack [(0, 4, phaseCode c.phase), (4, 4, c.failPhase.toNat), (8, 16, c.failStatus.toNat),
    (24, 1, bit c.catRejected), (25, 1, bit c.catFull)]
  else if off = 0x108 then pack [(0, 32, c.deviceGen.toNat), (32, 32, s.flash.coldStarts.toNat)]
  else if off = 0x110 then pack [(0, 1, bit s.flash.bank), (1, 2, updateCode c.updateState), (3, 8, c.cores.toNat), (11, 1, bit c.deviceInReset)]
  else if off = 0x118 then pack [(0, 16, c.takeovers.toNat), (16, 16, c.coresDarkened.toNat),
    (32, 13, if s.flash.runtimeValid then s.flash.runtimeCat.length else 0)]
  else if 0x120 ≤ off ∧ off < 0x150 then (Tab.get 0 c.phaseEnd ((off - 0x120) / 8)).toNat
  else if off = 0x300 then pack [(0, 6, s.mod.slotId.toNat), (6, 1, bit s.mod.calValid), (7, 1, bit s.mod.bladeFault),
    (8, 6, s.mod.senseFallback.toNat), (14, 16, s.mod.sensorOpen.toNat), (32, 32, s.flash.thermalTrips.toNat)]
  else if off = 0x308 then pack [(0, 8, s.flash.lastOffCause.toNat), (32, 32, calField s.flash.calPage 8 4)]
  else match regItem off 0x10000 0x40 64 with
    | some (q, o) => (s.nq q).reg o
    | none => 0

/-- A port's words (R303). -/
def Port.word (p : Port) (off : Nat) : Nat :=
  if off = 0x00 then pack [(0, 2, p.mode.toNat), (2, 2, p.media.toNat), (4, 1, bit p.anEn), (5, 1, bit p.pfcEn), (6, 3, p.pfcPrio.toNat),
    (9, 6, p.dscp.toNat), (15, 1, bit p.vlanEn), (16, 12, p.vlanId.toNat)]
  else if off = 0x08 then pack [(0, 8, p.linkUp.toNat), (8, 8, p.laneBad.toNat), (16, 8, p.laneInv.toNat), (24, 24, p.laneOrder.toNat)]
  else if off = 0x10 then pack [(0, 32, p.fecCorrected.toNat), (32, 32, p.fecUncorrectable.toNat)]
  else if off = 0x18 then p.txFrames.toNat
  else if off = 0x20 then p.rxFrames.toNat
  else if off = 0x28 then p.macBase.toNat
  else if off = 0x30 then pack [(0, 16, p.linkDowns.toNat), (16, 32, p.pfcPauses.toNat)]
  else 0

/-- RC fields of a port's word after a read. -/
def Port.clear (p : Port) (off : Nat) : Port :=
  if off = 0x10 then { p with fecCorrected := 0, fecUncorrectable := 0 }
  else if off = 0x18 then { p with txFrames := 0 }
  else if off = 0x20 then { p with rxFrames := 0 }
  else if off = 0x30 then { p with linkDowns := 0, pfcPauses := 0 }
  else p

def assocNo : AssocState → Nat
  | .free => 0 | .opening => 1 | .up => 2 | .down => 3

/-- An association entry (R325). -/
def Assoc.pack (a : Assoc) : Nat :=
  Sys2Proof.Machine.pack [(0, 16, a.peer.toNat), (16, 14, a.peerAssoc.toNat), (32, 2, assocNo a.state), (34, 1, bit a.mtu1k), (35, 1, bit a.txPhase),
    (36, 1, bit a.rxOldValid), (37, 1, bit a.rekeying), (40, 7, a.paths.length), (48, 16, a.keyClass.toNat), (64, 64, a.txCounter.toNat),
    (128, 64, a.rxTop.toNat), (192, 32, a.txPsn.toNat), (224, 32, a.rxCum.toNat), (256, 32, a.srtt.toNat), (288, 32, a.retx.toNat)]

def accNo : AccState → Nat
  | .empty => 0 | .live => 1 | .migrating => 2

/-- An Accession entry (R320). -/
def AccEntry.pack (e : AccEntry) : Nat :=
  Sys2Proof.Machine.pack [(0, 48, e.base.toNat), (48, 6, e.sizeLog.toNat), (54, 2, accNo e.state), (64, 16, e.targetDev.toNat),
    (80, 48, e.targetAddr.toNat), (128, 4, e.permLocal.toNat), (132, 4, e.permRemote.toNat), (136, 16, e.assocKey.toNat),
    (160, 16, e.newDev.toNat), (176, 48, e.newAddr.toNat)]

/-- Word `o` / 8 of a packed entry. -/
def wordAt (v o : Nat) : Nat := v / 2 ^ (8 * o) % 2 ^ 64

def Coll.stateNo (k : Coll) : Nat := if !k.posted then 0 else if k.now.isSome then 2 else 1

def mapPhaseNo : Phase → Nat
  | .forward => 0 | .backward => 1 | .update => 2

/-- The words of the Mioder engines and collectives (R330, R357). -/
def State.mioderWord (s : State) (off : Nat) : Nat :=
  let m := s.mio
  if off = 0x000 then pack [(0, 16, m.deviceNumber.toNat), (16, 1, bit m.devSet), (32, 16, m.udpPort.toNat)]
  else if off = 0x008 then pack [(0, 6, m.linkNq.toNat), (6, 1, bit m.ecnEn)]
  else if off = 0x010 then pack [(0, 16, m.targetQueueNs.toNat), (16, 8, m.rtoMinUs.toNat), (24, 8, m.reorderUs.toNat),
    (32, 16, m.assocTimeoutMs.toNat), (48, 16, m.probeUs.toNat)]
  else if off = 0x018 then pack [(0, 32, m.retransmits.toNat), (32, 16, m.authFails.toNat), (48, 16, m.replayDrops.toNat)]
  else if off = 0x020 then pack [(0, 32, m.ecnMarks.toNat), (32, 16, m.pathRetires.toNat), (48, 16, m.landingBusy.toNat)]
  else if off = 0x028 then pack [(0, 15, (m.assocs.filter (fun (p : Nat × Assoc) => p.2.state == .up)).length),
    (32, 16, (m.accession.filter (fun (p : Nat × AccEntry) => p.2.state != .empty)).length), (48, 1, bit m.migration.isSome)]
  else if off = 0x030 then match m.migration with
    | none => 0
    | some g => pack [(0, 32, g.dirty.length), (32, 4, g.pass)]
  else if off = 0x100 then pack [(0, 9, (s.coll.colls.filter (fun (p : Nat × Coll) => p.2.posted)).length),
    (9, 9, (s.coll.colls.filter (fun (p : Nat × Coll) => p.2.now.isSome)).length)]
  else if off = 0x108 then pack [(0, 32, s.coll.runs.toNat), (32, 16, s.coll.fails.toNat), (48, 16, s.coll.timeouts.toNat)]
  else if off = 0x110 then pack [(0, 32, s.coll.gnsBeta.toNat), (32, 6, s.coll.gnsNq.toNat), (48, 16, s.coll.gnsDropped.toNat)]
  else match regItem off 0x200 0x10 16 with
    | some (k, o) =>
      let x := s.mapping k
      if o = 0 then pack [(0, 2, mapPhaseNo x.phase), (2, 1, bit x.valid), (3, 1, bit (x.transition || x.stopped))] else x.keepUsed.toNat
    | none =>
      match regItem off 0x1000 0x10 256 with
      | some (k, o) =>
        let x := s.collOf k
        if o = 0 then pack [(0, 32, if x.posted then x.id else 0), (32, 2, x.stateNo), (34, 1, bit x.kept)]
        else pack [(0, 32, x.run.toNat), (32, 16, x.lastStatus.toNat)]
      | none =>
        match regItem off 0x100000 0x40 16384 with
        | some (k, o) => wordAt (s.assoc k).pack o
        | none =>
          match regItem off 0x200000 0x20 32768 with
          | some (k, o) => wordAt (Tab.get {} m.accession k : AccEntry).pack o
          | none => 0

/-- The words of the security block (R418). -/
def State.securityWord (s : State) (off : Nat) : Nat :=
  let x := s.sec
  if off = 0x000 then x.measGen.toNat
  else if off = 0x008 then pack [(0, 32, x.secVersion.toNat), (32, 1, bit s.owned), (33, 1, bit x.hostConf), (34, 1, bit s.confined),
    (35, 6, x.securityNq.toNat)]
  else if off = 0x010 then pack [(0, 32, x.vaultEpoch.toNat), (32, 6, x.folios.length),
    (38, 6, (x.folios.filter (fun (p : Nat × Folio) => p.2.state != .registered)).length)]
  else if off = 0x018 then pack [(0, 16, x.keyDenials.toNat), (16, 16, x.handshakeFails.toNat), (32, 16, x.attestBusy.toNat)]
  else if off = 0x020 then x.credAddr.toNat
  else if off = 0x028 then pack [(0, 5, x.credEntry.toNat), (5, 3, x.credKind.toNat), (16, 16, x.credStatus.toNat)]
  else match regItem off 0x100 8 32 with
    | some (e, _) => (s.cred e).kind.toNat
    | none =>
      match regItem off 0x200 0x40 32 with
      | some (e, o) => ofLe (((s.cred e).digest.drop o).take 8)
      | none => 0

/-- The words of the Vault controllers (R224). -/
def State.vaultWord (s : State) (off : Nat) : Nat :=
  match regItem off 0 0x100 8 with
  | some (g, o) => (s.group g).reg o
  | none => s.vault.reg off

/-- The words of a Stage (R88, R207, R444). -/
def State.stageWord (s : State) (st off : Nat) : Nat :=
  let x := s.stage st
  if off = 0x080 then pack [(0, 4, x.rampSteps.toNat), (4, 5, x.jump.toNat), (32, 16, x.fillCap.toNat)]
  else if off = 0x200 then bitsWhere 64 (fun k => (s.core (128 * st + k)).inReset)
  else if off = 0x208 then bitsWhere 64 (fun k => (s.core (128 * st + 64 + k)).inReset)
  else if off = 0x210 then pack [(0, 8, bitsWhere 8 (fun k => (s.troupe (8 * st + k)).inReset)), (8, 1, bit x.inReset), (9, 1, bit x.wiping),
    (10, 1, bit ((List.range 128).any (fun k => s.holding (128 * st + k))))]
  else if off = 0x218 then x.resetGen.toNat
  else if off = 0x220 then pack [(0, 32, x.doorAnswers.toNat), (32, 32, x.discarded.toNat)]
  else match regItem off 0x100 0x20 2 with
    | some (d, o) => (s.die (2 * st + d)).reg o
    | none => 0

/-- A map byte (R42). -/
def State.mapByte (s : State) (t k : Nat) : Nat :=
  let x := s.troupe t
  pack [(0, 5, (Tab.get 0x1F x.mapSlot k).toNat), (6, 1, bit (bitOf x.takenOver.toNat k)), (7, 1, bit (s.core (16 * t + k)).dark)]

/-- A stochastic request is rounded to nearest even (R53, R78). -/
def Troupe.fallback (x : Troupe) : Bool := !x.entropyOk && !x.fixedSeed

/-- The words of a Troupe (R42, R78). -/
def State.troupeWord (s : State) (t off : Nat) : Nat :=
  let x := s.troupe t
  if off = 0x000 then pack [(0, 5, t), (5, 2, t / 8), (7, 3, t % 8)]
  else if off = 0x008 then pack ((List.range 8).map (fun k => (8 * k, 8, s.mapByte t k)))
  else if off = 0x010 then pack ((List.range 8).map (fun k => (8 * k, 8, s.mapByte t (8 + k))))
  else if off = 0x018 then pack [(0, 5, x.slotA.toNat), (5, 1, bit x.presentA), (6, 1, bit x.engagedA), (8, 4, x.servingA.toNat),
    (16, 5, x.slotB.toNat), (21, 1, bit x.presentB), (22, 1, bit x.engagedB), (24, 4, x.servingB.toNat), (32, 2, x.free), (40, 18, x.badMask.toNat)]
  else if off = 0x020 then x.resetGen.toNat
  else if off = 0x040 then pack [(0, 32, x.checkRetries.toNat), (32, 8, x.suspects.toNat), (40, 4, x.lastSuspect.toNat)]
  else if off = 0x048 then pack [(0, 1, bit x.entropyOk), (1, 1, bit x.fallback), (16, 16, x.healthFails.toNat)]
  else if off = 0x050 then bit x.fixedSeed
  else if off = 0x058 then x.seed.toNat
  else 0

def pstateNo : PState → Nat
  | .idle => 0 | .running => 1 | .hold => 2 | .halted => 3 | .stopped => 4 | .suspect => 5 | .reset => 6 | .other v => v.toNat

def holdNo : HoldReason → Nat
  | .none => 0 | .wait => 1 | .operand => 2 | .dest => 3 | .unit => 4 | .ramp => 5 | .scene => 6 | .sync => 7 | .msg => 8
  | .other v => v.toNat

def tileStateNo : TileState → Nat
  | .free => 0 | .filling => 1 | .resident => 2

/-- A tile descriptor (R84). -/
def Tile.pack (t : Tile) : Nat :=
  Sys2Proof.Machine.pack [(0, 13, t.frame.toNat), (16, 15, t.side.toNat), (31, 1, bit t.sideValid), (32, 6, t.rowsM1.toNat), (38, 6, t.colsM1.toNat),
    (44, 2, tileStateNo t.state), (64, 32, t.version.toNat), (96, 32, t.tag.toNat)]

/-- A ring's register (R87). -/
def Ring.pack (r : Ring) : Nat :=
  Sys2Proof.Machine.pack [(0, 13, r.base.toNat), (16, 4, r.size.toNat), (20, 1, bit r.enable), (32, 16, r.head.toNat), (48, 16, r.tail.toNat)]

/-- A dimension's word (R87). -/
def AgDim.pack (d : AgDim) : Nat := Sys2Proof.Machine.pack [(0, 16, d.count.toNat), (16, 16, d.idx.toNat), (32, 32, d.stride.toNat)]

def Gen.dim (g : Gen) (d : Nat) : AgDim := if d = 0 then g.d0 else if d = 1 then g.d1 else if d = 2 then g.d2 else g.d3

/-- A generator's word: the base, then its dimensions (R87). -/
def Gen.word (g : Gen) (o : Nat) : Nat :=
  if o = 0 then pack [(0, 32, g.base.toNat), (32, 1, bit g.byteMode)]
  else if o < 0x28 then (g.dim (o / 8 - 1)).pack else 0

/-- The low part of a Core's words (R87). -/
def State.prompterWord (s : State) (c off : Nat) : Nat :=
  let x := s.core c
  let p := x.p
  if off = 0x008 then pack [(0, 1, bit p.run), (1, 1, bit p.singleStep), (16, 14, p.entry.toNat)]
  else if off = 0x010 then pack [(0, 14, p.cp.toNat), (16, 4, pstateNo p.state), (20, 4, holdNo p.hold), (24, 16, p.haltCode.toNat),
    (40, 4, stopCode p.stop)]
  else if off = 0x018 then pack [(0, 16, p.sceneId.toNat), (16, 14, p.sceneCp.toNat), (30, 1, bit x.pending.isSome), (32, 32, p.scenes.toNat)]
  else if off = 0x020 then p.pflags.toNat
  else if off = 0x028 then p.vl.toNat
  else if off = 0x030 then pack [(0, 16, p.fillHold.toNat), (32, 16, p.fillBudget.toNat)]
  else if off = 0x038 then pack [(0, 5, x.arrA.level.toNat), (8, 5, x.arrB.level.toNat), (16, 16, p.fillUsed.toNat), (32, 32, p.rampHolds.toNat)]
  else if off = 0x040 then pack [(0, 4, x.msg.compl.length), (4, 5, x.msg.sends.length + x.msg.phantoms), (16, 11, x.logUsed)]
  else match regItem off 0x080 8 4 with
    | some (ch, _) => (x.ring ch).pack
    | none =>
      match regItem off 0x100 8 32 with
      | some (k, _) => (x.loop k).toNat
      | none =>
        match regItem off 0x200 8 4 with
        | some (m, _) => pack ((List.range 16).map (fun n => (4 * n, 4, x.token (16 * m + n))))
        | none =>
          match regItem off 0x400 0x40 16 with
          | some (g, o) => (x.gen g).word o
          | none => 0

def slotNo : SlotState → Nat
  | .empty => 0 | .busy => 1 | .valid => 2 | .failed => 3

/-- The words of the arrays, the taps and the tables (R139), and of the vector engine (R164). -/
def Core.unitWord (x : Core) (off : Nat) : Nat :=
  if off = 0x800 then x.arrA.word0
  else if off = 0x808 then x.arrB.word0
  else if off = 0x810 then x.arrA.productSteps.toNat
  else if off = 0x820 then x.arrB.productSteps.toNat
  else if off = 0x818 then pack [(0, 32, x.arrA.pacedSteps.toNat), (32, 32, x.arrA.tapHoldSteps.toNat)]
  else if off = 0x828 then pack [(0, 32, x.arrB.pacedSteps.toNat), (32, 32, x.arrB.tapHoldSteps.toNat)]
  else if off = 0x840 then x.arrA.tap.word0
  else if off = 0x850 then x.arrB.tap.word0
  else if off = 0x848 then x.arrA.tap.word1
  else if off = 0x858 then x.arrB.tap.word1
  else if off = 0x880 then pack ((List.range 32).map (fun k => (2 * k, 2, slotNo (x.tslot k).state)))
  else if off = 0x888 then x.formulaForce.toNat
  else if off = 0x890 then pack [(0, 16, x.tableFails.toNat), (16, 5, x.lastFailed.toNat), (32, 32, x.formulaOps.toNat)]
  else if off = 0x900 then pack [(0, 1, bit (!x.vec.jobs.isEmpty)), (8, 8, ((x.vec.jobs.head?.map (fun j => fld j.word 31 24)).getD 0)),
    (16, 3, x.vec.jobs.length - 1)]
  else if off = 0x908 then x.vec.elements.toNat
  else if off = 0x910 then x.vec.wingsBound.toNat
  else match regItem off 0x940 8 8 with
    | some (m, _) => ofLe ((List.range 8).map (fun k => Tab.get 0 x.vec.idx (8 * m + k)))
    | none =>
      match regItem off 0x980 8 16 with
      | some (m, _) => pack [(0, 32, (Tab.get 0 x.vec.freq (2 * m)).toNat), (32, 32, (Tab.get 0 x.vec.freq (2 * m + 1)).toNat)]
      | none => 0

def hqStateNo : HqState → Nat
  | .off => 0 | .live => 1 | .broken => 2

/-- An endpoint's words (R181). -/
def Core.epWord (x : Core) (h o : Nat) : Nat :=
  let e := x.ep h
  if o = 0x00 then pack [(0, 2, hqStateNo e.state), (2, 1, bit e.enable), (3, 3, e.priority.toNat), (6, 7, e.outstanding.toNat),
    (13, 1, bit e.arriveEn), (14, 6, e.arriveToken.toNat), (20, 4, e.nextHq.toNat)]
  else if o = 0x08 then e.next.toNat
  else if o = 0x10 then pack [(0, 7, e.waiting.length), (8, 7, e.held.length), (16, 7, x.inFlight h), (32, 16, e.lastStatus.toNat)]
  else 0

/-- The words of the stream engine, and the count of corrected Wings errors (R181, R201). -/
def Core.streamWord (x : Core) (off : Nat) : Nat :=
  if off = 0x1C10 then pack [(0, 16, x.str.rearmRejects.toNat), (16, 16, x.str.streamErrors.toNat), (32, 7, x.str.xfers.length)]
  else if off = 0x1C18 then pack [(0, 32, bitsWhere 32 (fun d => x.str.shadowBusy.contains d)),
    (32, 32, bitsWhere 32 (fun d => x.str.xfers.any (fun y => y.desc == d)))]
  else if off = 0x1C20 then x.wingsCorrected.toNat
  else if off = 0x1C28 then x.str.injectEp.toNat
  else match regItem off 0xA00 0x40 32 with
    | some (d, o) => wordAt (Tab.get 0 x.str.descs d : BitVec 512).toNat o
    | none =>
      match regItem off 0x1200 0x40 32 with
      | some (d, o) => wordAt (Tab.get 0 x.str.shadows d : BitVec 512).toNat o
      | none =>
        match regItem off 0x1A00 0x20 16 with
        | some (h, o) => x.epWord h o
        | none => 0

/-- The words of a Core (R42, R87, R139, R164, R181). -/
def State.coreWord (s : State) (c off : Nat) : Nat :=
  let x := s.core c
  if off = 0x000 then pack [(0, 9, c), (9, 10, x.phys.toNat), (19, 1, bit x.onUnderstudy), (20, 4, s.unitState (.core c))]
  else if off < 0x800 then s.prompterWord c off
  else if off < 0xA00 then x.unitWord off
  else if off < 0x10000 then x.streamWord off
  else match regItem off 0x10000 16 1024 with
    | some (i, o) => wordAt (x.tile i).pack o
    | none =>
      match regItem off 0x20000 0x2000 32 with
      | some (k, o) => if o < 4160 then ((x.tslot k).word (o / 8)).toNat else 0
      | none =>
        match regItem off 0x100000 16 16384 with
        | some (j, o) => wordAt (Tab.get 0 x.p.cues j : W128).toNat o
        | none => 0

/-- A word of a block; an offset no table defines reads as zero (R200). -/
def State.regWord (s : State) (b : Block) (off : Nat) : Nat :=
  match b with
  | .curator => s.curatorWord off
  | .ports => match regItem off 0 0x100 4 with
    | some (p, o) => (s.port p).word o
    | none => 0
  | .mioder => s.mioderWord off
  | .security => s.securityWord off
  | .vault => s.vaultWord off
  | .stage st => s.stageWord st off
  | .troupe t => s.troupeWord t off
  | .core c => s.coreWord c off
  | .cons n => s.consReg n off
  | .engine t => (s.engine t).reg off

/-! ## Reads that clear (R12) -/

/-- RC fields of a word of a Core after a read (R87, R139, R164, R181, R201). -/
def Core.clear (x : Core) (off : Nat) : Core :=
  if off = 0x038 then { x with p := { x.p with rampHolds := 0 } }
  else if off = 0x810 then { x with arrA := { x.arrA with productSteps := 0 } }
  else if off = 0x820 then { x with arrB := { x.arrB with productSteps := 0 } }
  else if off = 0x818 then { x with arrA := { x.arrA with pacedSteps := 0, tapHoldSteps := 0 } }
  else if off = 0x828 then { x with arrB := { x.arrB with pacedSteps := 0, tapHoldSteps := 0 } }
  else if off = 0x840 then { x with arrA := { x.arrA with tap := { x.arrA.tap with runs := 0, adds := 0 } } }
  else if off = 0x850 then { x with arrB := { x.arrB with tap := { x.arrB.tap with runs := 0, adds := 0 } } }
  else if off = 0x890 then { x with tableFails := 0, formulaOps := 0 }
  else if off = 0x908 then { x with vec := { x.vec with elements := 0 } }
  else if off = 0x910 then { x with vec := { x.vec with wingsBound := 0 } }
  else if off = 0x1C10 then { x with str := { x.str with rearmRejects := 0, streamErrors := 0 } }
  else if off = 0x1C20 then { x with wingsCorrected := 0 }
  else x

/-- RC fields of a Troupe's word after a read (R78). -/
def Troupe.clear (x : Troupe) (off : Nat) : Troupe :=
  if off = 0x040 then { x with checkRetries := 0 } else if off = 0x048 then { x with healthFails := 0 } else x

/-- RC fields of the Curator's words after a read (R193, R388, R443). -/
def State.curatorClear (s : State) (off : Nat) : State :=
  if off = 0x008 then { s with cur := { s.cur with cmdDrops := 0, slotExpired := 0 } }
  else if off = 0x118 then { s with cur := { s.cur with takeovers := 0, coresDarkened := 0 } }
  else match regItem off 0x10000 0x40 64 with
    | some (q, o) => if o = 0x20 then s.modNq q (fun n => n.clear o) else s
    | none => s

/-- RC fields of the Mioder engines' words after a read (R330, R357). -/
def State.mioderClear (s : State) (off : Nat) : State :=
  if off = 0x018 then { s with mio := { s.mio with retransmits := 0, authFails := 0, replayDrops := 0 } }
  else if off = 0x020 then { s with mio := { s.mio with ecnMarks := 0, pathRetires := 0, landingBusy := 0 } }
  else if off = 0x108 then { s with coll := { s.coll with runs := 0, fails := 0, timeouts := 0 } }
  else if off = 0x110 then { s with coll := { s.coll with gnsDropped := 0 } }
  else s

/-- RC fields of a Stage's words after a read (R207, R444). -/
def State.stageClear (s : State) (st off : Nat) : State :=
  if off = 0x220 then s.modStage st (fun x => { x with doorAnswers := 0, discarded := 0 })
  else match regItem off 0x100 0x20 2 with
    | some (d, o) => if o = 0 then s.modDie (2 * st + d) (fun x => x.clear o) else s
    | none => s

/-- The state after a read of a word (R12). -/
def State.regClear (s : State) (b : Block) (off : Nat) : State :=
  match b with
  | .curator => s.curatorClear off
  | .ports => match regItem off 0 0x100 4 with
    | some (p, o) => s.modPort p (fun x => x.clear o)
    | none => s
  | .mioder => s.mioderClear off
  | .security => if off = 0x018 then { s with sec := { s.sec with keyDenials := 0, handshakeFails := 0, attestBusy := 0 } } else s
  | .vault => match regItem off 0 0x100 8 with
    | some (g, o) => s.modGroup g (fun x => x.clear o)
    | none => s
  | .stage st => s.stageClear st off
  | .troupe t => s.modTroupe t (fun x => x.clear off)
  | .core c => s.modCore c (fun x => x.clear off)
  | .cons n => s.modCon n (fun x => x.clear off)
  | .engine t => s.modEngine t (fun x => x.clear off)

/-- A register read: its value and the state after it, or how it ends with the door's count (R12, R199, R200). -/
def State.regRead (s : State) (a : Nat) : Except (Status × State) (W64 × State) :=
  match s.regRoute a with
  | .error e => .error (e, s.regCount a e)
  | .ok (b, off) => .ok (BitVec.ofNat 64 (s.regWord b off), s.regClear b off)

/-! ## Writing (R12, R87, R181) -/

/-- SINGLE_STEP and ENTRY, then RUN (R87). -/
def Core.runWord (x : Core) (rehearsal : Bool) (v : W64) : Core :=
  let x := x.modP (fun p => { p with singleStep := rehearsal && fld v 1 1 == 1, entry := BitVec.ofNat 14 (fld v 29 16) })
  if fld v 0 0 = 1 then x.runStart else x.runStop

/-- A ring's RW fields (R87). -/
def Ring.write (r : Ring) (v : W64) : Ring :=
  let size := fld v 19 16
  let r' := { r with enable := fld v 20 20 == 1 }
  if r.enable then r'
  else { r' with base := BitVec.ofNat 13 (fld v 12 0), size := if 6 ≤ size ∧ size ≤ 14 then BitVec.ofNat 4 size else r.size }

/-- An endpoint's first word (R179, R181). -/
def Endpoint.write0 (e : Endpoint) (v : W64) : Endpoint :=
  let out := fld v 12 6
  let e' := { e with priority := BitVec.ofNat 3 (fld v 5 3), outstanding := if 1 ≤ out ∧ out ≤ 64 then BitVec.ofNat 7 out else e.outstanding }
  let e' := match e.state with
    | .live => e'
    | .off => { e' with arriveEn := fld v 13 13 == 1, arriveToken := BitVec.ofNat 6 (fld v 19 14), nextHq := BitVec.ofNat 4 (fld v 23 20) }
    | .broken => { e' with arriveEn := fld v 13 13 == 1, arriveToken := BitVec.ofNat 6 (fld v 19 14), nextHq := BitVec.ofNat 4 (fld v 23 20) }
  e'.setEnable (fld v 2 2 == 1)

/-- An endpoint's second word: NEXT, ignored in LIVE (R181). -/
def Endpoint.write1 (e : Endpoint) (v : W64) : Endpoint := if e.state = .live then e else { e with next := BitVec.ofNat 48 (fld v 47 0) }

/-- A write to a Core's word (R87, R127, R139, R181); RO and RC fields are not written. -/
def State.coreStore (s : State) (c off : Nat) (v : W64) : State :=
  let x := s.core c
  if off = 0x008 then s.setCore c (x.runWord s.cur.rehearsal v)
  else if off = 0x020 then s.setCore c (x.modP (fun p => { p with pflags := p.pflags &&& ~~~ v.setWidth 16 }))
  else if off = 0x030 then
    s.setCore c (x.modP (fun p => { p with
      fillHold := v.setWidth 16, fillBudget := BitVec.ofNat 16 (min (fld v 47 32) (s.stage (stageOfCore c)).fillCap.toNat) }))
  else if off = 0x888 then s.setCore c { x with formulaForce := v.setWidth 8 }
  else if off = 0x1C00 then s.setCore c { x with str := { x.str with injectLo := v } }
  else if off = 0x1C08 then s.inject c v
  else if off = 0x1C28 then s.setCore c { x with str := { x.str with injectEp := v.setWidth 4 } }
  else match regItem off 0x080 8 4 with
    | some (ch, _) => s.setCore c (x.modRing ch (fun r => r.write v))
    | none =>
      match regItem off 0x1A00 0x20 16 with
      | some (h, o) =>
        if o = 0x00 then (s.setCore c (x.modEp h (fun e => e.write0 v))).strPump c
        else if o = 0x08 then s.setCore c (x.modEp h (fun e => e.write1 v)) else s
      | none =>
        match regItem off 0x20000 0x2000 32 with
        | some (k, o) => s.setCore c (x.slotWrite k o v)
        | none => s

/-- A write to a Troupe's word: FIXED_SEED and SEED in Rehearsal mode (R54, R78). -/
def State.troupeStore (s : State) (t off : Nat) (v : W64) : State :=
  if !s.cur.rehearsal then s
  else if off = 0x050 then s.modTroupe t (fun x => { x with fixedSeed := fld v 0 0 == 1 })
  else if off = 0x058 then s.modTroupe t (fun x => { x with seed := v })
  else s

/-- Every association is FREE (R330). -/
def State.noAssoc (s : State) : Bool := s.mio.assocs.all (fun (p : Nat × Assoc) => p.2.state == .free)

/-- A field whose value 0 is ignored (R330). -/
def orOld {n : Nat} (old : BitVec n) (v : Nat) : BitVec n := if v = 0 then old else BitVec.ofNat n v

/-- A write to a Mioder word (R330, R357). -/
def State.mioderStore (s : State) (off : Nat) (v : W64) : State :=
  let m := s.mio
  if off = 0x000 then { s with mio := { m with udpPort := if s.noAssoc then BitVec.ofNat 16 (fld v 47 32) else m.udpPort } }
  else if off = 0x008 then { s with mio := { m with linkNq := BitVec.ofNat 6 (fld v 5 0), ecnEn := fld v 6 6 == 1 } }
  else if off = 0x010 then { s with
    mio := { m with
    targetQueueNs := BitVec.ofNat 16 (fld v 15 0)
    rtoMinUs := orOld m.rtoMinUs (fld v 23 16)
    reorderUs := orOld m.reorderUs (fld v 31 24)
    assocTimeoutMs := orOld m.assocTimeoutMs (fld v 47 32)
    probeUs := orOld m.probeUs (fld v 63 48) } }
  else if off = 0x110 then { s with coll := { s.coll with gnsBeta := v.setWidth 32, gnsNq := BitVec.ofNat 6 (fld v 37 32) } }
  else s

/-- CRED_CTL: the entry and kind, then CRED_GO or OWNER_RELEASE for the session that writes; a write that comes by no session is
DENIED (R396, R418). -/
def State.credCtl (s : State) (who : Option (BitVec 32)) (v : W64) : State :=
  let s' := { s with sec := { s.sec with credEntry := BitVec.ofNat 5 (fld v 4 0), credKind := BitVec.ofNat 3 (fld v 7 5) } }
  if fld v 9 8 = 0 then s'
  else match who with
    | none => s'.credStatus .denied
    | some n =>
      let s' := if fld v 8 8 = 1 then s.credGo n v else s'
      if fld v 9 9 = 1 then s'.ownerRelease n else s'

/-- A write to a security word (R418). -/
def State.securityStore (s : State) (who : Option (BitVec 32)) (off : Nat) (v : W64) : State :=
  if off = 0x008 then { s with sec := { s.sec with securityNq := BitVec.ofNat 6 (fld v 40 35) } }
  else if off = 0x020 then { s with sec := { s.sec with credAddr := v.setWidth 48 } }
  else if off = 0x028 then s.credCtl who v
  else s

/-- A write to a word of a block (R12, R200). -/
def State.regStore (s : State) (who : Option (BitVec 32)) (b : Block) (off : Nat) (v : W64) : State :=
  match b with
  | .curator => match regItem off 0x10000 0x40 64 with
    | some (q, o) => s.nqRegWrite q o v
    | none => s
  | .ports => s
  | .mioder => s.mioderStore off v
  | .security => s.securityStore who off v
  | .vault => match regItem off 0 0x100 8 with
    | some (g, o) => if o = 0 then s.modGroup g (fun x => x.write o v) else s
    | none => { s with vault := s.vault.write off v }
  | .stage _ => s
  | .troupe t => s.troupeStore t off v
  | .core c => s.coreStore c off v
  | .cons n => s.modCon n (fun x => x.write off v)
  | .engine t => s.modEngine t (fun x => x.write off v)

/-- A register write, or how it ends with the door's count. -/
def State.regWriteTo (s : State) (who : Option (BitVec 32)) (a : Nat) (v : W64) : Except (Status × State) State :=
  match s.regRoute a with
  | .error e => .error (e, s.regCount a e)
  | .ok (b, off) => .ok (s.regStore who b off v)

/-- REGISTER_WRITE: a write as the register operation of a unit reaches it. -/
def execRegisterWrite (a : BitVec 48) (v : W64) (s : State) : Out1 :=
  match s.regHeld a.toNat with
  | some c => .next (s.hold c (.registerWrite a v))
  | none =>
    match s.regWriteTo none a.toNat v with
    | .ok s => .next s
    | .error (_, s) => .next s

/-- REGISTER_READ_CLEAR: a read; its value leaves with the reply of the operation that asked. -/
def execRegisterReadClear (a : BitVec 48) (s : State) : Out1 :=
  match s.regHeld a.toNat with
  | some c => .next (s.hold c (.registerReadClear a))
  | none =>
    match s.regRead a.toNat with
    | .ok (_, s) => .next s
    | .error (_, s) => .next s

/-- CRED_GO. -/
def execCredGo (n : BitVec 32) (v : W64) (s : State) : Out1 := .next (if fld v 8 8 = 1 then s.credGo n v else s)

/-- OWNER_RELEASE. -/
def execOwnerRelease (n : BitVec 32) (s : State) : Out1 := .next (s.ownerRelease n)

/-! ## Forced writes (R78, R87, R378) -/

/-- PSTATE from its code (R87). -/
def pstateOf (v : Nat) : PState :=
  if v = 0 then .idle else if v = 1 then .running else if v = 2 then .hold else if v = 3 then .halted else if v = 4 then .stopped
  else if v = 5 then .suspect else if v = 6 then .reset else .other (BitVec.ofNat 4 v)

/-- HOLD_REASON from its code (R96). -/
def holdOf (v : Nat) : HoldReason :=
  if v = 0 then .none else if v = 1 then .wait else if v = 2 then .operand else if v = 3 then .dest else if v = 4 then .unit
  else if v = 5 then .ramp else if v = 6 then .scene else if v = 7 then .sync else if v = 8 then .msg else .other (BitVec.ofNat 4 v)

/-- STOP_CAUSE from its code (R99). -/
def stopOf (v : Nat) : StopCause :=
  if v = 0 then .none else if v = 1 then .tokenOvf else if v = 2 then .format else if v = 3 then .range else if v = 4 then .side
  else if v = 5 then .accum else if v = 6 then .cueEnd else if v = 7 then .sameTile else if v = 8 then .tileLive
  else .other (BitVec.ofNat 4 v)

def tileStateOf (old : TileState) (v : Nat) : TileState :=
  if v = 0 then .free else if v = 1 then .filling else if v = 2 then .resident else old

/-- A tile's two words (R84); the reserved fields of the tag read as zero (R13, R63), and STATE keeps its value where the reserved code is
written. -/
def Tile.force (t : Tile) (o : Nat) (v : W64) : Tile :=
  if o = 0 then { t with
    frame := BitVec.ofNat 13 (fld v 12 0), side := BitVec.ofNat 15 (fld v 30 16), sideValid := fld v 31 31 == 1
    rowsM1 := BitVec.ofNat 6 (fld v 37 32), colsM1 := BitVec.ofNat 6 (fld v 43 38), state := tileStateOf t.state (fld v 45 44) }
  else { t with version := BitVec.ofNat 32 (fld v 31 0), tag := BitVec.ofNat 32 (fld v 63 32) &&& 0x00071FFF }

/-- A generator's words (R87). -/
def Gen.force (g : Gen) (o : Nat) (v : W64) : Gen :=
  if o = 0 then { g with base := v.setWidth 32, byteMode := fld v 32 32 == 1 }
  else if o < 0x28 then
    g.setDim (o / 8 - 1) { count := BitVec.ofNat 16 (fld v 15 0), idx := BitVec.ofNat 16 (fld v 31 16), stride := BitVec.ofNat 32 (fld v 63 32) }
  else g

/-- The messages a ring holds, read from the granules between head and tail (R378): a header's length, its payload, as far as the
granules go. -/
def State.reparse (s : State) (c : Nat) (r : Ring) (ch : Nat) : Nat → Nat → Nat → List MsgReq
  | 0, _, _ => []
  | n + 1, at_, left =>
    if left = 0 then [] else
    let h := s.bytes (ringAddr c r at_) 64
    let g := min left (1 + ceilDiv (8 * (fld (BitVec.ofNat 128 (ofLe (h.take 16))) 56 48 + 1)) 64)
    { src := .localCore c 0, channel := ch, rtoken := none, bytes := s.ringRead c r at_ g } :: State.reparse s c r ch n (at_ + g) (left - g)

/-- RX_HEAD and RX_TAIL forced: the granules between them are the ring's contents; messages outside are lost (R378). -/
def State.forceRing (s : State) (c ch : Nat) (v : W64) : State :=
  let r := ((s.core c).ring ch).write v
  let r := { r with head := BitVec.ofNat 16 (fld v 47 32), tail := BitVec.ofNat 16 (fld v 63 48) }
  let left := min r.used r.granules
  s.modCore c (fun x =>
    { x with
      msg := { x.msg with
      granted := Tab.erase x.msg.granted ch
      rings := Tab.set x.msg.rings ch { r with msgs := s.reparse c r ch left r.head.toNat left } } })

/-- Completion records as many as forced: the oldest are kept, empty ones fill up. -/
def padCompl (n : Nat) (l : List ComplRec) : List ComplRec :=
  l.take n ++ List.replicate (n - l.length) { status := .ok, seq := 0, refused := 0, accepted := 0, destGen := 0 }

/-- Log items of so many granules, oldest first; what is wanting is filled with words that say nothing. -/
def cutLog : Nat → List LogItem → List LogItem
  | n, [] => if n = 0 then [] else [.words (List.replicate (8 * n) 0)]
  | n, i :: t => if i.granules ≤ n then i :: cutLog (n - i.granules) t else [.words (List.replicate (8 * n) 0)]

/-- SENDS_OUT forced: the oldest sends stay, what is wanting is counted without a send (R378). -/
def MsgPort.forceSends (m : MsgPort) (n : Nat) : MsgPort := { m with sends := m.sends.take n, phantoms := n - m.sends.length }

/-- COMMIT_PENDING forced (R378, R102). -/
def Core.forcePending (x : Core) (v : Bool) : Core :=
  if !v then { x with pending := none } else if x.pending.isSome then x else x.latch x.p.sceneId.toNat

/-- A forced write to one of the registers of R87. -/
def State.coreForce (s : State) (c off : Nat) (v : W64) : State :=
  let x := s.core c
  if off = 0x010 then s.setCore c (x.modP (fun p => { p with
    cp := v.setWidth 14, pastEnd := false, state := pstateOf (fld v 19 16), hold := holdOf (fld v 23 20)
    haltCode := BitVec.ofNat 16 (fld v 39 24), stop := stopOf (fld v 43 40) }))
  else if off = 0x018 then s.setCore c ((x.modP (fun p => { p with
    sceneId := v.setWidth 16, sceneCp := BitVec.ofNat 14 (fld v 29 16), scenes := BitVec.ofNat 32 (fld v 63 32) })).forcePending (fld v 30 30 == 1))
  else if off = 0x028 then s.setCore c (x.modP (fun p => { p with vl := v }))
  else if off = 0x038 then
    let x := x.modP (fun p => { p with fillUsed := BitVec.ofNat 16 (fld v 31 16), rampHolds := BitVec.ofNat 32 (fld v 63 32) })
    s.setCore c { x with
      arrA := { x.arrA with level := BitVec.ofNat 5 (fld v 4 0) }, arrB := { x.arrB with level := BitVec.ofNat 5 (fld v 12 8) } }
  else if off = 0x040 then
    s.setCore c { x with
      msg := { x.msg with compl := padCompl (fld v 3 0) x.msg.compl }.forceSends (fld v 8 4)
      log := cutLog (fld v 26 16) x.log }
  else match regItem off 0x080 8 4 with
    | some (ch, _) => s.forceRing c ch v
    | none =>
      match regItem off 0x100 8 32 with
      | some (k, _) => s.setCore c (x.setLoop k (v.setWidth 32))
      | none =>
        match regItem off 0x200 8 4 with
        | some (m, _) => s.setCore c ((List.range 16).foldl (fun y n => y.setToken (16 * m + n) (fld v (4 * n + 3) (4 * n))) x)
        | none =>
          match regItem off 0x400 0x40 16 with
          | some (g, o) => s.setCore c (x.setGen g ((x.gen g).force o v))
          | none =>
            match regItem off 0x10000 16 1024 with
            | some (i, o) => s.setCore c (x.modTile i (fun t => t.force o v))
            | none =>
              match regItem off 0x100000 16 16384 with
              | some (j, o) =>
                let old := (Tab.get 0 x.p.cues j : W128).toNat
                let new := BitVec.ofNat 128 (if o = 0 then setBits old 63 0 v.toNat else setBits old 127 64 v.toNat)
                s.setCore c (x.modP (fun p => { p with cues := if new = 0 then Tab.erase p.cues j else Tab.set p.cues j new }))
              | none => s.coreStore c off v

/-- A forced write to one of the registers of R78: a forced ENTROPY_OK is a verdict of the tests (R53). -/
def State.troupeForce (s : State) (t off : Nat) (v : W64) : State :=
  if off = 0x040 then s.modTroupe t (fun x => { x with
    checkRetries := v.setWidth 32, suspects := BitVec.ofNat 8 (fld v 39 32), lastSuspect := BitVec.ofNat 4 (fld v 43 40) })
  else if off = 0x048 then
    let s := s.modTroupe t (fun x => { x with healthFails := BitVec.ofNat 16 (fld v 31 16) })
    if fld v 0 0 = 1 then s.entropyPasses t true else s.entropyFails t true
  else s.troupeStore t off v

/-- A forced write; on any other address it acts as a write (R378). -/
def State.regForceTo (s : State) (who : BitVec 32) (a : Nat) (v : W64) : Except (Status × State) State :=
  match s.regRoute a with
  | .error e => .error (e, s.regCount a e)
  | .ok (b, off) => .ok (match b with
    | .core c => if 0x008 < off then s.coreForce c off v else s.regStore (some who) b off v
    | .troupe t => s.troupeForce t off v
    | .curator => s.regStore (some who) b off v | .ports => s.regStore (some who) b off v
    | .mioder => s.regStore (some who) b off v | .security => s.regStore (some who) b off v
    | .vault => s.regStore (some who) b off v | .stage _ => s.regStore (some who) b off v
    | .cons _ => s.regStore (some who) b off v | .engine _ => s.regStore (some who) b off v)

/-! ## Register operations of the fabric (R308, R412) -/

/-- A register operation served here: its status and data (R12, R200, R308). -/
def State.serveReg (s : State) (op : Nat) (r : MioReq) (a : Nat) : Status × List Byte × State :=
  if op = 0x09 then
    match s.regRead a with
    | .ok (v, s) => (.ok, leBytes 8 v.toNat, s)
    | .error (e, s) => (e, [], s)
  else if r.data.length ≠ 8 then (.badParam, [], s)
  else match s.regWriteTo none a (BitVec.ofNat 64 (ofLe r.data)) with
    | .ok s => (.ok, [], s)
    | .error (e, s) => (e, [], s)

/-- Generation of the unit whose block an address lies in (R308). -/
def State.regGen (s : State) (a : Nat) : BitVec 32 :=
  match unitBlock ((a - regBase) / 0x1000000) with
  | some (.core c) => (s.core c).resetGen
  | some (.troupe t) => (s.troupe t).resetGen
  | some (.engine t) => (s.troupe t).resetGen
  | some (.stage st) => (s.stage st).resetGen
  | some (.cons n) => (s.stage (stageOfCons n)).resetGen
  | _ => s.cur.deviceGen

/-- Permission of a register operation (R321). -/
def regNeed (op : Nat) : Nat := if op = 0x09 then permRead else permWrite

/-- A register request performed and answered, or forwarded to the device that holds its target; a confined device refuses a
host's REG_READ (R308, R321, R322, R412). -/
def State.serveRegister (s : State) (op : Nat) (r : MioReq) : State :=
  if mioBad r op then s.reply r op .badParam s.cur.deviceGen []
  else if op = 0x09 ∧ (s.assoc r.assoc).hostPeer ∧ s.confined then s.reply r op .denied s.cur.deviceGen []
  else match s.mioPlace r (regNeed op) 8 with
    | .here a =>
      let (st, b, s) := s.serveReg op r a
      s.reply r op st (s.regGen a) b
    | .refused e => s.reply r op e s.cur.deviceGen []
    | .wait => s
    | .far k _ t =>
      s.request k {
        op := BitVec.ofNat 8 op, target := t, fwd := true, gen := r.gen, length := r.length, data := r.data } (.relay r.assoc r.reqId 0)

/-- A register request arrives: held by a migration or at a Core's door, queued while the Curator restarts, else received and served
(R323, R428, R441). -/
def State.mioRegister (s : State) (op : Nat) (r : MioReq) (i : Instr) : State :=
  match s.mioPlace r (regNeed op) 8 with
  | .wait => s.migHold { op := BitVec.ofNat 8 op, req := r }
  | p =>
    let a := match p with
      | .here a => a
      | _ => 0
    if s.activating ∧ regBase ≤ a ∧ a < regBase + 0x1000000 then { s with cur := { s.cur with fwQueue := s.cur.fwQueue ++ [i] } }
    else match s.regHeld a with
    | some c => s.hold c i
    | none =>
      let (s, go) := s.receive r.assoc r.counter r.phase r.psn r.path r.frame
      if go then s.serveRegister op r else s

/-- MIODER_REG_READ. -/
def execMioderRegRead (r : MioReq) (s : State) : Out1 := .next (s.mioRegister 0x09 r (.mioderRegRead r))

/-- MIODER_REG_WRITE. -/
def execMioderRegWrite (r : MioReq) (s : State) : Out1 := .next (s.mioRegister 0x0A r (.mioderRegWrite r))

end Sys2Proof.Machine
end

