-- ==== Sys2Proof/Machine/Commands.lean ====
section
/-! DEFINITION. How the Curator takes a command packet: sessions, roles, phases, repeats, replies and asynchronous commands
(R359 to R377, R421, R428, R441).
Log entries with the readings and choices that are the model's: 52, 54. -/

namespace Sys2Proof.Machine

/-! ## Roles and phases of the opcodes (R365, R376, R421) -/

/-- Who may issue an opcode. -/
inductive Need where
  | none | observer | operator
deriving DecidableEq, Repr

/-- Opcodes that need no session (R363). -/
def openOps : List Nat := [0x0100, 0x0500, 0x0501]

/-- Opcodes that any session may issue (R376). -/
def observerOps : List Nat :=
  [0x0101, 0x0108, 0x0204, 0x0300, 0x0310, 0x0413, 0x0423, 0x0502, 0x0701, 0x0702, 0x0710, 0x0711, 0x0802, 0x0901, 0x0910, 0x0A00, 0x0F11]

/-- Role an opcode needs (R376). -/
def opNeed (op : Nat) : Need := if openOps.contains op then .none else if observerOps.contains op then .observer else .operator

/-- Opcodes accepted from the end of CURATOR, and of MEMORY (R421). -/
def curatorOps : List Nat := [0x0100, 0x0500, 0x0501, 0x0502, 0x0710, 0x0711, 0x0901, 0x0910, 0x0A00, 0x0A01, 0x0F10, 0x0F11]
def memoryOps : List Nat :=
  [0x0300, 0x0301, 0x0302, 0x0310, 0x0311, 0x0700, 0x0701, 0x0702, 0x0703, 0x0704, 0x0920, 0x0921, 0x0520, 0x0800, 0x0801, 0x0802]
/-- Opcodes accepted from the end of LINKS: groups 0x04xx and 0x06xx and three more. -/
def linksOp (op : Nat) : Bool := decide (op / 256 = 0x04 ∨ op / 256 = 0x06) || [0x0510, 0x0530, 0x0803].contains op

/-- The phase that must have ended before an opcode is accepted. -/
def opPhase (op : Nat) : Nat := if curatorOps.contains op then 1 else if memoryOps.contains op then 4 else if linksOp op then 5 else 6

/-- A phase has ended (R420, R422). -/
def State.phaseEnded (s : State) (k : Nat) : Bool :=
  match s.cur.phase with
  | .failed => decide (k < s.cur.failPhase.toNat)
  | p => decide (k < phaseCode p)

/-! ## Replies (R361, R362, R368, R369) -/

/-- What a command answers; a SESSION_OPEN that opens a session names it (R398). -/
structure Ans where
  status   : Status := .ok
  async    : Bool := false
  repeated : Bool := false
  fields   : List Fld := []
  session  : Option (BitVec 32) := none
deriving DecidableEq, Repr

/-- Bytes of a field's value (R362). -/
def Fld.size : Fld → Nat
  | .unit _ => 6 | .index _ => 4 | .value _ => 8 | .data b => b.length | .count _ => 4 | .digest b => b.length | .bytes _ => 8
  | .status _ => 2 | .result _ _ => 6

/-- Packets of a reply (R361). -/
def packetsOf (fs : List Fld) : Nat := max 1 (ceilDiv ((fs.map (fun f => 4 + roundUp f.size 4)).foldl (· + ·) 0) 1392)

/-- A session changed, by its number. -/
def State.modSession (s : State) (n : BitVec 32) (f : Session → Session) : State :=
  { s with cur := { s.cur with sessions := s.cur.sessions.map (fun x => if x.number = n then f x else x) } }

/-- A reply leaves by the interface its request came by; each of its packets takes a value of the session's counter (R359, R364). -/
def State.sendReply (s : State) (lane : Lane) (r : Reply) : State :=
  let r := { r with updatePending := decide (s.cur.updateState ≠ UpdateState.none) }
  let s := { s with out := s.out ++ [Out.reply lane r] }
  s.modSession r.session (fun x => { x with txCounter := x.txCounter + BitVec.ofNat 64 (packetsOf r.fields) })

/-- The reply of a command. -/
def Ans.reply (a : Ans) (h : Hdr) (op : Nat) : Reply :=
  {
    opcode := BitVec.ofNat 16 op, tag := h.tag, session := a.session.getD h.session, status := a.status, async := a.async, repeated := a.repeated,
    fields := a.fields }

/-- The last 64 of a list. -/
def last64 {α : Type} (l : List α) : List α := l.drop (l.length - 64)

/-- A request and its reply kept by the session (R369). -/
def State.keepReply (s : State) (n : BitVec 32) (k : Kept) : State := s.modSession n (fun x => { x with kept := last64 (x.kept ++ [k]) })

/-! ## Taking a request (R363, R365, R367 to R369, R421, R428, R441) -/

/-- The Curator runs and answers (R420, R422, R445). -/
def State.curatorUp (s : State) : Bool := decide (s.mod.power = Power.on) && s.phaseEnded 1

/-- Place in `heldSessions` of requests kept through a firmware activation. -/
def fwDoor : Nat := 512

/-- A session has a request waiting at a door, or released and not yet begun (R368, R428). -/
def State.waitsAt (s : State) (n : BitVec 32) : Option Nat :=
  if n = 0 then none else (s.heldSessions.find? (fun p => p.2 == n)).map (·.1)

/-- A request waits: at a Core's door, or until the new firmware serves it; a repeat of one that waits is dropped (R369). -/
def State.waitAt (s : State) (c : Nat) (n : BitVec 32) (i : Instr) : State :=
  if s.held.any (fun p => p.2 == i) || s.cur.fwQueue.contains i || s.released.contains i then s
  else
    let s := { s with heldSessions := s.heldSessions ++ [(c, n)] }
    if c = fwDoor then (if s.activating then { s with cur := { s.cur with fwQueue := s.cur.fwQueue ++ [i] } }
      else { s with released := s.released ++ [i] })
    else if s.holding c then s.hold c i else { s with released := s.released ++ [i] }

/-- A command is carried out and answered; the reply is kept (R367 to R369). -/
def State.perform (s : State) (h : Hdr) (key : Instr) (op : Nat) (act : State → State × Ans) : State :=
  let (s, a) := act s
  let r := a.reply h op
  (s.sendReply h.lane r).keepReply h.session { req := key, reply := r }

/-- A reply that is given without being kept. -/
def State.refuse (s : State) (h : Hdr) (op : Nat) (st : Status) : State := s.sendReply h.lane (({ status := st } : Ans).reply h op)

/-- Role and phase: how a request that may not run is answered (R365, R367, R421). -/
def State.barred (s : State) (role : Option Role) (op : Nat) : Option Status :=
  if role = some .observer ∧ opNeed op = .operator then some .denied
  else if !s.phaseEnded (opPhase op) then some .notReady
  else none

/-- The tests of R367 from the session on: NO_SESSION, a repeat, a tag reused, the role, the phase, then the command itself; a request
that a takeover's door must hold, and those of its session after it, wait there. -/
def State.serve (s : State) (h : Hdr) (mk : Hdr → Instr) (op : Nat) (door : State → Option Nat) (act : State → State × Ans) : State :=
  let key := mk { h with lane := .main }
  if h.session = 0 then
    if opNeed op ≠ .none then s.refuse h op .noSession
    else match s.barred none op with
      | some st => s.refuse h op st
      | none => s.perform h key op act
  else match s.session h.session with
    | none => s.refuse h op .noSession
    | some x =>
      match x.kept.find? (fun k => k.reply.tag == h.tag) with
      | some k =>
        if k.req = key then s.sendReply h.lane { k.reply with repeated := true } else s.refuse h op .badParam
      | none =>
        match s.waitsAt h.session with
        | some c => s.waitAt c h.session (mk h)
        | none =>
          match s.barred (some x.role) op with
          | some st => s.perform h key op (fun s => (s, { status := st }))
          | none =>
            match door s with
            | some c => s.waitAt c h.session (mk h)
            | none => s.perform h key op act

/-- The Curator listens to an interface: to the management lane once it runs, to the main ports once LINKS has ended (R421). -/
def State.hears (s : State) (l : Lane) : Bool := s.curatorUp && (l != .main || s.phaseEnded 5)

/-- A request arrives: nothing answers while the Curator is down; until LINKS ends only the management lane is heard; while firmware is
activated it queues (R421, R441). -/
def State.arriveCmd (s : State) (h : Hdr) (i : Instr) (go : State → State) : State :=
  if !s.hears h.lane then s
  else if s.activating then s.waitAt fwDoor h.session i
  else go s

/-- A command that no door holds. -/
def State.command (s : State) (h : Hdr) (mk : Hdr → Instr) (op : Nat) (act : State → State × Ans) : State :=
  s.arriveCmd h (mk h) (fun s => s.serve h mk op (fun _ => none) act)

/-- A command that the door of a Core under takeover may hold. -/
def State.doorCommand (s : State) (h : Hdr) (mk : Hdr → Instr) (op : Nat) (door : State → Option Nat) (act : State → State × Ans) : State :=
  s.arriveCmd h (mk h) (fun s => s.serve h mk op door act)

/-! ## Ways to answer -/

/-- OK with fields, or a refusal. -/
def answer {α : Type} (s : State) (r : Except Status α) (ok : α → State × List Fld) : State × Ans :=
  match r with
  | .error e => (s, { status := e })
  | .ok x =>
    let (s, fs) := ok x
    (s, { fields := fs })

/-- A new state without fields, or a refusal. -/
def answerState (s : State) (r : Except Status State) : State × Ans := answer s r (fun s => (s, []))

/-- A status, with the state it leaves. -/
def refused (s : State) (st : Status) : State × Ans := (s, { status := st })

/-- An asynchronous command: a bad NQ, no free slot, else its own refusal, or a claimed slot with work; the reply names the slot
(R368, R372, R376). -/
def State.async (s : State) (h : Hdr) (op : Nat) (nq : Option QueueNo) (go : State → Nat → Except Status (State × Work × List Fld)) :
    State × Ans :=
  if nq.any (fun q => decide (q.val < 4)) then refused s .badParam
  else match s.freeSlot with
    | none => refused s .busy
    | some k => match go s k with
      | .error e => refused s e
      | .ok (s, w, fs) =>
        let s := s.claim k h op (nq.map (·.val)) w
        (s, { async := true, fields := .result (BitVec.ofNat 16 k) (s.slot k).seq :: fs })

/-! ## Packets that fail the early checks (R361, R364, R367) -/

/-- CMD_DROPS rises. -/
def State.cmdDrop (s : State) : State := { s with cur := { s.cur with cmdDrops := satInc s.cur.cmdDrops } }

/-- Test 3 of R367: SESSION is 0 and the opcode needs a session, or it names none that is open. -/
def State.noSeat (s : State) (h : Hdr) (op : Nat) : Bool := if h.session = 0 then opNeed op != .none else (s.session h.session).isNone

/-- COMMAND_PACKET_REJECTED: test 3 comes before the trailer's; a packet that the named test does not fail changes nothing. -/
def execCommandPacketRejected (h : Hdr) (op : BitVec 16) (why : PacketDefect) (s : State) : Out1 :=
  let mk := fun h => Instr.commandPacketRejected h op why
  .next (s.arriveCmd h (mk h) (fun s => match why with
    | .short => s.cmdDrop
    | .magic => s.cmdDrop
    | .trailer => if s.noSeat h op.toNat then s.refuse h op.toNat .noSession else if h.session = 0 then s else s.cmdDrop
    | .version => { s with out := s.out ++ [Out.versionReply h.lane h.tag] }
    | .noSession => if s.noSeat h op.toNat then s.refuse h op.toNat .noSession else s
    | .reservedOpcode =>
      if s.noSeat h op.toNat then s.refuse h op.toNat .noSession
      else match ((s.session h.session).map (·.kept)).getD [] |>.find? (fun k => k.reply.tag == h.tag) with
        | some k => if k.req = mk { h with lane := .main } then s.sendReply h.lane { k.reply with repeated := true } else s.refuse h op.toNat .badParam
        | none => s.perform h (mk { h with lane := .main }) op.toNat (fun s => refused s .badParam)
    | .parameters => s.serve h mk op.toNat (fun _ => none) (fun s => refused s .badParam)))

/-- CMD_FRAGMENT_TIMEOUT of a request that came where the Curator listens. -/
def execCmdFragmentTimeout (h : Hdr) (s : State) : Out1 := .next (if s.hears h.lane then s.cmdDrop else s)

/-! ## Identity and inventory, Ensembles (group 0x01xx) -/

/-- DISCOVER. -/
def execDiscover (h : Hdr) (s : State) : Out1 :=
  .next (s.command h .discover 0x0100 (fun s =>
    (s, { fields := [.value (if s.mio.devSet then s.mio.deviceNumber.setWidth 64 else 0xFFFFFFFFFFFFFFFF), .data (Config.identityRecord idPublic)] })))

/-- INVENTORY. -/
def execInventory (h : Hdr) (s : State) : Out1 :=
  .next (s.command h .inventory 0x0101 (fun s =>
    (s, { fields := [.data (s.describeUnit .device ++ ((List.range 4).map (fun p => leBytes 8 ((s.port p).word 8))).flatten)] })))

/-- UNIT_DESCRIBE: at once, or through a slot where other devices are asked (R27). -/
def execUnitDescribe (h : Hdr) (u : BitVec 48) (s : State) : Out1 :=
  .next (s.command h (fun h => .unitDescribe h u) 0x0108 (fun s =>
    match s.describeNow u with
    | some (.ok, b) => (s, { fields := [.data b] })
    | some (st, _) => refused s st
    | none =>
      if !s.isHere u ∧ (s.upAssoc (nameDevice u)).isNone then refused s .gone
      else match s.freeSlot with
        | none => refused s .busy
        | some k =>
          let s := s.claim k h 0x0108 none .describe
          let seq := (s.slot k).seq
          (s.describeStart { id := k, slot := some k, unit := u, waiting := [] } 0,
            { async := true, fields := [.result (BitVec.ofNat 16 k) seq] })))

/-- ENSEMBLE_DEFINE; TAG is the low half of VALUE (DESIGN CHOICE: log entry 17). -/
def execEnsembleDefine (h : Hdr) (ms : List (BitVec 48)) (tag : Option (BitVec 64)) (s : State) : Out1 :=
  .next (s.command h (fun h => .ensembleDefine h ms tag) 0x0110 (fun s =>
    answer s (s.defineEnsemble ms ((tag.getD 0).setWidth 32) false) (fun (e, s) => (s, [.unit (s.nameOf (.ensemble e))]))))

/-- ENSEMBLE_EDIT. -/
def execEnsembleEdit (h : Hdr) (u : BitVec 48) (ms remove : List (BitVec 48)) (s : State) : Out1 :=
  .next (s.command h (fun h => .ensembleEdit h u ms remove) 0x0111 (fun s => answerState s (s.editEnsemble u ms remove)))

/-- ENSEMBLE_DELETE. -/
def execEnsembleDelete (h : Hdr) (u : BitVec 48) (s : State) : Out1 :=
  .next (s.command h (fun h => .ensembleDelete h u) 0x0112 (fun s => answerState s (s.deleteEnsemble u)))

/-! ## Memory and registers (group 0x03xx, R377, R378, R412) -/

/-- A device-local address whose high bits are zero. -/
def devAddr (a : W64) : Option Nat := if fld a 63 48 = 0 then some (fld a 47 0) else none

/-- The door that holds an access of a command to memory. -/
def State.memDoor (s : State) (a : W64) (n : Nat) : Option Nat := (devAddr a).bind (fun x => s.heldBy x n)

/-- MEM_READ. -/
def execMemRead (h : Hdr) (a n : BitVec 64) (s : State) : Out1 :=
  .next (s.doorCommand h (fun h => .memRead h a n) 0x0300
    (fun s => if s.confined ∨ 1024 < n.toNat then none else s.memDoor a n.toNat) (fun s =>
    if s.confined then refused s .denied
    else if 1024 < n.toNat then refused s .badParam
    else match devAddr a with
      | none => refused s .badParam
      | some x => match s.readMem .command x n.toNat with
        | .ok b => (s, { fields := [.data b] })
        | .error e => refused (s.countRead x n.toNat e) e))

/-- MEM_WRITE. -/
def execMemWrite (h : Hdr) (a : BitVec 64) (b : List Byte) (s : State) : Out1 :=
  .next (s.doorCommand h (fun h => .memWrite h a b) 0x0301 (fun s => if 1024 < b.length then none else s.memDoor a b.length) (fun s =>
    if 1024 < b.length then refused s .badParam
    else match devAddr a with
      | none => refused s .badParam
      | some x => match s.writeMem .command x b with
        | .ok s => (s, {})
        | .error e => refused (s.countWrite x b.length e) e))

/-- MEM_FILL: accepted where the region exists; the pattern is written as the command ends. -/
def execMemFill (h : Hdr) (a n v : BitVec 64) (nq : Option QueueNo) (s : State) : Out1 :=
  .next (s.command h (fun h => .memFill h a n v nq) 0x0302 (fun s =>
    s.async h 0x0302 nq (fun s _ =>
      match devAddr a with
      | none => .error .badParam
      | some x =>
        if n = 0 ∨ spanRegion x n.toNat = none ∨ spanRegion x n.toNat = some .registers then .error .badParam
        else match s.writeStatus .command x n.toNat with
          | some .denied => .error .denied
          | _ => .ok (s, .memFill x n.toNat v, []))))

/-- REG_READ. -/
def execRegRead (h : Hdr) (a : BitVec 64) (s : State) : Out1 :=
  .next (s.doorCommand h (fun h => .regRead h a) 0x0310 (fun s => s.regHeld a.toNat) (fun s =>
    match s.regRead a.toNat with
    | .ok (v, s) => (s, { fields := [.value v] })
    | .error (e, s) => refused s e))

/-- REG_WRITE. -/
def execRegWrite (h : Hdr) (a v : BitVec 64) (s : State) : Out1 :=
  .next (s.doorCommand h (fun h => .regWrite h a v) 0x0311 (fun s => s.regHeld a.toNat) (fun s =>
    match s.regWriteTo (some h.session) a.toNat v with
    | .ok s => (s, {})
    | .error (e, s) => refused s e))

/-! ## Rehearsal mode (group 0x0Fxx, R62, R378) -/

/-- A Core is RUNNING or in HOLD. -/
def State.anyRunning (s : State) : Bool := s.cores.any (fun (p : Nat × Core) => p.2.p.state == .running || p.2.p.state == .hold)

/-- REHEARSAL_ENTER. -/
def execRehearsalEnter (h : Hdr) (s : State) : Out1 :=
  .next (s.command h .rehearsalEnter 0x0F00 (fun s =>
    if s.confined then refused s .denied
    else if s.anyRunning then refused s .busy
    else if s.cur.rehearsal then (s, {})
    else (({ s with cur := { s.cur with rehearsal := true } }).measure, {})))

/-- What leaves with Rehearsal mode: SINGLE_STEP of every Core, FIXED_SEED and SEED of every Troupe (R54, R87). -/
def State.leaveRehearsal (s : State) : State :=
  { s with
    cur := { s.cur with rehearsal := false }
    cores := s.cores.map (fun (p : Nat × Core) => (p.1, p.2.modP (fun y => { y with singleStep := false, stepped := false })))
    troupes := s.troupes.map (fun (p : Nat × Troupe) => (p.1, { p.2 with fixedSeed := false, seed := 0 })) }

/-- REHEARSAL_LEAVE. -/
def execRehearsalLeave (h : Hdr) (s : State) : Out1 :=
  .next (s.command h .rehearsalLeave 0x0F01 (fun s =>
    if s.anyRunning then refused s .busy
    else if !s.cur.rehearsal then (s, {})
    else (s.leaveRehearsal.measure, {})))

/-- The image of an array (R62). -/
def Arr.imageBytes (x : Arr) : List Byte := ((List.range 4356).map (fun k => leBytes 8 (Tab.get 0 x.image k : W64).toNat)).flatten

/-- The Core of this device that a name names. -/
def State.coreHere (s : State) (u : UnitName) : Option Nat := if s.isHere u then coreName u else none

/-- ACCUM_READ. -/
def execAccumRead (h : Hdr) (u : BitVec 48) (k : BitVec 32) (s : State) : Out1 :=
  .next (s.doorCommand h (fun h => .accumRead h u k) 0x0F02
    (fun s => if s.confined ∨ !s.cur.rehearsal then none else (s.coreHere u).bind (fun c => if s.holding c then some c else none)) (fun s =>
    if s.confined ∨ !s.cur.rehearsal then refused s .denied
    else match s.coreHere u with
      | none => refused s .badParam
      | some c =>
        let x := s.core c
        if 2 ≤ k.toNat then refused s .badParam
        else if x.dark then refused s .dark
        else if x.inReset then refused (s.doorCount (stageOfCore c)) .reset
        else (s, { fields := [.data (if k = 0 then x.arrA else x.arrB).imageBytes] })))

/-- REG_FORCE. -/
def execRegForce (h : Hdr) (a v : BitVec 64) (s : State) : Out1 :=
  .next (s.doorCommand h (fun h => .regForce h a v) 0x0F03 (fun s => if s.cur.rehearsal then s.regHeld a.toNat else none) (fun s =>
    if !s.cur.rehearsal then refused s .denied
    else match s.regForceTo h.session a.toNat v with
      | .ok s => (s, {})
      | .error (e, s) => refused s e))

/-! ## Notice queues and results (group 0x07xx, R373, R374, R376, R377) -/

/-- A queue index. -/
def queueOk (k : BitVec 32) : Bool := decide (k.toNat < 64)

/-- NQ_CONFIGURE: a reserved NQ_SIZE is refused, else a write of the base word (R377). -/
def execNqConfigure (h : Hdr) (k : BitVec 32) (v : BitVec 64) (s : State) : Out1 :=
  .next (s.command h (fun h => .nqConfigure h k v) 0x0700 (fun s =>
    if !queueOk k || decide (12 < fld v 51 48) then refused s .badParam
    else (s.nqRegWrite k.toNat 0x00 v, {})))

/-- The two spans of a queue's ring that hold its next `n` bytes (R185). -/
def State.nqSpans (s : State) (q n : Nat) : Nat × Nat × Nat × Nat :=
  let x := s.nq q
  let n := min n x.used
  let at_ := x.head.toNat % x.bytes
  let n1 := min n (x.bytes - at_)
  (x.base.toNat + at_, n1, x.base.toNat, n - n1)

/-- A read of a queue's bytes that failed is counted (R224). -/
def State.nqCount (s : State) (q n : Nat) : State :=
  match s.nqSpans q n with
  | (a, n1, b, n2) => s.countFirst [(a, n1), (b, n2)]

/-- Bytes of a queue's ring from the consumer count on (R185, R192). -/
def State.nqBytes (s : State) (q n : Nat) : Except Status (List Byte) :=
  match s.nqSpans q n with
  | (a, n1, b, n2) => match s.readMem .unit a n1, s.readMem .unit b n2 with
    | .ok a, .ok b => .ok (a ++ b)
    | .error e, _ => .error e
    | _, .error e => .error e

/-- NQ_READ. -/
def execNqRead (h : Hdr) (k : BitVec 32) (n : BitVec 64) (s : State) : Out1 :=
  .next (s.command h (fun h => .nqRead h k n) 0x0701 (fun s =>
    if !queueOk k || decide (16384 < n.toNat) then refused s .badParam
    else match s.nqBytes k.toNat n.toNat with
      | .error e => refused (s.nqCount k.toNat n.toNat) e
      | .ok b => (s, { fields := [.value ((s.nq k.toNat).tail.setWidth 64), .data b] })))

/-- NQ_ADVANCE. -/
def execNqAdvance (h : Hdr) (k : BitVec 32) (v : BitVec 64) (s : State) : Out1 :=
  .next (s.command h (fun h => .nqAdvance h k v) 0x0702 (fun s =>
    if !queueOk k then refused s .badParam else (s.nqRegWrite k.toNat 0x08 v, {})))

/-- NQ_FLUSH. -/
def execNqFlushCmd (h : Hdr) (k : BitVec 32) (s : State) : Out1 :=
  .next (s.command h (fun h => .nqFlushCmd h k) 0x0703 (fun s =>
    if !queueOk k then refused s .badParam else (s.nqRegWrite k.toNat 0x18 1, {})))

/-- NQ_ANNOUNCE. -/
def execNqAnnounce (h : Hdr) (k : BitVec 32) (a : BitVec 64) (s : State) : Out1 :=
  .next (s.command h (fun h => .nqAnnounce h k a) 0x0704 (fun s =>
    if !queueOk k then refused s .badParam else (s.nqRegWrite k.toNat 0x28 a, {})))

/-- A slot as a session and a sequence name it: none where it is FREE, ABANDONED, another's or another claim's (R373). -/
def State.namedSlot (s : State) (n : BitVec 32) (k : BitVec 16) (seq : BitVec 32) : Option Slot :=
  let x := s.slot k.toNat
  if x.session ≠ n ∨ x.seq ≠ seq then none
  else match x.state with
    | .pending => some x
    | .ready => some x
    | .free => none
    | .abandoned => none

/-- RESULT_READ. -/
def execResultRead (h : Hdr) (k : BitVec 16) (seq : BitVec 32) (s : State) : Out1 :=
  .next (s.command h (fun h => .resultRead h k seq) 0x0710 (fun s =>
    match s.namedSlot h.session k seq with
    | none => refused s .gone
    | some x =>
      if x.state = .pending then refused s .notReady
      else (s.setSlot k.toNat { x with readOnce := true }, { repeated := x.readOnce, fields := .status x.status :: x.fields })))

/-- RESULT_RELEASE. -/
def execResultRelease (h : Hdr) (k : BitVec 16) (seq : BitVec 32) (s : State) : Out1 :=
  .next (s.command h (fun h => .resultRelease h k seq) 0x0711 (fun s =>
    match s.namedSlot h.session k seq with
    | none => refused s .gone
    | some x => if x.state = .pending then (s.setSlot k.toNat { x with state := .abandoned }, {}) else (s.dropSlot k.toNat, {})))

end Sys2Proof.Machine
end

