-- ==== Sys2Proof/Machine/Jobs.lean ====
section
/-! DEFINITION. Commands on shards, Root jobs, collectives and mappings (group 0x02xx: R234, R259, R261, R268, R269, R288, R338,
R346, R353, R356).
Log entries with the readings and choices that are the model's: 41, 54. -/

namespace Sys2Proof.Machine

/-! ## Shards -/

/-- A working copy's format (R230). -/
def workFmtOk (code : Nat) : Bool :=
  match Fmt.ofCode code with
  | none => false
  | some f => f.isMx || f == .bf16 || f == .e4m3 || f == .e5m2

/-- The encodings of a record that is to be loaded; reserved fields are ignored (R13, R230, R234). -/
def State.shardOk (s : State) (n a : Nat) : Bool :=
  workFmtOk (s.rWorkFmt a) && decide (s.rSource a ≤ 2) &&
  decide (s.recGet a 159 157 ≤ 4) && decide (1 ≤ s.rExpect a) && s.rCloseState a == 0 && s.rDone a == s.rCloses a &&
  decide (dieOf a = n / 8) && regionOf (s.recGet a 383 320) == some .gallery

/-- The window of a record's two working buffers: of this device, or of another one (R230, R235). -/
def State.workWindow (s : State) (a : Nat) : Window :=
  let w := BitVec.ofNat 64 (s.recGet a 511 448)
  let z := s.rWorkBytes a
  match s.place (s.rFab a 2) permWrite w (2 * z) with
  | .here x => { used := true, base := x, size := z, record := a }
  | .far _ _ t => { used := true, far := true, base := t.toNat, size := z, record := a }
  | .refused _ => { used := true, far := true, base := w.toNat, size := z, record := a }
  | .wait => { used := true, far := true, base := w.toNat, size := z, record := a }

/-- An entry of the shard table and one of the window table that are free. -/
def State.freeShard (s : State) (n : Nat) : Option (Nat × Nat) :=
  let i := (List.range 64).find? (fun i => decide ((s.shard n i).state = .empty))
  let w := (List.range 4096).find? (fun k => !(Tab.get {} s.windows k : Window).used)
  match i, w with
  | some i, some w => some (i, w)
  | _, _ => none

/-- SHARD_LOAD: the entry, or the refusal (R234, R235). -/
def State.shardLoad (s : State) (n a : Nat) : Except Status (Nat × State) :=
  if 64 ≤ n ∨ spanRegion a 256 ≠ some .gallery ∨ a % 256 ≠ 0 then .error .badParam
  else if (s.con n).inReset then .error .reset
  else match s.readStatus .unit a 256 with
    | some e => .error e
    | none =>
      if !s.shardOk n a then .error .badParam
      else match s.readRule a with
        | .error e => .error e.st
        | .ok u =>
          if !ruleOk u || !sourceOk u (s.rSource a) then .error .badParam
          else match s.freeShard n with
            | none => .error .badParam
            | some (i, w) =>
              let e : ShardEntry := { record := BitVec.ofNat 48 a, state := if s.recGet a 1186 1186 = 1 then .halted else .live, window := BitVec.ofNat 12 w }
              .ok (i, { (s.modShard n i (fun _ => e)) with windows := Tab.set s.windows w (s.workWindow a) })

/-- The Conservator works on the shard now. -/
def State.shardBusy (s : State) (n i : Nat) : Bool := decide ((s.con n).activity ≠ .idle) && (s.con n).shardNow == i

/-- What refuses the unloading of a shard (R234). -/
def State.shardHeld (s : State) (n i : Nat) : Bool :=
  let e := s.shard n i
  let a := e.record.toNat
  s.shardBusy n i || s.rCloseState a != 0 || e.foldDue || e.compareQueued || !e.refreshJobs.isEmpty || s.recGet a 895 832 != 0 || s.recGet a 959 896 != 0

/-- The entry and its window emptied (R234, R249). -/
def State.shardEmpty (s : State) (n i : Nat) : State :=
  let w := (s.shard n i).window.toNat
  ({ (s.modCon n (fun x => { x with entries := Tab.erase x.entries i })) with windows := Tab.erase s.windows w }).prodForget
    (fun p => { p with shards := p.shards.filter (· != (n, i)) })

/-- A command on entry i of Conservator n: none where there is no such entry, or it is EMPTY or under reset. -/
def State.shardNamed (s : State) (n i : BitVec 32) : Except Status Unit :=
  if 64 ≤ n.toNat ∨ 64 ≤ i.toNat then .error .badParam
  else if (s.con n.toNat).inReset then .error .reset
  else if (s.shard n.toNat i.toNat).state = .empty then .error .gone
  else .ok ()

/-- SHARD_UNLOAD. -/
def State.shardUnload (s : State) (n i : BitVec 32) : Except Status State :=
  match s.shardNamed n i with
  | .error e => .error e
  | .ok _ => if s.shardHeld n.toNat i.toNat then .error .busy else .ok (s.shardEmpty n.toNat i.toNat)

/-- SHARD_RESUME: HALTED is cleared; with DISCARD the held gradient is applied as a skip (R261). -/
def State.shardResume (s : State) (n i : BitVec 32) (discard : Bool) : Except Status State :=
  match s.shardNamed n i with
  | .error .gone => .error .badParam
  | .error e => .error e
  | .ok _ =>
    if (s.shard n.toNat i.toNat).state ≠ .halted then .error .badParam
    else
      let s := s.modShard n.toNat i.toNat (fun e => { e with state := .live, discard := discard, closeFailed := false })
      .ok (s.recSet (s.recAt n.toNat i.toNat) 1186 1186 0)

/-- SHARD_COMPARE. -/
def State.shardCompare (s : State) (n i : BitVec 32) : Except Status State :=
  match s.shardNamed n i with
  | .error e => .error e
  | .ok _ => .ok (s.modShard n.toNat i.toNat (fun e => { e with compareQueued := true }))

/-- SHARD_LOAD. -/
def execShardLoad (h : Hdr) (n : BitVec 32) (a : BitVec 64) (s : State) : Out1 :=
  .next (s.command h (fun h => .shardLoad h n a) 0x0230 (fun s =>
    match devAddr a with
    | none => refused s .badParam
    | some x => answer s (s.shardLoad n.toNat x) (fun (i, s) => (s, [.index (BitVec.ofNat 32 i)]))))

/-- SHARD_RESUME, RETRY. -/
def execShardResumeRetry (h : Hdr) (n i : BitVec 32) (s : State) : Out1 :=
  .next (s.command h (fun h => .shardResumeRetry h n i) 0x0231 (fun s => answerState s (s.shardResume n i false)))

/-- SHARD_RESUME, DISCARD. -/
def execShardResumeDiscard (h : Hdr) (n i : BitVec 32) (s : State) : Out1 :=
  .next (s.command h (fun h => .shardResumeDiscard h n i) 0x0231 (fun s => answerState s (s.shardResume n i true)))

/-- SHARD_UNLOAD. -/
def execShardUnload (h : Hdr) (n i : BitVec 32) (s : State) : Out1 :=
  .next (s.command h (fun h => .shardUnload h n i) 0x0232 (fun s => answerState s (s.shardUnload n i)))

/-- SHARD_COMPARE. -/
def execShardCompare (h : Hdr) (n i : BitVec 32) (s : State) : Out1 :=
  .next (s.command h (fun h => .shardCompare h n i) 0x0233 (fun s => answerState s (s.shardCompare n i)))

/-! ## Root jobs -/

/-- A descriptor as a command names it. -/
def State.commandDesc (s : State) (a : BitVec 64) : Except Status JobDesc :=
  match devAddr a with
  | none => .error .badParam
  | some x => s.readDesc x

/-- ROOT_SUBMIT: accepted with its JOB_SEQ and a slot, or refused by the engine, which counts it (R268, R269). -/
def State.rootSubmit (s : State) (h : Hdr) (a : BitVec 64) (prio : BitVec 8) (nq : Option QueueNo) : State × Ans :=
  if nq.any (fun q => decide (q.val < 4)) || decide (4 ≤ prio.toNat) then refused s .badParam
  else match s.commandDesc a with
    | .error e => refused s e
    | .ok d => match s.freeSlot with
      | none => refused s .busy
      | some k => match s.acceptJob d prio.toNat (.command k) none with
        | (s, .error e) => refused s e
        | (s, .ok seq) =>
          let s := s.claim k h 0x0240 (nq.map (·.val)) (.root seq)
          (s, { async := true, fields := [.result (BitVec.ofNat 16 k) (s.slot k).seq, .value (seq.setWidth 64)] })

/-- ROOT_SUBMIT. -/
def execRootSubmit (h : Hdr) (a : BitVec 64) (prio : BitVec 8) (nq : Option QueueNo) (s : State) : Out1 :=
  .next (s.command h (fun h => .rootSubmit h a prio nq) 0x0240 (fun s => s.rootSubmit h a prio nq))

/-- The job of a JOB_SEQ, on the engine that leads it. -/
def State.jobNumbered (s : State) (v : BitVec 64) : Option RootJob :=
  if 2 ^ 32 ≤ v.toNat then none
  else ((List.range 32).findSome? (fun t => (s.engine t).job (v.setWidth 32))).map s.jobNow

/-- ROOT_CANCEL: a queued job ends at once, a running one at its next boundary (R288). -/
def State.rootCancel (s : State) (v : BitVec 64) : Except Status State :=
  match s.jobNumbered v with
  | none => .error .gone
  | some j =>
    if (s.engine j.lead).running = some j.seq then .ok (s.modJob j (fun j => { j with cancel := true }))
    else .ok (s.endJob j { status := .gone })

/-- ROOT_CANCEL. -/
def execRootCancel (h : Hdr) (v : BitVec 64) (s : State) : Out1 :=
  .next (s.command h (fun h => .rootCancel h v) 0x0241 (fun s => answerState s (s.rootCancel v)))

/-! ## Collectives and mappings -/

/-- COLLECTIVE_POST. -/
def execCollectivePost (h : Hdr) (a : BitVec 64) (s : State) : Out1 :=
  .next (s.command h (fun h => .collectivePost h a) 0x0250 (fun s =>
    match devAddr a with
    | none => refused s .badParam
    | some x => answer (s.collPostReads x) (s.collPost x) (fun (k, s) => (s, [.index (BitVec.ofNat 32 k)]))))

/-- An index of the collective table. -/
def collIndex {α : Type} (k : BitVec 32) (f : Nat → Except Status α) : Except Status α := if 256 ≤ k.toNat then .error .badParam else f k.toNat

/-- COLLECTIVE_RUN. -/
def execCollectiveRun (h : Hdr) (k : BitVec 32) (s : State) : Out1 :=
  .next (s.command h (fun h => .collectiveRun h k) 0x0251 (fun s => answerState s (collIndex k s.collRunCmd)))

/-- COLLECTIVE_CANCEL. -/
def execCollectiveCancel (h : Hdr) (k : BitVec 32) (s : State) : Out1 :=
  .next (s.command h (fun h => .collectiveCancel h k) 0x0252 (fun s => answerState s (collIndex k s.collCancel)))

/-- COLLECTIVE_RELEASE. -/
def execCollectiveRelease (h : Hdr) (k : BitVec 32) (s : State) : Out1 :=
  .next (s.command h (fun h => .collectiveRelease h k) 0x0253 (fun s => answerState s (collIndex k s.collRelease)))

/-- MAPPING_POST. -/
def execMappingPost (h : Hdr) (k : BitVec 32) (a : BitVec 64) (s : State) : Out1 :=
  .next (s.command h (fun h => .mappingPost h k a) 0x0254 (fun s =>
    match devAddr a with
    | none => refused s .badParam
    | some x => answerState (s.mappingPostReads x) (s.mappingPostCmd k.toNat x)))

/-- MAPPING_RELEASE. -/
def execMappingRelease (h : Hdr) (k : BitVec 32) (s : State) : Out1 :=
  .next (s.command h (fun h => .mappingRelease h k) 0x0255 (fun s =>
    if 16 ≤ k.toNat then refused s .badParam else answerState s (s.mappingReleaseCmd k.toNat)))

end Sys2Proof.Machine
end

