-- ==== Sys2Proof/Machine/FabricCmds.lean ====
section
/-! DEFINITION. The fabric commands (group 0x04xx, R300, R320 to R329) and the key exchange of an association (R393, R397, R399,
R415).
Log entries with the readings and choices that are the model's: 46, 48, 49. -/

namespace Sys2Proof.Machine

/-! ## Ports (R297, R300, R303, R329) -/

/-- Sub-ports of a mode that hold a bad lane: they are turned off (R300). -/
def subsOff (mode : Nat) (bad : BitVec 8) : BitVec 8 :=
  BitVec.ofNat 8 (bitsWhere 8 (fun k => (subLanes mode k).any (fun l => bitOf bad.toNat l)))

/-- Sub-ports of a mode (R297). -/
def subsOf (mode : Nat) : BitVec 8 := BitVec.ofNat 8 (bitsWhere 8 (fun k => !(subLanes mode k).isEmpty))

/-- A word that PORT_CONFIGURE takes: no reserved encoding, no bad lane in a live sub-port; reserved bits are ignored (R13, R300, R303). -/
def Port.takes (x : Port) (v : W64) : Bool :=
  fld v 3 2 != 3 && !(fld v 1 0 == 1 && subsOff 1 x.laneBad != 0)

/-- The port in a new mode, its sub-ports training. -/
def Port.configured (x : Port) (v : W64) : Port :=
  let off := subsOff (fld v 1 0) x.laneBad
  { x with
    mode := BitVec.ofNat 2 (fld v 1 0), media := BitVec.ofNat 2 (fld v 3 2), anEn := fld v 4 4 == 1, pfcEn := fld v 5 5 == 1
    pfcPrio := BitVec.ofNat 3 (fld v 8 6), dscp := BitVec.ofNat 6 (fld v 14 9), vlanEn := fld v 15 15 == 1
    vlanId := BitVec.ofNat 12 (fld v 27 16), linkUp := 0, subOff := off, training := subsOf (fld v 1 0) &&& ~~~off, retrying := 0
    retrainFails := [] }

/-- Sub-ports of a port taken down. -/
def State.subsDown (s : State) (p : Nat) : List Nat → State
  | [] => s
  | k :: t => State.subsDown (if bitOf (s.port p).linkUp.toNat k then s.subDown p k none else s) p t

/-- PORT_CONFIGURE: the port retrains. -/
def State.portConfigure (s : State) (k : BitVec 32) (v : W64) : Except Status State :=
  if 4 ≤ k.toNat ∨ !(s.port k.toNat).takes v then .error .badParam
  else .ok ((s.subsDown k.toNat (List.range 8)).modPort k.toNat (fun x => x.configured v))

/-- PORT_CONFIGURE. -/
def execPortConfigure (h : Hdr) (k : BitVec 32) (v : BitVec 64) (s : State) : Out1 :=
  .next (s.command h (fun h => .portConfigure h k v) 0x0402 (fun s => answerState s (s.portConfigure k v)))

/-- The MAC of a sub-port, or of the management lane at index 32 (R299, R359). -/
def State.macOf (s : State) (k : Nat) : BitVec 48 :=
  if k = 32 then (s.port 0).macBase + 32 else (s.port (k / 8)).macBase + BitVec.ofNat 48 (k % 8)

/-- The IPv6 link-local address of a MAC by the modified EUI-64 rule (R359). -/
def linkLocal (m : BitVec 48) : BitVec 128 :=
  BitVec.ofNat 128 (pack [(112, 16, 0xFE80), (40, 24, bitsOf m.toNat 47 24 ^^^ 0x020000), (24, 16, 0xFFFE), (0, 24, bitsOf m.toNat 23 0)])

/-- Addresses of an interface: its link-local one, and those PORT_ADDRESS gave (R359). -/
def State.addrsOf (s : State) (k : Nat) : List (BitVec 128) :=
  linkLocal (s.macOf k) :: (if k = 32 then s.mio.mgmtAddrs else Tab.get [] (s.port (k / 8)).addrs (k % 8))

/-- PORT_ADDRESS: addresses of a sub-port, or of the management lane. -/
def State.portAddress (s : State) (k : BitVec 32) (ip : List (BitVec 128)) : Except Status State :=
  if 32 < k.toNat ∨ ip.isEmpty ∨ 2 < ip.length then .error .badParam
  else if k.toNat = 32 then .ok { s with mio := { s.mio with mgmtAddrs := ip } }
  else .ok (s.modPort (k.toNat / 8) (fun x => { x with addrs := Tab.set x.addrs (k.toNat % 8) ip }))

/-- PORT_ADDRESS. -/
def execPortAddress (h : Hdr) (k : BitVec 32) (ip : List (BitVec 128)) (s : State) : Out1 :=
  .next (s.command h (fun h => .portAddress h k ip) 0x0403 (fun s => answerState s (s.portAddress k ip)))

/-- FABRIC_SET_ID (R324). -/
def State.setId (s : State) (d : BitVec 16) : Except Status State :=
  if !s.noAssoc then .error .busy else .ok { s with mio := { s.mio with deviceNumber := d, devSet := true } }

/-- FABRIC_SET_ID. -/
def execFabricSetId (h : Hdr) (d : BitVec 16) (s : State) : Out1 :=
  .next (s.command h (fun h => .fabricSetId h d) 0x0401 (fun s => answerState s (s.setId d)))

/-! ## Handshake messages (R397) -/

/-- The content of an INIT, read. -/
structure HsInit where
  mode   : Nat
  device : Nat
  conf   : Nat
  kem    : List Byte
  bare   : Bool
  cred   : List Byte
deriving DecidableEq, Repr

/-- The content of an INIT; none where it has no form of the spec's. -/
def HsInit.of (b : List Byte) : Option HsInit :=
  let n := ofBe ((b.drop 1609).take 2)
  let mode := ofBe ((b.drop 1).take 1)
  let conf := ofBe ((b.drop 4).take 4)
  let form := ofBe ((b.drop 1608).take 1)
  if b.length < 1611 ∨ b.length ≠ 1611 + n ∨ ofBe (b.take 1) ≠ 1 ∨ 1 < form ∨ 4 < mode ∨ (conf ≠ 0 ∧ mode ≠ 4) then none
  else some {
    mode := mode, device := ofBe ((b.drop 2).take 2), conf := conf, kem := (b.drop 40).take 1568, bare := form == 1, cred := b.drop 1611 }

/-- The public key an INIT presents: a bare key, or that of a chain that verifies (R393, R398). -/
def HsInit.key (i : HsInit) : Option (List Byte) :=
  if i.bare then (if i.cred.length = keyBytes then some i.cred else none) else Config.chainKey i.cred

/-- The content of a RESP, read: what its signature covers, the ciphertext, the credential, the signature. -/
structure HsResp where
  body : List Byte
  ct   : List Byte
  cred : List Byte
  sig  : List Byte
deriving DecidableEq, Repr

def sigBytes : Nat := 4627

/-- The content of a RESP; none where its lengths are wrong. -/
def HsResp.of (b : List Byte) : Option HsResp :=
  let n := ofBe ((b.drop 1600).take 2)
  if b.length ≠ 1602 + n + sigBytes then none
  else some { body := b.take (1602 + n), ct := (b.drop 32).take 1568, cred := (b.drop 1602).take n, sig := b.drop (1602 + n) }

/-- Bytes of the secrets' source, so many (R392, R397). -/
def State.secret (s : State) (n : Nat) : List Byte := fitBytes n (Config.secretBytes s.freeCtr)

/-- What a responder's and an initiator's signature covers. -/
def hsRDigest (i body : List Byte) : List Byte := Config.sha3 (lHsR ++ i ++ body)
def hsIDigest (i r : List Byte) : List Byte := Config.sha3 (lHsI ++ i ++ r)
/-- The transcript T. -/
def transcript (i r : List Byte) : List Byte := Config.sha3 (i ++ r)

/-- This device signs with its identity key. -/
def devSigned (digest : List Byte) : List Byte := fitBytes sigBytes (Config.dsaSign idSeed digest)

/-- The RESP to an INIT: its content and the shared secret (R397). -/
def State.hsRespond (s : State) (i : HsInit) (init : List Byte) : List Byte × List Byte :=
  let r := s.secret 64
  let (ct, ss) := Config.kemEncap i.kem (r.drop 32)
  let body := r.take 32 ++ fitBytes 1568 ct ++ beBytes 2 Config.deviceChain.length ++ Config.deviceChain
  (body ++ devSigned (hsRDigest init body), ss)

/-! ## The exchange of an association (R325, R399, R415) -/

/-- A device is a named host of confidential host mode (R415). -/
def State.namedHost (s : State) (d : BitVec 16) : Bool := s.sec.hostConf && s.sec.namedHosts.contains d

/-- X of a session: none where it is not open and SEALED, or, for a named host, an OBSERVER's (R399, R415). -/
def State.confExport (s : State) (n : BitVec 32) (named : Bool) : Option (List Byte) :=
  match s.session n with
  | none => none
  | some x => if !x.isSealed || (named && x.role == .observer) then none else some (kdf x.secret x.transcript lExport 32)

/-- What binds the keys besides the transcript: nothing, or X; none where a named host's association may not open (R399, R415). -/
def State.hsBind (s : State) (peer : BitVec 16) (conf : Option (BitVec 32)) : Option (List Byte) :=
  match conf with
  | some n => s.confExport n (s.namedHost peer)
  | none => if s.namedHost peer then none else some []

/-- The 72 bytes of key material. -/
def assocKeys (ss t x : List Byte) : List Byte := kdf ss (t ++ x) lAssoc 72

/-- A host's bare key of an OWNER or OPERATOR credential (R399). -/
def State.hostKey (s : State) (cred : List Byte) : Option (List Byte) :=
  if cred.length = keyBytes ∧ (s.credOf (Config.sha3 cred) [credOwner, credOperator]).isSome then some cred else none

/-- The INIT this device sends: its content. -/
def State.initContent (s : State) (conf : Option (BitVec 32)) (seed nonce : List Byte) : List Byte :=
  beBytes 1 1 ++ beBytes 1 (if conf.isSome then 4 else 0) ++ beBytes 2 s.me ++ beBytes 4 (conf.getD 0).toNat ++ nonce ++
    fitBytes 1568 (Config.kemPublic seed) ++ beBytes 1 0 ++ beBytes 2 Config.deviceChain.length ++ Config.deviceChain

/-- A message of the exchange leaves by a path chosen as a packet's is (R313, R397). -/
def State.hsOut (s : State) (k : Nat) (m : AssocHs) : State :=
  match s.choosePath (s.assoc k) 0 with
  | some p => s.pktOut k p (.handshake k m)
  | none => { s with out := s.out ++ [.handshake k m] }

/-- A probe of each path of an association being opened (R325). -/
def State.probePaths (s : State) (k size : Nat) : List Nat → State
  | [] => s
  | p :: t => State.probePaths (s.pktOut k p (.probe k p size)) k size t

/-- The device with the lower number sends INIT once its paths exist (R399). -/
def State.hsStart (s : State) (k : Nat) : State :=
  let a := s.assoc k
  if a.peer.toNat ≤ s.me ∨ a.paths.isEmpty then s
  else
    let r := s.secret 100
    let c := s.initContent a.conf (r.take 64) ((r.drop 64).take 32)
    let id := BitVec.ofNat 32 (ofLe (r.drop 96))
    ((s.setAssoc k { a with hsInit := c, hsSecret := r.take 64, hsId := id, hsSent := true }).fresh).hsOut k (.init (BitVec.ofNat 14 k) id c)

/-- A failed exchange: ABORT with DENIED, the open ends with DENIED, counted, HANDSHAKE_FAILED (R399). -/
def State.hsFails (s : State) (k : Nat) (id : BitVec 32) : State :=
  let peer := (s.assoc k).peer.toNat
  let s := s.hsOut k (.abort id .denied)
  let s := { s with sec := { s.sec with handshakeFails := satInc s.sec.handshakeFails } }
  (s.openFails k .denied).secNotice { event := 0x08, status := .denied, peer := peer }

/-- The association comes UP: its keys stand, its open ends; with a path that passes only at 1,024 bytes each was probed so (R325, R331). -/
def State.assocUp (s : State) (k : Nat) (tx rx : List Byte) (reduced : Bool) : State :=
  let s := if reduced then s.probePaths k 1024 ((s.assoc k).paths.map (fun (p : Nat × Path) => p.1)) else s
  let a := s.assoc k
  let s := s.setAssoc k { a with
    state := .up, txKey := tx, rxKey := rx, mtu1k := reduced, hsInit := [], hsResp := [], hsSecret := [], hsSent := false, slot := none }
  let s := s.link { event := 0x05, peer := a.peer.toNat, assoc := k }
  let s := if reduced then s.link { event := 0x0A, peer := a.peer.toNat, assoc := k } else s
  match a.slot with
  | none => s
  | some n => s.workEnds n .ok [.index (BitVec.ofNat 32 k)]

/-- An INIT at the device with the higher number: checked and answered (R399). -/
def State.hsInitArrives (s : State) (k : Nat) (src : BitVec 14) (id : BitVec 32) (c : List Byte) : State :=
  let a := s.assoc k
  if a.state ≠ .opening ∨ s.me ≤ a.peer.toNat then s
  else match HsInit.of c with
    | none => s.hsFails k id
    | some i =>
      let conf := if i.mode = 4 then some (BitVec.ofNat 32 i.conf) else none
      let key := if i.bare then s.hostKey i.cred else i.key
      if (i.mode ≠ 0 ∧ i.mode ≠ 4) ∨ i.device ≠ a.peer.toNat ∨ key.isNone ∨ (s.hsBind a.peer conf).isNone then s.hsFails k id
      else
        let (r, ss) := s.hsRespond i c
        ((s.setAssoc k { a with
            peerAssoc := src, hostPeer := i.bare, conf := conf, hsInit := c, hsResp := r, hsId := id, hsSecret := ss }).fresh).hsOut k
          (.resp (BitVec.ofNat 14 k) id r)

/-- The key a RESP's credential stands for, and whether the peer is a host. -/
def State.respKey (s : State) (cred : List Byte) : Option (List Byte × Bool) :=
  match s.hostKey cred with
  | some k => some (k, true)
  | none => (Config.chainKey cred).map (fun k => (k, false))

/-- A RESP at the device that sent INIT: checked, the secret opened, FINISH sent, the association UP. -/
def State.hsRespArrives (s : State) (k : Nat) (src : BitVec 14) (id : BitVec 32) (c : List Byte) (reduced : Bool) : State :=
  let a := s.assoc k
  if a.state ≠ .opening ∨ !a.hsSent ∨ a.hsId ≠ id then s
  else match HsResp.of c with
    | none => s.hsFails k id
    | some r => match s.respKey r.cred, Config.kemDecap a.hsSecret r.ct, s.hsBind a.peer a.conf with
      | some (key, host), some ss, some x =>
        if !Config.dsaVerify key (hsRDigest a.hsInit r.body) r.sig then s.hsFails k id
        else
          let keys := assocKeys ss (transcript a.hsInit c) x
          let s := (s.setAssoc k { a with peerAssoc := src, hostPeer := host }).hsOut k
            (.finish (BitVec.ofNat 14 k) id (devSigned (hsIDigest a.hsInit c)))
          s.assocUp k (keys.take 36) (keys.drop 36) reduced
      | _, _, _ => s.hsFails k id

/-- A FINISH at the device that answered: checked, the association UP. -/
def State.hsFinishArrives (s : State) (k : Nat) (id : BitVec 32) (sig : List Byte) (reduced : Bool) : State :=
  let a := s.assoc k
  if a.state ≠ .opening ∨ a.hsResp.isEmpty ∨ a.hsId ≠ id then s
  else match (HsInit.of a.hsInit).bind HsInit.key, s.hsBind a.peer a.conf with
    | some key, some x =>
      if !Config.dsaVerify key (hsIDigest a.hsInit a.hsResp) sig then s.hsFails k id
      else
        let keys := assocKeys a.hsSecret (transcript a.hsInit a.hsResp) x
        s.assocUp k (keys.drop 36) (keys.take 36) reduced
    | _, _ => s.hsFails k id

/-- An ABORT ends the open with its status. -/
def State.hsAbortArrives (s : State) (k : Nat) (id : BitVec 32) (st : Status) : State :=
  let a := s.assoc k
  if a.state ≠ .opening ∨ a.hsInit.isEmpty ∨ a.hsId ≠ id then s else s.openFails k st

/-- ASSOC_HANDSHAKE; `reduced`: some path passed probes only at 1,024 bytes (R325). -/
def execAssocHandshake (a : AssocNo) (m : AssocHs) (reduced : Bool) (s : State) : Out1 :=
  match m with
  | .init src id c => .next (s.hsInitArrives a.val src id c)
  | .resp src id c => .next (s.hsRespArrives a.val src id c reduced)
  | .finish _ id sig => .next (s.hsFinishArrives a.val id sig reduced)
  | .abort id st => .next (s.hsAbortArrives a.val id st)

/-! ## Associations (R313, R325, R327, R329) -/

/-- Sub-ports that are up, as port and sub-port. -/
def State.upSubs (s : State) : List (Nat × Nat) :=
  ((List.range 32).filter (fun k => bitOf (s.port (k / 8)).linkUp.toNat (k % 8))).map (fun k => (k / 8, k % 8))

/-- The 64 paths, divided evenly among the sub-ports that are up and the peer's addresses (R313). -/
def State.makePaths (s : State) (subs : List (Nat × Nat)) (addrs : Nat) : Nat → Tab Path × State
  | 0 => ([], s)
  | n + 1 =>
    let (ps, s) := State.makePaths s subs addrs n
    let x := nth (0, 0) subs ((n + n / Nat.lcm subs.length addrs) % subs.length)
    (Tab.set ps n { port := x.1, sub := x.2, peerAddr := n % addrs, srcPort := s.srcPort }, s.fresh)

/-- The entry of an association with a device, whatever its state. -/
def State.assocWith (s : State) (d : BitVec 16) : Option (Nat × Assoc) :=
  s.mio.assocs.find? (fun (p : Nat × Assoc) => decide (p.2.state ≠ .free) && p.2.peer == d)

/-- The index an open takes: that of a DOWN association with the peer, or a free one. -/
def State.openIndex (s : State) (d : BitVec 16) : Except Status Nat :=
  match s.assocWith d with
  | some (k, a) => if a.state = .down then .ok k else .error .badParam
  | none => match freeEntry (s.mio.assocs.map (fun (p : Nat × Assoc) => p.1)) 16384 with
    | some k => .ok k
    | none => .error .busy

/-- ASSOC_OPEN accepted: each path is probed at the largest packet size (R325). -/
def State.assocOpen (s : State) (n : BitVec 32) (d : BitVec 16) (ip : List (BitVec 128)) (kc : W64) (slot : Nat) :
    Except Status (State × Work × List Fld) :=
  if !s.mio.devSet then .error .notReady
  else if ip.isEmpty ∨ 8 < ip.length ∨ 0xFFFF < kc.toNat ∨ d = s.mio.deviceNumber then .error .badParam
  else match s.openIndex d with
    | .error e => .error e
    | .ok k =>
      let subs := s.upSubs
      let (ps, s) := if subs.isEmpty then ([], s) else s.makePaths subs ip.length 64
      let s := s.setAssoc k {
        peer := d, state := .opening, keyClass := kc.setWidth 16, addrs := ip, paths := ps, slot := some slot,
        conf := if s.namedHost d then some n else none }
      .ok ((s.probePaths k 4096 (ps.map (fun (p : Nat × Path) => p.1))).hsStart k, .assoc k, [])

/-- ASSOC_OPEN. -/
def execAssocOpen (h : Hdr) (d : BitVec 16) (ip : List (BitVec 128)) (kc : BitVec 64) (nq : Option QueueNo) (s : State) : Out1 :=
  .next (s.command h (fun h => .assocOpen h d ip kc nq) 0x0410 (fun s =>
    s.async h 0x0410 nq (fun s k => s.assocOpen h.session d ip kc k)))

/-- ASSOC_CLOSE: the entry is free, requests end with RESET, and so does an open under way. -/
def State.assocClose (s : State) (k : Nat) : Except Status State :=
  let a := s.assoc k
  match a.state with
  | .free => .error .gone
  | .opening => .ok (s.openFails k .reset)
  | .up => .ok (({ s with mio := { s.mio with assocs := Tab.erase s.mio.assocs k } }).assocLost a)
  | .down => .ok { s with mio := { s.mio with assocs := Tab.erase s.mio.assocs k } }

/-- An index of the association table. -/
def assocIndex {α : Type} (k : BitVec 32) (f : Nat → Except Status α) : Except Status α :=
  if 16384 ≤ k.toNat then .error .badParam else f k.toNat

/-- ASSOC_CLOSE. -/
def execAssocClose (h : Hdr) (k : BitVec 32) (s : State) : Out1 :=
  .next (s.command h (fun h => .assocClose h k) 0x0411 (fun s => answerState s (assocIndex k s.assocClose)))

/-- ASSOC_REKEY. -/
def State.assocRekey (s : State) (k : Nat) : Except Status State :=
  if (s.assoc k).state ≠ .up then .error .gone
  else if (s.assoc k).rekeying then .error .busy
  else .ok (s.rekey k)

/-- ASSOC_REKEY. -/
def execAssocRekey (h : Hdr) (k : BitVec 32) (s : State) : Out1 :=
  .next (s.command h (fun h => .assocRekey h k) 0x0412 (fun s => answerState s (assocIndex k s.assocRekey)))

/-- The entry, the peer's addresses and the path triples (R376). -/
def Assoc.describe (a : Assoc) : List Byte :=
  leBytes 64 a.pack ++ (a.addrs.map (fun x => beBytes 16 x.toNat)).flatten ++
    (a.paths.map (fun (p : Nat × Path) => Config.pathTriple (8 * p.2.port + p.2.sub) p.2.peerAddr p.2.srcPort.toNat)).flatten

/-- ASSOC_DESCRIBE. -/
def execAssocDescribe (h : Hdr) (k : BitVec 32) (s : State) : Out1 :=
  .next (s.command h (fun h => .assocDescribe h k) 0x0413 (fun s =>
    answer s (assocIndex k (fun k => .ok (s.assoc k).describe)) (fun b => (s, [.data b]))))

/-! ## The Accession table (R320, R321, R323, R329) -/

/-- An Accession entry from its 32 bytes; none where it holds a reserved encoding, or MIGRATING; reserved fields are ignored (R13, R320). -/
def AccEntry.of (b : List Byte) : Option AccEntry :=
  let v := ofLe b
  let st := bitsOf v 55 54
  if b.length ≠ 32 ∨ 2 ≤ st ∨ bitsOf v 53 48 < 21 ∨ 36 < bitsOf v 53 48 then none
  else if st = 1 ∧ bitsOf v 47 0 % 2 ^ bitsOf v 53 48 ≠ 0 then none
  else some {
    base := BitVec.ofNat 48 (bitsOf v 47 0), sizeLog := BitVec.ofNat 6 (bitsOf v 53 48), state := if st = 1 then .live else .empty
    targetDev := BitVec.ofNat 16 (bitsOf v 79 64), targetAddr := BitVec.ofNat 48 (bitsOf v 127 80)
    permLocal := BitVec.ofNat 4 (bitsOf v 131 128), permRemote := BitVec.ofNat 4 (bitsOf v 135 132)
    assocKey := BitVec.ofNat 16 (bitsOf v 151 136), newDev := BitVec.ofNat 16 (bitsOf v 175 160), newAddr := BitVec.ofNat 48 (bitsOf v 223 176) }

/-- Two segments overlap. -/
def AccEntry.overlaps (e f : AccEntry) : Bool :=
  e.state != .empty && f.state != .empty &&
    decide (e.base.toNat < f.base.toNat + 2 ^ f.sizeLog.toNat ∧ f.base.toNat < e.base.toNat + 2 ^ e.sizeLog.toNat)

/-- An Accession entry. -/
def State.acc (s : State) (k : Nat) : AccEntry := Tab.get {} s.mio.accession k

/-- An Accession entry written; an EMPTY one is not listed. -/
def State.setAcc (s : State) (k : Nat) (e : AccEntry) : State :=
  { s with mio := { s.mio with accession := if e.state = .empty then Tab.erase s.mio.accession k else Tab.set s.mio.accession k e } }

/-- An index of the Accession table. -/
def accIndex {α : Type} (k : BitVec 32) (f : Nat → Except Status α) : Except Status α :=
  if 32768 ≤ k.toNat then .error .badParam else f k.toNat

/-- ACCESSION_SET. -/
def State.accSet (s : State) (b : List Byte) (k : Nat) : Except Status State :=
  if (s.acc k).state = .migrating then .error .busy
  else match AccEntry.of b with
    | none => .error .badParam
    | some e =>
      if s.mio.accession.any (fun (p : Nat × AccEntry) => p.1 != k && p.2.overlaps e) then .error .badParam else .ok (s.setAcc k e)

/-- ACCESSION_SET. -/
def execAccessionSet (h : Hdr) (k : BitVec 32) (b : List Byte) (s : State) : Out1 :=
  .next (s.command h (fun h => .accessionSet h k b) 0x0420 (fun s => answerState s (accIndex k (s.accSet b))))

/-- ACCESSION_CLEAR. -/
def execAccessionClear (h : Hdr) (k : BitVec 32) (s : State) : Out1 :=
  .next (s.command h (fun h => .accessionClear h k) 0x0421 (fun s =>
    answerState s (accIndex k (fun k => if (s.acc k).state = .migrating then .error .busy else .ok (s.setAcc k {})))))

/-- SEGMENT_MIGRATE accepted (R323). -/
def State.migrate (s : State) (k : Nat) (d : BitVec 16) (a : W64) (slot : Nat) : Except Status (State × Work × List Fld) :=
  let e := s.acc k
  match devAddr a with
  | none => .error .badParam
  | some x =>
    if s.mio.migration.isSome then .error .busy
    else if e.state ≠ .live then .error .gone
    else if (d ≠ s.mio.deviceNumber ∧ (s.upAssoc d.toNat).isNone) ∨
        (e.targetDev ≠ s.mio.deviceNumber ∧ (s.upAssoc e.targetDev.toNat).isNone) then .error .gone
    else
      let s := s.setAcc k { e with state := .migrating, newDev := d, newAddr := BitVec.ofNat 48 x }
      .ok ({ s.fresh with
        mio := { s.mio with migration := some { id := s.freeCtr, entry := k, slot := slot, toCopy := List.range (2 ^ e.sizeLog.toNat / migGranule) } } },
        .migrate, [])

/-- SEGMENT_MIGRATE. -/
def execSegmentMigrate (h : Hdr) (k : BitVec 32) (d : BitVec 16) (a : BitVec 64) (nq : Option QueueNo) (s : State) : Out1 :=
  .next (s.command h (fun h => .segmentMigrate h k d a nq) 0x0422 (fun s =>
    s.async h 0x0422 nq (fun s slot => accIndex k (fun k => s.migrate k d a slot))))

/-- ACCESSION_READ. -/
def execAccessionRead (h : Hdr) (k : BitVec 32) (s : State) : Out1 :=
  .next (s.command h (fun h => .accessionRead h k) 0x0423 (fun s =>
    answer s (accIndex k (fun k => .ok (leBytes 32 (s.acc k).pack))) (fun b => (s, [.data b]))))

end Sys2Proof.Machine
end

