-- ==== Sys2Proof/Machine/Security.lean ====
section
/-! DEFINITION. Attestation, session handshakes, key release, Vault rotation and host modes (group 0x05xx: R394 to R417).
Log entries with the readings and choices that are the model's: 57, 58. -/

namespace Sys2Proof.Machine

/-! ## Session handshakes (R395, R397, R398, R415) -/

/-- The header of a handshake message of a session (R397). -/
def hsHeader (msg : Nat) (id : BitVec 32) (content : List Byte) : List Byte :=
  beBytes 1 msg ++ beBytes 1 0 ++ beBytes 1 1 ++ beBytes 1 0 ++ beBytes 4 id.toNat ++ beBytes 4 content.length ++ beBytes 4 0

/-- A whole INIT message: its HS_ID and its content, where its header is that of an INIT; its reserved byte is ignored (R13). -/
def hsInitMessage (b : List Byte) : Option (BitVec 32 × List Byte) :=
  let id := BitVec.ofNat 32 (ofBe ((b.drop 4).take 4))
  if (b.take 16).set 3 0 = hsHeader 1 id (b.drop 16) then some (id, b.drop 16) else none

/-- A SIGNED session may not open (R415); a CLAIM only on the management lane of an unowned module (R395). -/
def State.modeDenied (s : State) (mode : Nat) (lane : Lane) : Bool :=
  if mode = 1 then s.sec.hostConf
  else if mode = 2 then false
  else if mode = 3 then lane == .main || s.owned
  else true

/-- SESSION_OPEN with INIT: RESP, and the handshake is held (R398). -/
def State.sessionInit (s : State) (lane : Lane) (b : List Byte) : State × Ans :=
  match hsInitMessage b with
  | none => refused s .badParam
  | some (id, c) => match HsInit.of c with
    | none => refused s .badParam
    | some i =>
      let others := s.sec.handshakes.filter (fun (x : Hs) => x.id != id)
      if 64 ≤ s.cur.sessions.length ∨ 16 ≤ others.length then refused s .busy
      else if s.modeDenied i.mode lane then refused s .denied
      else
        let (r, ss) := s.hsRespond i c
        let x : Hs := { id := id, mode := i.mode, lane := lane, init := c, resp := r, secret := ss }
        (({ s with sec := { s.sec with handshakes := others ++ [x] } }).fresh, { fields := [.data (hsHeader 2 id r ++ r)] })

/-- SESSION_OPEN with INIT. -/
def execSessionOpenInit (h : Hdr) (b : List Byte) (s : State) : Out1 :=
  .next (s.command h (fun h => .sessionOpenInit h b) 0x0501 (fun s => s.sessionInit h.lane b))

/-- Session numbers rise by 1; 0 and numbers in use are passed over (R363). -/
def State.sessionNumber (s : State) : Nat → BitVec 32 → BitVec 32
  | 0, n => n
  | fuel + 1, n => if n = 0 ∨ (s.session n).isSome then State.sessionNumber s fuel (n + 1) else n

/-- The role a key opens: by CLAIM the OWNER's, else that of its credential (R394, R395, R398). -/
def State.roleOf (s : State) (mode : Nat) (digest : List Byte) : Option Role :=
  if mode = 3 then some .owner
  else match s.credOf digest [credOwner, credOperator, credObserver, credPublisher, credBroker] with
  | some (_, c) =>
    if c.kind.toNat = credOwner then some .owner
    else if c.kind.toNat = credOperator then some .operator
    else if c.kind.toNat = credObserver then some .observer
    else none
  | none => none

/-- A CLAIM accepted: its key becomes the OWNER in entry 0 (R395), and leaves another entry that held it (R394). -/
def State.claimOwner (s : State) (key : List Byte) : State :=
  let d := Config.sha3 key
  ({ s with sec := { s.sec with creds := s.sec.creds.filter (fun (p : Nat × Cred) => p.2.digest != d) } }).credWrite 0
    { kind := 1, digest := d, key := key } 0x09

/-- A session opens (R363, R392, R398). -/
def State.openSession (s : State) (x : Hs) (role : Role) : State × Ans :=
  let n := s.sessionNumber 66 s.cur.nextSession
  let t := transcript x.init x.resp
  let ses : Session := {
    number := n, role := role, isSealed := decide (x.mode ≠ 1), secret := x.secret, transcript := t, keys := kdf x.secret t lSess 72 }
  ({ s with cur := { s.cur with sessions := s.cur.sessions ++ [ses], nextSession := n + 1 } }, { session := some n })

/-- FINISH checked: the signature, the key's credential, the mode (R395, R398, R415). -/
def State.sessionFinish (s : State) (id : BitVec 32) (sig : List Byte) : State × Ans :=
  match s.sec.handshakes.find? (fun (x : Hs) => x.id == id) with
  | none => refused s .gone
  | some x =>
    if 64 ≤ s.cur.sessions.length then refused s .busy
    else
      let s := { s with sec := { s.sec with handshakes := s.sec.handshakes.filter (fun (y : Hs) => y.id != id) } }
      match (HsInit.of x.init).bind HsInit.key with
      | none => refused s .denied
      | some key =>
        let d := Config.sha3 key
        if s.modeDenied x.mode x.lane || !Config.dsaVerify key (hsIDigest x.init x.resp) sig then refused s .denied
        else match s.roleOf x.mode d with
          | none => refused s .denied
          | some role =>
            let s := if x.mode = 3 then s.claimOwner key else s
            s.openSession x role

/-- SESSION_OPEN with FINISH. -/
def execSessionOpenFinish (h : Hdr) (id : BitVec 32) (sig : List Byte) (s : State) : Out1 :=
  .next (s.command h (fun h => .sessionOpenFinish h id sig) 0x0501 (fun s => s.sessionFinish id sig))

/-- SESSION_CLOSE. -/
def execSessionClose (h : Hdr) (s : State) : Out1 :=
  .next (s.command h .sessionClose 0x0502 (fun s => (s.closeSession h.session, {})))

/-- HANDSHAKE_EXPIRE. -/
def execHandshakeExpire (id : BitVec 32) (s : State) : Out1 :=
  .next { s with sec := { s.sec with handshakes := s.sec.handshakes.filter (fun (x : Hs) => x.id != id) } }

/-! ## Attestation (R401 to R406) -/

def folioStateNo : FolioState → Nat
  | .registered => 0 | .decrypting => 1 | .opened => 2

/-- A list of byte strings, each behind its length. -/
def packed (l : List (List Byte)) : List Byte := (l.map (fun b => leBytes 4 b.length ++ b)).flatten

/-- Digest of the manifest of a Folio's claims, of the Productions', of the generations' (R402). -/
def claimProductions (s : State) : List Byte :=
  packed (s.cur.prods.map (fun (p : Nat × Production) =>
    packed [leBytes 4 p.1, leBytes 8 p.2.pid.toNat, p.2.digest, p.2.publisher, leBytes 1 (bit !p.2.cleared.isEmpty),
      (p.2.cleared.map (fun u => leBytes 4 (fld u 31 0))).flatten]))

def claimFolios (s : State) : List Byte :=
  packed (s.sec.folios.map (fun (p : Nat × Folio) => packed [leBytes 4 p.1, p.2.digest, leBytes 1 (folioStateNo p.2.state)]))

def claimGenerations (s : State) : List Byte :=
  packed ((List.range 4).map (fun st => leBytes 4 (s.stage st).resetGen.toNat) ++ (List.range 32).map (fun t => leBytes 4 (s.troupe t).resetGen.toNat) ++
    ((List.range 512).filter (fun c => (s.core c).resetGen != 0)).map (fun c => leBytes 4 c ++ leBytes 4 (s.core c).resetGen.toNat))

/-- The image of the running bank. -/
def Flash.bankImage (f : Flash) : List Byte := if f.bank then f.bankDigest1 else f.bankDigest0

/-- The ordering code TKV-2048-LC and the stepping B0, in ASCII (R402). -/
def orderingCode : List Byte := [0x54, 0x4B, 0x56, 0x2D, 0x32, 0x30, 0x34, 0x38, 0x2D, 0x4C, 0x43]
def stepping : List Byte := [0x42, 0x30]

/-- The claims of a report as they stand now, each as plain bytes (R402); CBOR is left to `Config.cbor`. -/
def State.claims (s : State) (nonce : List Byte) (chain : Bool) : List (Nat × List Byte) :=
  [(1, nonce), (2, packed [orderingCode, stepping, s.flash.serial, Config.sha3 idPublic, kemPublic])] ++ (if chain then [(3, Config.deviceChain)] else []) ++
  [(4, Config.bootDigests s.flash.bankImage), (5, leBytes 4 s.sec.secVersion.toNat), (6, packed s.cur.catApplied),
    (7, packed [Config.sha3 s.flash.calPage, leBytes 1 (bit !s.mod.calValid)]), (8, claimProductions s), (9, claimFolios s),
    (10, claimGenerations s), (11, leBytes 8 s.sec.measGen.toNat), (12, packed [leBytes 1 (updateCode s.cur.updateState), s.cur.stagedDigest]),
    (13, packed [leBytes 1 (bit s.cur.rehearsal), leBytes 1 (bit s.sec.hostConf), (s.sec.namedHosts.map (fun d => leBytes 2 d.toNat)).flatten]),
    (14, Config.sha3 (packed ((List.range 32).map (fun e => leBytes 1 (s.cred e).kind.toNat ++ (s.cred e).digest)))),
    (15, packed [leBytes 1 s.vault.keyLive.toNat, leBytes 4 s.vault.keyEpoch0.toNat, leBytes 4 s.vault.keyEpoch1.toNat]), (16, leBytes 8 s.now)]

/-- The second of the Curator's timer, of 10^9 ticks (R333). -/
def State.second (s : State) : Nat := s.now / 1000000000

/-- Reports answered in this second (R401). -/
def State.attestsNow (s : State) : Nat := if s.sec.attestSecond = s.second then s.sec.attestCount else 0

/-- ATTEST: the report, its nonce and digest kept (R401, R404, R406). -/
def State.attest (s : State) (nonce : List Byte) (options : BitVec 32) : State × Ans :=
  if nonce.length < 32 ∨ 64 < nonce.length ∨ 1 < options.toNat then refused s .badParam
  else if 200 ≤ s.attestsNow then refused { s with sec := { s.sec with attestBusy := satInc s.sec.attestBusy } } .busy
  else
    let p := Config.cbor (s.claims nonce (options == 1))
    let r : Report := { nonce := nonce, digest := Config.sha3 p, measGen := s.sec.measGen }
    ({ s with
      sec := { s.sec with attestCount := s.attestsNow + 1, attestSecond := s.second, reports := last64 (s.sec.reports ++ [r]) } },
      { fields := [.data (Config.cose idSeed p), .value s.sec.measGen] })

/-- ATTEST. -/
def execAttest (h : Hdr) (nonce : List Byte) (options : BitVec 32) (s : State) : Out1 :=
  .next (s.command h (fun h => .attest h nonce options) 0x0500 (fun s => s.attest nonce options))

/-! ## Folios: key release and decryption (R407 to R411) -/

/-- Fields of a manifest (R407). -/
def Folio.contentBytes (f : Folio) : Nat := ofLe ((f.manifest.drop 16).take 8)
def Folio.allowedN (f : Folio) : Nat := bitsOf (ofLe (f.manifest.take 32)) 227 224
def Folio.keyCheck (f : Folio) : List Byte := (f.manifest.drop 96).take 32
def Folio.allowed (f : Folio) : List (List Byte) := (chunksOf 8 64 ((f.manifest.drop 128).take 512)).take f.allowedN
def Folio.sealedJob (f : Folio) : Bool := bitOf (ofLe (f.manifest.take 8)) 48

/-- A Folio. -/
def State.folio (s : State) (k : Nat) : Option Folio := (s.sec.folios.find? (fun (p : Nat × Folio) => p.1 == k)).map (·.2)
def State.setFolio (s : State) (k : Nat) (f : Folio) : State := { s with sec := { s.sec with folios := Tab.set s.sec.folios k f } }

/-- A wrap record (R409). -/
structure WrapRec where
  nonce   : List Byte
  ct      : List Byte
  wrapped : List Byte
  broker  : List Byte
  sig     : List Byte
  covered : List Byte
deriving DecidableEq, Repr

def wrapBytes : Nat := 6427

/-- A wrap record read; none where its length or a reserved value is wrong. -/
def WrapRec.of (b : List Byte) : Option WrapRec :=
  let n := ofLe ((b.drop 64).take 1)
  if b.length ≠ wrapBytes ∨ n < 32 ∨ 64 < n ∨ (b.take 64).drop n ≠ List.replicate (64 - n) 0 then none
  else some {
    nonce := b.take n, ct := (b.drop 128).take 1568, wrapped := (b.drop 1696).take 40, broker := (b.drop 1736).take 64,
    sig := b.drop 1800, covered := b.take 1800 }

/-- The content key, where decapsulation and unwrap succeed and KEY_CHECK matches (step 6). -/
def unwrapKey (f : Folio) (r : WrapRec) (p : Report) : Option (List Byte) :=
  ((Config.kemDecap kemSeed r.ct).bind (fun ss => Config.keyUnwrap (kdf ss (p.nonce ++ p.digest) lFolio 32) r.wrapped)).filter
    (fun k => kdf k [] lKcv 32 == f.keyCheck)

/-- Step 7: every loaded Production's publisher is allowed; a SEALED_JOB needs Rehearsal mode off. -/
def State.releaseOk (s : State) (f : Folio) : Bool :=
  (f.allowedN == 0 || s.cur.prods.all (fun (p : Nat × Production) => f.allowed.contains p.2.publisher)) && !(f.sealedJob && s.cur.rehearsal)

/-- The report a nonce names, the newest (step 4). -/
def State.reportOf (s : State) (nonce : List Byte) : Option Report := s.sec.reports.reverse.find? (fun (p : Report) => p.nonce == nonce)

/-- BSIG verifies under a BROKER credential's key (step 3). -/
def State.brokerOk (s : State) (f : Folio) (r : WrapRec) : Bool :=
  match s.credOf r.broker [credBroker] with
  | none => false
  | some (_, c) => Config.dsaVerify c.key (Config.sha3 (r.covered ++ f.digest)) r.sig

/-- The content key of a release, or how it fails: steps 1 to 7 in order. -/
def State.release (s : State) (k : Nat) (r : WrapRec) : Except Status (Folio × List Byte) :=
  match s.folio k with
  | none => .error .gone
  | some f =>
    if f.state ≠ .registered then .error .busy
    else if !s.brokerOk f r then .error .denied
    else match s.reportOf r.nonce with
      | none => .error .denied
      | some p =>
        if p.measGen ≠ s.sec.measGen then .error .denied
        else match unwrapKey f r p with
          | none => .error .denied
          | some key => if s.releaseOk f then .ok (f, key) else .error .denied

/-- FOLIO_KEY: the key installed and the Folio DECRYPTING, or a denial, counted and reported (R410, R417). -/
def State.folioKey (s : State) (k : Nat) (b : List Byte) : State × Ans :=
  match WrapRec.of b with
  | none => refused s .badParam
  | some r => match s.release k r with
    | .error e =>
      let s := { s with sec := { s.sec with keyDenials := satInc s.sec.keyDenials } }
      refused (s.secNotice { event := 0x02, status := e, folio := k }) e
    | .ok (f, key) => ((s.setFolio k { f with state := .decrypting, key := some key }).secNotice { event := 0x01, folio := k }, {})

/-- FOLIO_KEY. -/
def execFolioKey (h : Hdr) (k : BitVec 32) (b : List Byte) (s : State) : Out1 :=
  .next (s.command h (fun h => .folioKey h k b) 0x0510 (fun s => s.folioKey k.toNat b))

/-- One block of content decrypted: block `b` of chunk `c` (R408). -/
def ctrBlock (key : List Byte) (c b : Nat) (t : List Byte) : List Byte :=
  List.zipWith (· ^^^ ·) t (Config.aes256 key (beBytes 8 c ++ beBytes 8 b))

/-- Blocks decrypted in order, from block `i` of the content. -/
def ctrBlocks (key : List Byte) : Nat → List (List Byte) → List Byte
  | _, [] => []
  | i, t :: r => ctrBlock key (i / (chunkBytes / 16)) (i % (chunkBytes / 16)) t ++ ctrBlocks key (i + 1) r

/-- FOLIO_DECRYPT_DONE: the region holds the plaintext, the key is erased, the Folio is OPEN (R411). -/
def execFolioDecryptDone (k : Fin 32) (s : State) : Out1 :=
  match s.folio k.val with
  | none => .next s
  | some f => match f.state, f.key with
    | .decrypting, some key =>
      let b := s.bytes f.addr f.bytes
      let s := s.poke f.addr (ctrBlocks key 0 (chunksOf (b.length + 1) 16 b))
      .next ((s.setFolio k.val { f with state := .opened, key := none }).secNotice { event := 0x03, folio := k.val })
    | _, _ => .next s

/-- A Folio's region is zeroed and the Folio freed; one that was released is reported closed (R405, R411). -/
def State.folioClose (s : State) (k : Nat) (f : Folio) : State :=
  let s := s.zeroMem f.addr f.bytes
  let s := { s with sec := { s.sec with folios := Tab.erase s.sec.folios k } }
  if f.state = .registered then s else s.secNotice { event := 0x04, folio := k }

/-- FOLIO_UNLOAD: MEAS_GEN rises as the removal completes (R403). -/
def execFolioUnload (h : Hdr) (k : BitVec 32) (s : State) : Out1 :=
  .next (s.command h (fun h => .folioUnload h k) 0x0611 (fun s =>
    match s.folio k.toNat with
    | none => refused s .gone
    | some f => (({ s with sec := { s.sec with measGen := s.sec.measGen + 1 } }).folioClose k.toNat f, {})))

/-! ## VAULT_ROTATE and HOST_MODE (R414, R415) -/

/-- VAULT_ROTATE. -/
def State.vaultRotate (s : State) : Except Status (State × BitVec 32) :=
  if s.vault.sweepActive then .error .busy
  else if s.sec.vaultEpoch = 0xFFFFFFFF then .error .badParam
  else
    let e := s.sec.vaultEpoch + 1
    let v := { s.vault with
      sweepActive := true, keyLive := 3
      keyEpoch0 := if e.toNat % 2 = 0 then e else s.vault.keyEpoch0
      keyEpoch1 := if e.toNat % 2 = 1 then e else s.vault.keyEpoch1 }
    let s := ({ s with vault := v, sec := { s.sec with vaultEpoch := e } }).sweepStartAll (List.range 8)
    .ok ((s.secNotice { event := 0x05, epoch := e.toNat }).sweepDone, e)

/-- VAULT_ROTATE. -/
def execVaultRotate (h : Hdr) (s : State) : Out1 :=
  .next (s.command h .vaultRotate 0x0520 (fun s => answer s s.vaultRotate (fun (s, e) => (s, [.value (e.setWidth 64)]))))

/-- The session is SEALED. -/
def State.sealedSession (s : State) (n : BitVec 32) : Bool := (s.session n).any (fun x => x.isSealed)

/-- Host mode entered: SIGNED sessions close, a named host's associations without ASSOC_CONF go DOWN (R415). -/
def State.hostEnter (s : State) (ds : List (BitVec 16)) : State :=
  let s := { s with sec := { s.sec with hostConf := true, namedHosts := ds } }
  let s := s.closeSessions ((s.cur.sessions.filter (fun x => !x.isSealed)).map (·.number))
  let s := s.assocsDown (fun a => a.conf.isNone && ds.contains a.peer) (s.mio.assocs.map (fun (p : Nat × Assoc) => p.1))
  s.measure.secNotice { event := 0x06 }

/-- HOST_MODE, ACTION 1. -/
def execHostModeEnter (h : Hdr) (ds : List (BitVec 16)) (s : State) : Out1 :=
  .next (s.command h (fun h => .hostModeEnter h ds) 0x0530 (fun s =>
    if ds.isEmpty ∨ 8 < ds.length then refused s .badParam
    else if !s.sealedSession h.session then refused s .denied
    else (s.hostEnter ds, {})))

/-- HOST_MODE, ACTION 0; without effect in NORMAL mode. -/
def execHostModeLeave (h : Hdr) (s : State) : Out1 :=
  .next (s.command h .hostModeLeave 0x0530 (fun s =>
    if !s.sec.hostConf then (s, {})
    else (({ s with sec := { s.sec with hostConf := false, namedHosts := [] } }).measure.secNotice { event := 0x06 }, {})))

end Sys2Proof.Machine
end

