-- ==== Sys2Proof/Machine/Productions.lean ====
section
/-! DEFINITION. Productions: reading, checking, loading, running, stopping, unloading (opcodes 0x0200 to 0x0204, R379 to R381).
Log entry with the readings and choices that are the model's: 55. -/

namespace Sys2Proof.Machine

/-! ## The header and the sections (R379) -/

/-- A section. -/
structure Section where
  kind   : Nat
  target : W64
  data   : List Byte
deriving DecidableEq, Repr

/-- A Production as its header and section headers give it: what the signature covers, and the signature. -/
structure ProdImage where
  pid       : W64
  publisher : List Byte
  body      : List Byte
  sig       : List Byte
  sections  : List Section
deriving DecidableEq, Repr

/-- So many sections read from bytes; none where a bound is wrong or a kind reserved (a reserved field is ignored, R13). -/
def readSections : Nat → List Byte → Option (List Section)
  | 0, _ => some []
  | n + 1, b =>
    let v := ofLe (b.take 16)
    let len := bitsOf v 63 32
    let kind := bitsOf v 15 0
    if b.length < 16 + len ∨ len % 8 ≠ 0 ∨ kind = 0 ∨ 11 < kind then none
    else (readSections n (b.drop (16 + len))).map
      (fun l => { kind := kind, target := BitVec.ofNat 64 (bitsOf v 127 64), data := (b.drop 16).take len } :: l)

/-- Step 1: the header and the section bounds. -/
def ProdImage.of (b : List Byte) : Option ProdImage :=
  let h := ofLe (b.take 128)
  let n := bitsOf h 63 48
  let off := bitsOf h 255 192
  if b.length < 128 ∨ bitsOf h 31 0 ≠ 0x4B565052 ∨ bitsOf h 47 32 ≠ 1 ∨ n = 0 ∨ bitsOf h 191 128 ≠ b.length ∨
      off < 128 ∨ b.length ≠ off + sigBytes then none
  else (readSections n ((b.take off).drop 128)).map (fun l => {
    pid := BitVec.ofNat 64 (bitsOf h 127 64), publisher := (b.drop 32).take 64, body := b.take off, sig := b.drop off, sections := l })

/-- Step 2: the publisher's credential and signature, and what confines the device (R379, R412). -/
def State.prodSigned (s : State) (i : ProdImage) : Bool :=
  (match s.credOf i.publisher [credPublisher] with
    | none => false
    | some (_, c) => Config.dsaVerify c.key (Config.sha3 i.body) i.sig) &&
  s.sec.folios.all (fun (p : Nat × Folio) => !p.2.seals || p.2.allowedN == 0 || p.2.allowed.contains i.publisher)

/-! ## The contents of sections -/

/-- Items of k bytes. -/
def itemsOf (k : Nat) (b : List Byte) : List (List Byte) := chunksOf b.length k b

/-- Items of an 8-byte number and k bytes each. -/
def numItems (k : Nat) (b : List Byte) : List (Nat × List Byte) := (itemsOf (8 + k) b).map (fun x => (ofLe (x.take 8), x.drop 8))

/-- The cues of a cue image. -/
def cuesOf (b : List Byte) : List W128 := (itemsOf 16 b).map (fun x => BitVec.ofNat 128 (ofLe x))

/-- The member lists of Ensemble definitions: a count, then for each a count and so many names, of 8 bytes each. -/
def memberLists : Nat → List Byte → Option (List (List UnitName))
  | 0, b => if b.isEmpty then some [] else none
  | n + 1, b =>
    let k := ofLe (b.take 8)
    if b.length < 8 + 8 * k then none
    else (memberLists n (b.drop (8 + 8 * k))).map
      (fun l => (((itemsOf 8 ((b.drop 8).take (8 * k))).map (fun x => BitVec.ofNat 48 (ofLe x))) :: l))

def ensembleLists (b : List Byte) : Option (List (List UnitName)) := if b.length < 8 then none else memberLists (ofLe (b.take 8)) (b.drop 8)

/-- A collective with its tables, as a section brings it. -/
def collOfBytes (b : List Byte) : Coll :=
  let x : Coll := { posted := true, desc := BitVec.ofNat 2048 (ofLe (b.take 256)) }
  { x with
    ranks := (itemsOf 64 ((b.drop 256).take (64 * x.nRanks))).map (fun r => BitVec.ofNat 512 (ofLe r))
    counts := (itemsOf 8 (b.drop (256 + 64 * x.nRanks))).map (fun r => BitVec.ofNat 64 (ofLe r)) }

/-- The two configuration words of each endpoint. -/
def epWords (b : List Byte) : List (W64 × W64) :=
  (itemsOf 16 (b.take 256)).map (fun x => (BitVec.ofNat 64 (ofLe (x.take 8)), BitVec.ofNat 64 (ofLe (x.drop 8))))

/-- A tile's descriptor. -/
def tileOfBytes (b : List Byte) : Tile :=
  (({} : Tile).force 0 (BitVec.ofNat 64 (ofLe (b.take 8)))).force 8 (BitVec.ofNat 64 (ofLe (b.drop 8)))

/-- A tile descriptor without a reserved encoding: STATE, and in its tag FORMAT and PRODUCER; reserved fields are ignored (R13, R63, R84). -/
def tileWordOk (b : List Byte) : Bool :=
  let v := ofLe b
  bitsOf v 45 44 != 3 && decide (bitsOf v 99 96 ≤ 13) && bitsOf v 114 112 != 5 && bitsOf v 114 112 != 7

/-- User table slots (R125). -/
def userSlot (k : Nat) : Bool := decide ((8 ≤ k ∧ k < 16) ∨ (24 ≤ k ∧ k < 32))

def deviceKind (k : Nat) : Bool := decide (k = 6 ∨ 8 ≤ k ∧ k ≤ 10)

/-- The Core a section is for. -/
def State.sectionCore (s : State) (x : Section) : Option Nat := if fld x.target 63 48 = 0 then s.coreHere (x.target.setWidth 48) else none

/-- The target of a section is of the kind its table gives (R379). -/
def State.targetOk (s : State) (x : Section) : Bool :=
  if x.kind ≤ 5 then (s.sectionCore x).isSome
  else if deviceKind x.kind then x.target == BitVec.setWidth 64 (s.nameOf .device)
  else if x.kind = 7 then (devAddr x.target).any (fun a => a % 256 == 0 && spanRegion a 256 == some .gallery)
  else (devAddr x.target).any (fun a => x.data.isEmpty || (spanRegion a x.data.length).any (fun r => r != .registers))

/-- Step 3 for one section: its own rules. -/
def State.sectionOk (s : State) (x : Section) : Bool :=
  let n := x.data.length
  s.targetOk x &&
  (if x.kind = 1 then n % 16 == 0 && decide (n ≤ 16 * 16384) && (cuesOf x.data).all cueOk
  else if x.kind = 2 then n % 16 == 0 && decide (n ≤ 16 * 1024) && (itemsOf 16 x.data).all tileWordOk
  else if x.kind = 3 then n % 72 == 0 && (numItems 64 x.data).all (fun (k, b) => decide (k < 32) && descOk (BitVec.ofNat 512 (ofLe b)))
  else if x.kind = 4 then
    decide (256 ≤ n) && (n - 256) % 24 == 0 && (numItems 16 (x.data.drop 256)).all (fun (k, b) => decide (k < 16) && !bitOf (ofLe b) 127)
  else if x.kind = 5 then
    n % 4168 == 0 && (numItems 4160 x.data).all (fun (k, b) => userSlot k && decide ((slotOfBytes b).state = .valid))
  else if x.kind = 6 then ((ensembleLists x.data).map (fun l => l.all (fun ms => (s.membersFault none ms ms).isNone))).getD false
  else if x.kind = 7 then
    n % 264 == 0 && ((numItems 256 x.data).zipIdx).all (fun ((k, b), i) =>
      decide (k < 64) && (s.poke (x.target.toNat + 256 * i) b).shardOk k (x.target.toNat + 256 * i))
  else if x.kind = 8 then
    let k := collOfBytes x.data
    k.takes && n == 256 + 64 * k.nRanks + 8 * k.countEntries && k.tablesOk s.me
  else if x.kind = 9 then n == 264 && (numItems 256 x.data).all (fun (k, b) => decide (k < 16) && mapRecordOk (BitVec.ofNat 2048 (ofLe b)))
  else if x.kind = 10 then n % 16 == 0
  else true)

/-- Step 3: free entries for what the sections declare. -/
def State.roomOk (s : State) (l : List Section) : Bool :=
  let ens := ((l.filter (fun x => x.kind == 6)).map (fun x => (ensembleLists x.data).getD [])).flatten
  let used := s.ensembles.filter (fun (p : Nat × Ensemble) => p.2.defined)
  let sum := fun (l : List Nat) => l.foldl (· + ·) 0
  let shards := ((l.filter (fun x => x.kind == 7)).map (fun x => (numItems 256 x.data).map (·.1))).flatten
  let live := fun n => ((List.range 64).filter (fun i => (s.shard n i).state != .empty)).length
  decide (used.length + ens.length ≤ 4096) &&
  decide (sum (used.map (fun (p : Nat × Ensemble) => p.2.members.length)) + sum (ens.map (·.length)) ≤ 16384) &&
  (List.range 64).all (fun n => decide (live n + (shards.filter (· == n)).length ≤ 64)) &&
  decide ((s.coll.colls.filter (fun (p : Nat × Coll) => p.2.posted)).length + (l.filter (fun x => x.kind == 8)).length ≤ 256)

/-! ## Loading (R380) -/

/-- The Cores the sections name, each once. -/
def State.prodCores (s : State) (l : List Section) : List Nat := dedup (l.filterMap (fun x => if x.kind ≤ 5 then s.sectionCore x else none))

/-- A Core belongs to a loaded Production. -/
def State.claimed (s : State) (c : Nat) : Bool := s.cur.prods.any (fun (p : Nat × Production) => p.2.cores.contains c)

/-- Step 4 for one Core. -/
def State.claimFault (s : State) (c : Nat) : Option Status :=
  let x := s.core c
  if x.dark then some .dark
  else if x.inReset then some .reset
  else if (x.p.state ≠ .idle ∧ x.p.state ≠ .halted) ∨ s.claimed c ∨ s.holding c then some .busy
  else none

/-- Words and handles of the endpoints set. -/
def Core.setEps (x : Core) : Nat → List (W64 × W64) → Core
  | _, [] => x
  | h, (w0, w1) :: t => Core.setEps (x.modEp h (fun e => (e.write1 w1).write0 w0)) (h + 1) t

/-- A handle injected whole; none where 64 are present. -/
def Core.injectAll (x : Core) : List (Nat × List Byte) → Option Core
  | [] => some x
  | (h, b) :: t =>
    let e : Endpoint := Tab.get {} x.str.eps h
    if 64 ≤ e.waiting.length + e.held.length then none
    else Core.injectAll (x.modEp h (fun e => { e with waiting := e.waiting ++ [BitVec.ofNat 128 (ofLe b)] })) t

/-- Entries of a table set from 0 on. -/
def setFrom {α : Type} (t : Tab α) : Nat → List α → Tab α
  | _, [] => t
  | k, x :: r => setFrom (Tab.set t k x) (k + 1) r

/-- User slots loaded. -/
def Core.setSlots (x : Core) : List (Nat × List Byte) → Core
  | [] => x
  | (k, b) :: t => Core.setSlots (x.setTslot k (slotOfBytes b)) t

/-- Ensembles defined with LOCKED set. -/
def State.loadEnsembles (s : State) (p : Production) : List (List UnitName) → Except Status (State × Production)
  | [] => .ok (s, p)
  | ms :: t => match s.defineEnsemble ms 0 true with
    | .error e => .error e
    | .ok (k, s) => State.loadEnsembles s { p with ensembles := p.ensembles ++ [k] } t

/-- A load that stopped: what it had done, and the status met. -/
abbrev LoadEnd := (State × Production) × Option Status

/-- Shard records written and loaded. -/
def State.loadShards (s : State) (p : Production) (a : Nat) : List (Nat × List Byte) → LoadEnd
  | [] => ((s, p), none)
  | (n, b) :: t => match s.writeMem .command a b with
    | .error e => ((s, p), some e)
    | .ok s => match s.shardLoad n a with
      | .error e => ((s, p), some e)
      | .ok (i, s) => State.loadShards s { p with shards := p.shards ++ [(n, i)] } (a + 256) t

/-- Register writes in order. -/
def State.loadRegs (s : State) : List (Nat × List Byte) → State × Option Status
  | [] => (s, none)
  | (a, b) :: t => match s.regWriteTo none a (BitVec.ofNat 64 (ofLe b)) with
    | .error (e, s) => (s, some e)
    | .ok s => State.loadRegs s t

/-- A result carried into a load. -/
def loadEnd (s : State) (p : Production) : Except Status (State × Production) → LoadEnd
  | .error e => ((s, p), some e)
  | .ok x => (x, none)

/-- Step 5 for one section. -/
def State.loadSection (s : State) (p : Production) (x : Section) : LoadEnd :=
  let c := (s.sectionCore x).getD 0
  let onCore := fun (f : Core → Core) => ((s.modCore c f, p), none)
  if x.kind = 1 then onCore (fun y => y.modP (fun q => { q with cues := setFrom q.cues 0 (cuesOf x.data) }))
  else if x.kind = 2 then onCore (fun y => { y with tiles := setFrom y.tiles 0 ((itemsOf 16 x.data).map tileOfBytes) })
  else if x.kind = 3 then onCore (fun y => { y with
    str := { y.str with
    descs := (numItems 64 x.data).foldl (fun t (k, b) => Tab.set t k (BitVec.ofNat 512 (ofLe b))) y.str.descs } })
  else if x.kind = 4 then
    match ((s.core c).setEps 0 (epWords x.data)).injectAll (numItems 16 (x.data.drop 256)) with
    | none => ((s, p), some .badParam)
    | some y => ((s.setCore c y, p), none)
  else if x.kind = 5 then
    ((s.modCore c (fun y => y.setSlots (numItems 4160 x.data)), { p with
      tables := p.tables ++ (numItems 4160 x.data).map (fun (k, b) => (c, k, b)) }), none)
  else if x.kind = 6 then loadEnd s p (s.loadEnsembles p ((ensembleLists x.data).getD []))
  else if x.kind = 7 then s.loadShards p x.target.toNat (numItems 256 x.data)
  else if x.kind = 8 then
    loadEnd s p ((s.collPlace (collOfBytes x.data)).map (fun (k, s) => (s, { p with colls := p.colls ++ [k] })))
  else if x.kind = 9 then
    let m := ofLe (x.data.take 8)
    loadEnd s p ((s.mappingPlace m (BitVec.ofNat 2048 (ofLe (x.data.drop 8)))).map (fun s => (s, { p with maps := p.maps ++ [m] })))
  else if x.kind = 10 then
    let (s, e) := s.loadRegs (numItems 8 x.data)
    ((s, p), e)
  else loadEnd s p ((s.writeMem .command x.target.toNat x.data).map (fun s => (s, p)))

/-- Step 5: sections in order, until one fails. -/
def State.loadSections (s : State) (p : Production) : List Section → LoadEnd
  | [] => ((s, p), none)
  | x :: t => match s.loadSection p x with
    | (r, some e) => (r, some e)
    | ((s, p), none) => State.loadSections s p t

/-- Shards emptied. -/
def State.dropShards (s : State) : List (Nat × Nat) → State
  | [] => s
  | (n, i) :: t => State.dropShards (s.shardEmpty n i) t

/-- Cores released with their cue stores cleared. -/
def State.releaseCores (s : State) : List Nat → State
  | [] => s
  | c :: t => State.releaseCores (s.modCore c (fun x => x.modP (fun p => { p with cues := [] }))) t

/-- A Production's shards, Ensembles, collectives and mappings removed, its Cores released (R380, R381). -/
def State.prodRemove (s : State) (p : Production) : State :=
  let s := (s.dropShards p.shards).releaseCores p.cores
  { s with
    ensembles := Tab.drop (fun k => p.ensembles.contains k) s.ensembles
    coll := { s.coll with colls := Tab.drop (fun k => p.colls.contains k) s.coll.colls, maps := Tab.drop (fun k => p.maps.contains k) s.coll.maps } }

/-- A free Production entry of 32. -/
def State.freeProd (s : State) : Option Nat := freeEntry (s.cur.prods.map (fun (p : Nat × Production) => p.1)) 32

/-- Steps 1 to 6: the index and PID, or the status with the state it leaves. -/
def State.prodLoad (s : State) (b : List Byte) : Except (Status × State) (Nat × W64 × State) :=
  match ProdImage.of b with
  | none => .error (.badParam, s)
  | some i =>
    if !s.prodSigned i then .error (.denied, s)
    else if !i.sections.all s.sectionOk || !s.roomOk i.sections then .error (.badParam, s)
    else match s.freeProd with
      | none => .error (.busy, s)
      | some k =>
        let cores := s.prodCores i.sections
        match firstFail (cores.map s.claimFault) with
        | some e => .error (e, s)
        | none =>
          let p : Production := { used := true, pid := i.pid, digest := Config.sha3 i.body, publisher := i.publisher, cores := cores }
          match s.loadSections p i.sections with
          | ((s, p), some e) => .error (e, s.prodRemove p)
          | ((s, p), none) => .ok (k, i.pid, ({ s with cur := { s.cur with prods := Tab.set s.cur.prods k p } }).measure)

/-- A section whose bytes go to the Wings of a Core under takeover waits at its door (R428). -/
def State.loadHeld (s : State) (b : List Byte) : Bool :=
  ((ProdImage.of b).map (fun i => i.sections.any (fun x => x.kind == 11 && (s.heldBy x.target.toNat x.data.length).isSome))).getD false

/-- The end of PRODUCTION_LOAD: the result of its slot. -/
def State.prodEnd (s : State) (k : Nat) (a n : Nat) : State :=
  match s.readMem .unit a n with
  | .error e => (s.countRead a n e).slotEnds k e []
  | .ok b =>
    if s.loadHeld b then s
    else match s.prodLoad b with
      | .error (e, s) => s.slotEnds k e []
      | .ok (i, pid, s) => s.slotEnds k .ok [.index (BitVec.ofNat 32 i), .value pid]

/-- PRODUCTION_LOAD: accepted; the load runs as its slot ends. -/
def execProductionLoad (h : Hdr) (a n : BitVec 64) (nq : Option QueueNo) (s : State) : Out1 :=
  .next (s.command h (fun h => .productionLoad h a n nq) 0x0200 (fun s =>
    s.async h 0x0200 nq (fun s _ => match devAddr a with
      | none => .error .badParam
      | some x =>
        if n = 0 ∨ spanRegion x n.toNat = none ∨ spanRegion x n.toNat = some .registers then .error .badParam
        else .ok (s, .production 0 x n.toNat, []))))

/-! ## Running, stopping, unloading (R381) -/

/-- A loaded Production. -/
def State.prod (s : State) (k : BitVec 32) : Option Production := (s.cur.prods.find? (fun (p : Nat × Production) => p.1 == k.toNat)).map (·.2)

/-- The Cores a command acts on: all of the Production's, or those of a unit, each of them the Production's. -/
def State.prodUnit (s : State) (p : Production) : Option UnitName → Except Status (List Nat)
  | none => .ok p.cores
  | some u => match nameRef u with
    | none => .error .badParam
    | some r =>
      let x := s.expand u
      if !s.isHere u ∨ !x.far.isEmpty then .error .badParam
      else if 0 < x.gone then .error .gone
      else if !x.leaves.all (fun c => p.cores.contains c) then .error .badParam
      else .ok (if r.depth = 0 then x.leaves else dedup x.leaves)

/-- A Core that RUN starts. -/
def Core.startable (x : Core) : Bool := x.open && (x.p.state == .idle || x.p.state == .halted)

/-- RUN written on Cores. -/
def State.runCores (s : State) (f : Core → Core) : List Nat → State
  | [] => s
  | c :: t => State.runCores (s.modCore c f) f t

/-- PRODUCTION_RUN. -/
def State.prodRun (s : State) (k : BitVec 32) (u : Option UnitName) : Except Status (Nat × State) :=
  match s.prod k with
  | none => .error .gone
  | some p => match s.prodUnit p u with
    | .error e => .error e
    | .ok cs =>
      let l := cs.filter (fun c => (s.core c).startable)
      .ok (l.length, s.runCores Core.runStart l)

/-- PRODUCTION_RUN. -/
def execProductionRun (h : Hdr) (k : BitVec 32) (u : Option (BitVec 48)) (s : State) : Out1 :=
  .next (s.command h (fun h => .productionRun h k u) 0x0201 (fun s =>
    answer s (s.prodRun k u) (fun (n, s) => (s, [.count (BitVec.ofNat 32 n)]))))

/-- A Core that RUN stops. -/
def Core.running (x : Core) : Bool := x.p.state == .running || x.p.state == .hold

/-- PRODUCTION_STOP. -/
def State.prodStop (s : State) (k : BitVec 32) (u : Option UnitName) : Except Status State :=
  match s.prod k with
  | none => .error .gone
  | some p => (s.prodUnit p u).map (fun cs => s.runCores Core.runStop (cs.filter (fun c => (s.core c).running && (s.core c).open)))

/-- PRODUCTION_STOP. -/
def execProductionStop (h : Hdr) (k : BitVec 32) (u : Option (BitVec 48)) (s : State) : Out1 :=
  .next (s.command h (fun h => .productionStop h k u) 0x0202 (fun s => answerState s (s.prodStop k u)))

/-- An Ensemble outside the Production holds one of its Ensembles. -/
def State.outerParent (s : State) (p : Production) (e : Nat) : Bool :=
  s.ensembles.any (fun (q : Nat × Ensemble) => q.2.defined && !p.ensembles.contains q.1 && q.2.members.contains (s.nameOf (.ensemble e)))

/-- What refuses an unload (R34, R234, R356, R381). -/
def State.prodBusy (s : State) (p : Production) : Bool :=
  p.cores.any (fun c => (s.core c).running) ||
  p.shards.any (fun (n, i) => s.shardHeld n i) ||
  p.ensembles.any (fun e => s.inRun e || s.outerParent p e || s.cur.resets.any (fun r => r.ensemble == some e)) ||
  p.colls.any (fun k => (s.collOf k).now.isSome || (s.collOf k).kept ||
    s.coll.maps.any (fun (m : Nat × Mapping) => m.2.valid && !p.maps.contains m.1 && m.2.lists.any (fun l => l.contains (BitVec.ofNat 32 (s.collOf k).id)))) ||
  p.maps.any (fun m => (s.mapping m).transition)

/-- PRODUCTION_UNLOAD. -/
def State.prodUnload (s : State) (k : BitVec 32) : Except Status State :=
  match s.prod k with
  | none => .error .gone
  | some p =>
    if s.prodBusy p then .error .busy
    else
      let s := s.prodRemove p
      .ok ({ s with cur := { s.cur with prods := Tab.erase s.cur.prods k.toNat } }).measure

/-- PRODUCTION_UNLOAD. -/
def execProductionUnload (h : Hdr) (k : BitVec 32) (s : State) : Out1 :=
  .next (s.command h (fun h => .productionUnload h k) 0x0203 (fun s => answerState s (s.prodUnload k)))

/-- PRODUCTION_LIST. -/
def execProductionList (h : Hdr) (s : State) : Out1 :=
  .next (s.command h .productionList 0x0204 (fun s =>
    (s, { fields := [.data ((s.cur.prods.map (fun (p : Nat × Production) => leBytes 4 p.1 ++ leBytes 8 p.2.pid.toNat ++ p.2.digest)).flatten)] })))

end Sys2Proof.Machine
end

