-- ==== Sys2Proof/Machine/Services.lean ====
section
/-! DEFINITION. Storage attachments, Folio loading and checkpoints (opcodes 0x0600 to 0x0621, R382 to R384, R407, R413), and the end
of asynchronous commands (R372).
Log entry with the readings and choices that are the model's: 56. -/

namespace Sys2Proof.Machine

/-! ## Attachments (R382) -/

def attachments : Nat := 16

/-- An attachment. -/
def State.attachOf (s : State) (k : BitVec 32) : Option Attach :=
  (s.cur.attach.find? (fun (p : Nat × Attach) => p.1 == k.toNat)).map (·.2)

/-- The attachment a command's work uses. -/
def workAttach : Work → Option Nat
  | .storeRead a _ _ => some a
  | .storeWrite a => some a
  | .folioLoad a _ _ => some a
  | .checkpointWrite a _ _ _ => some a
  | .checkpointRestore a => some a
  | .storeAttach _ _ _ _ => none
  | .none => none
  | .production _ _ _ => none
  | .memFill _ _ _ => none
  | .root _ => none
  | .assoc _ => none
  | .migrate => none
  | .describe => none
  | .restoring _ _ _ => none
  | .failed _ => none

/-- The storage answers for this work. -/
def workStores : Work → Bool
  | .storeAttach _ _ _ _ => true
  | w => (workAttach w).isSome

/-- Shards a command's work holds (R384). -/
def workHolds : Work → List (Nat × Nat)
  | .checkpointWrite _ _ _ l => l
  | _ => []

/-- A list less one occurrence of each element of another. -/
def withoutOnce : List (Nat × Nat) → List (Nat × Nat) → List (Nat × Nat)
  | l, [] => l
  | l, x :: t => withoutOnce (l.erase x) t

/-- A storage command ends; the shards it held are free. -/
def State.storeEnds (s : State) (k : Nat) (st : Status) (fs : List Fld) : State :=
  let l := workHolds (s.slot k).work
  ({ s with cur := { s.cur with ckptHolds := withoutOnce s.cur.ckptHolds l } }).slotEnds k st fs

/-- The slots whose work uses an attachment. -/
def State.slotsOn (s : State) (a : Nat) : List Nat :=
  (s.cur.slots.filter (fun (p : Nat × Slot) => workAttach p.2.work == some a)).map (fun (p : Nat × Slot) => p.1)

/-- Storage commands that end with GONE. -/
def State.storesGone (s : State) : List Nat → State
  | [] => s
  | k :: t => State.storesGone (s.storeEnds k .gone []) t

/-- An attachment is lost or removed: its commands end with GONE. -/
def State.attachGone (s : State) (a : Nat) : State :=
  let s := s.storesGone (s.slotsOn a)
  { s with cur := { s.cur with attach := Tab.erase s.cur.attach a } }

/-- Bytes of a logical block. -/
def Attach.block (x : Attach) (nsid : BitVec 32) : Nat := if Config.bigBlocks x.nqn nsid then 4096 else 512

/-- A span of the Vault. -/
def vaultSpan (a : W64) (n : Nat) : Option Nat :=
  (devAddr a).filter (fun x => if n = 0 then regionOf x == some .vault else spanRegion x n == some .vault)

/-- STORE_ATTACH. -/
def execStoreAttach (h : Hdr) (ip : BitVec 128) (l4 : Option (BitVec 16)) (nqn : List Byte) (action : BitVec 8) (nq : Option QueueNo)
    (s : State) : Out1 :=
  .next (s.command h (fun h => .storeAttach h ip l4 nqn action nq) 0x0600 (fun s =>
    s.async h 0x0600 nq (fun s _ =>
      if 1 < action.toNat ∨ nqn.isEmpty ∨ 223 < nqn.length then .error .badParam
      else if attachments ≤ s.cur.attach.length then .error .busy
      else .ok (s, .storeAttach ip (l4.getD 4420) nqn (action == 1), []))))

/-- STORE_DETACH. -/
def execStoreDetach (h : Hdr) (k : BitVec 32) (s : State) : Out1 :=
  .next (s.command h (fun h => .storeDetach h k) 0x0601 (fun s =>
    if (s.attachOf k).isNone then refused s .gone else (s.attachGone k.toNat, {})))

/-- What a storage command asks of its attachment leaves by the main ports. -/
def State.storeOut (s : State) (k : BitVec 32) (write : Bool) (nsid : BitVec 32) (lba : W64) (blocks : Nat) (b : List Byte) : State :=
  { s with out := s.out ++ [Out.storage k.toNat write nsid lba blocks b] }

/-- STORE_READ: the blocks are asked for; their bytes are written as the command ends. -/
def execStoreRead (h : Hdr) (k nsid : BitVec 32) (lba : BitVec 64) (blocks : BitVec 32) (a : BitVec 64) (nq : Option QueueNo)
    (s : State) : Out1 :=
  .next (s.command h (fun h => .storeRead h k nsid lba blocks a nq) 0x0602 (fun s =>
    s.async h 0x0602 nq (fun s _ => match s.attachOf k with
      | none => .error .gone
      | some x =>
        let n := blocks.toNat * x.block nsid
        match vaultSpan a n with
        | none => .error .badParam
        | some v =>
          if blocks = 0 then .error .badParam
          else .ok (s.storeOut k false nsid lba blocks.toNat [], .storeRead k.toNat v n, []))))

/-- STORE_WRITE: the bytes are read at once and sent; a read that fails ends the command. -/
def execStoreWrite (h : Hdr) (k nsid : BitVec 32) (lba a n : BitVec 64) (nq : Option QueueNo) (s : State) : Out1 :=
  .next (s.command h (fun h => .storeWrite h k nsid lba a n nq) 0x0603 (fun s =>
    s.async h 0x0603 nq (fun s _ => match s.attachOf k with
      | none => .error .gone
      | some x => match vaultSpan a n.toNat with
        | none => .error .badParam
        | some v =>
          if n = 0 ∨ n.toNat % x.block nsid ≠ 0 then .error .badParam
          else match s.readMem .command v n.toNat with
            | .error e => .ok (s.countRead v n.toNat e, .failed e, [])
            | .ok b => .ok (s.storeOut k true nsid lba (n.toNat / x.block nsid) b, .storeWrite k.toNat, []))))

/-- STORE_CONNECTION_LOST. -/
def execStoreConnectionLost (k : Fin 16) (s : State) : Out1 := .next (s.attachGone k.val)

/-! ## Folios (R383, R407) -/

/-- A Folio manifest read from an image: its bytes, its digest, its chunk digests, where the content begins. -/
structure FolioManifest where
  whole     : List Byte
  digest    : List Byte
  publisher : List Byte
  sig       : List Byte
  bytes     : Nat
  chunks    : List (List Byte)
  content   : List Byte
deriving DecidableEq, Repr

/-- The manifest of an image; none where it is malformed (R407). -/
def FolioManifest.of (b : List Byte) : Option FolioManifest :=
  let h := ofLe (b.take 640)
  let n := bitsOf h 191 128
  let c := bitsOf h 223 192
  let m := 640 + 64 * c
  if b.length < m + sigBytes ∨ bitsOf h 31 0 ≠ 0x4B56464F ∨ bitsOf h 47 32 ≠ 1 ∨ 8 < bitsOf h 227 224 ∨ c ≠ ceilDiv n chunkBytes then none
  else some {
    whole := b.take (m + sigBytes), digest := Config.sha3 (b.take m), publisher := (b.drop 32).take 64, sig := (b.drop m).take sigBytes
    bytes := n, chunks := chunksOf c 64 ((b.drop 640).take (64 * c)), content := b.drop (roundUp (m + sigBytes) 4096) }

/-- The signature verifies under a PUBLISHER credential's key. -/
def State.folioSigned (s : State) (m : FolioManifest) : Bool :=
  match s.credOf m.publisher [credPublisher] with
  | none => false
  | some (_, c) => Config.dsaVerify c.key m.digest m.sig

/-- The content, where every chunk has its digest. -/
def FolioManifest.verified (m : FolioManifest) : Option (List Byte) :=
  let b := m.content.take m.bytes
  if b.length = m.bytes ∧ (chunksOf m.chunks.length chunkBytes b).map Config.sha3 = m.chunks then some b else none

/-- A free Folio entry of 32. -/
def State.freeFolio (s : State) : Option Nat := freeEntry (s.sec.folios.map (fun (p : Nat × Folio) => p.1)) 32

/-- A Folio registered: MEAS_GEN rises (R403). -/
def State.folioRegister (s : State) (k : Nat) (a : Nat) (m : FolioManifest) (only : Bool) : State × List Fld :=
  ((s.setFolio k { addr := a, bytes := m.bytes, manifest := m.whole, digest := m.digest, manifestOnly := only }).measure,
    [.index (BitVec.ofNat 32 k), .count (BitVec.ofNat 32 m.chunks.length), .digest m.digest])

/-- FOLIO_LOAD carried out on the image read. -/
def State.folioTake (s : State) (a : Nat) (only : Bool) (b : List Byte) : Except Status (State × List Fld) :=
  match FolioManifest.of b, s.freeFolio with
  | none, _ => .error .badParam
  | some _, none => .error .busy
  | some m, some k =>
    if !s.folioSigned m then .error .denied
    else if (vaultSpan (BitVec.ofNat 64 a) m.bytes).isNone then .error .badParam
    else if only then .ok (s.folioRegister k a m true)
    else match m.verified with
      | none => .error .integrity
      | some c => match s.writeMem .command a c with
        | .error e => .error e
        | .ok s => .ok (s.folioRegister k a m false)

/-- FOLIO_LOAD; its image is asked for, as many blocks as its manifest gives. -/
def execFolioLoad (h : Hdr) (k nsid : BitVec 32) (lba a : BitVec 64) (options : BitVec 32) (nq : Option QueueNo) (s : State) : Out1 :=
  .next (s.command h (fun h => .folioLoad h k nsid lba a options nq) 0x0610 (fun s =>
    s.async h 0x0610 nq (fun s _ =>
      if 1 < options.toNat then .error .badParam
      else match s.attachOf k, vaultSpan a 0 with
        | none, _ => .error .gone
        | some _, none => .error .badParam
        | some _, some v =>
          if s.freeFolio.isNone then .error .busy
          else .ok (s.storeOut k false nsid lba 0 [], .folioLoad k.toNat v (options == 1), []))))

/-! ## Checkpoints (R384, R413) -/

/-- A piece of a checkpoint's content: an address, of the fabric or of this device, and its length. -/
structure CkptPiece where
  fab  : Bool
  addr : Nat
  len  : Nat
deriving DecidableEq, Repr

/-- The pieces of a shard: its record, the slot SLOT names, FACTORS and ROOTS. -/
def State.shardPieces (s : State) (n i : Nat) : Except Status (List CkptPiece) :=
  let a := s.recAt n i
  match s.readRule a with
  | .error e => .error e.st
  | .ok u =>
    let (l, r) := s.factorOrders a
    let all := l ++ r
    let slot : CkptPiece := { fab := s.rFab a 0, addr := s.rSlotBase a (s.rSlot a), len := 4 * s.rN a * (1 + moments (uId u) + bit (s.rComp a)) }
    let fac : CkptPiece := { fab := s.rFab a 3, addr := s.recGet a 575 512, len := offsetOf packedBytes all all.length }
    let roots : CkptPiece := { fab := s.rFab a 3, addr := s.recGet a 639 576, len := offsetOf (fun o => 4 * o * o) all all.length }
    .ok ({ fab := false, addr := a, len := 256 } :: slot :: (if s.rSource a = 0 then [] else [fac, roots]))

/-- An entry of a checkpoint list: its kind and two words. -/
abbrev CkptEntry := Nat × Nat × Nat

/-- A checkpoint list: a 4-byte count, then 24-byte entries of three 8-byte words. -/
def State.ckptList (s : State) (a : Nat) : Except Status (List CkptEntry) :=
  match s.readMem .unit a 4 with
  | .error e => .error e
  | .ok c => match s.readMem .unit (a + 4) (24 * ofLe c) with
    | .error e => .error e
    | .ok b => .ok ((itemsOf 24 b).map (fun x => (ofLe (x.take 8), ofLe ((x.drop 8).take 8), ofLe (x.drop 16))))

/-- The shards a list names. -/
def listShards (l : List CkptEntry) : List (Nat × Nat) := (l.filter (fun x => x.1 == 1)).map (fun x => x.2)

/-- An entry that names nothing a checkpoint can hold. -/
def State.ckptFault (s : State) (x : CkptEntry) : Option Status :=
  let (k, a, b) := x
  if k = 0 then
    (if 0 < b ∧ (spanRegion a b).any (fun r => r != .registers) then none else some .badParam)
  else if k = 1 then
    (if 64 ≤ a ∨ 64 ≤ b then some .badParam
    else if (s.con a).inReset then some .reset
    else if (s.shard a b).state = .empty then some .gone else none)
  else some .badParam

/-- The pieces of a list. -/
def State.ckptPieces (s : State) : List CkptEntry → Except Status (List CkptPiece)
  | [] => .ok []
  | (k, a, b) :: t =>
    match (if k = 0 then .ok [{ fab := false, addr := a, len := b }] else s.shardPieces a b), State.ckptPieces s t with
    | .error e, _ => .error e
    | .ok _, .error e => .error e
    | .ok l, .ok r => .ok (l ++ r)

/-- The bytes of the pieces. -/
def State.ckptRead (s : State) : List CkptPiece → Except Status (List Byte)
  | [] => .ok []
  | p :: t => match s.consRead p.fab p.addr p.len, State.ckptRead s t with
    | .error e, _ => .error e.st
    | .ok _, .error e => .error e
    | .ok b, .ok r => .ok (b ++ r)

/-- The IV of chunk c (R413). -/
def ckptIv (c : Nat) : List Byte := [0, 0, 0, 0] ++ beBytes 8 c

/-- Chunks encrypted, from number c on: each ciphertext with its tag. -/
def ckptSeal (key : List Byte) : Nat → List (List Byte) → List (List Byte × List Byte)
  | _, [] => []
  | c, b :: t => Config.gcmSeal key (ckptIv c) b :: ckptSeal key (c + 1) t

/-- What a manifest holds. -/
structure CkptManifest where
  salt   : List Byte
  pieces : List CkptPiece
  shards : List (Nat × Nat)
  sums   : List (List Byte × List Byte)
deriving DecidableEq, Repr

def pieceBytes (p : CkptPiece) : List Byte := leBytes 8 (bit p.fab) ++ leBytes 8 p.addr ++ leBytes 8 p.len
def shardBytes (x : Nat × Nat) : List Byte := leBytes 1 x.1 ++ leBytes 1 x.2

/-- The signed bytes of a manifest: the model's own layout, the spec gives none. -/
def CkptManifest.bytes (m : CkptManifest) : List Byte :=
  leBytes 4 m.pieces.length ++ leBytes 4 m.shards.length ++ leBytes 4 m.sums.length ++ m.salt ++ (m.pieces.map pieceBytes).flatten ++
    (m.shards.map shardBytes).flatten ++ (m.sums.map (fun x => x.1 ++ x.2)).flatten

/-- A manifest read from an image: itself, its signed bytes, its signature, the ciphertext. -/
def CkptManifest.of (b : List Byte) : CkptManifest × List Byte × List Byte × List Byte :=
  let np := ofLe (b.take 4)
  let ns := ofLe ((b.drop 4).take 4)
  let nc := ofLe ((b.drop 8).take 4)
  let p := b.drop 44
  let sh := p.drop (24 * np)
  let c := sh.drop (2 * ns)
  let n := 44 + 24 * np + 2 * ns + 80 * nc
  ({
    salt := (b.drop 12).take 32
    pieces := (itemsOf 24 (p.take (24 * np))).map (fun x => { fab := ofLe (x.take 8) == 1, addr := ofLe ((x.drop 8).take 8), len := ofLe (x.drop 16) })
    shards := (itemsOf 2 (sh.take (2 * ns))).map (fun x => (ofLe (x.take 1), ofLe (x.drop 1)))
    sums := (itemsOf 80 (c.take (80 * nc))).map (fun x => (x.take 64, x.drop 64)) },
    b.take n, (b.drop n).take sigBytes, b.drop (roundUp (n + sigBytes) 4096))

/-- A checkpoint of a content: the digest of its manifest, and its image. -/
def State.ckptImage (s : State) (ps : List CkptPiece) (shards : List (Nat × Nat)) (content : List Byte) : List Byte × List Byte :=
  let salt := fitBytes 32 (Config.secretBytes s.freeCtr)
  let cs := ckptSeal (ckptKey salt) 0 (chunksOf (content.length / chunkBytes + 1) chunkBytes content)
  let m := ({ salt := salt, pieces := ps, shards := shards, sums := cs.map (fun x => (Config.sha3 x.1, x.2)) } : CkptManifest).bytes
  let d := Config.sha3 m
  let signed := m ++ Config.dsaSign idSeed d
  (d, fitBytes (roundUp (m.length + sigBytes) 4096) signed ++ (cs.map (·.1)).flatten)

/-- CHECKPOINT_WRITE taken: the content read at once, one committed version of each shard; the shards are held until the end. -/
def State.ckptWrite (s : State) (k nsid : BitVec 32) (x : Attach) (lba : W64) (l : List CkptEntry) : State × Work :=
  match s.ckptPieces l with
  | .error e => (s, .failed e)
  | .ok ps => match s.ckptRead ps with
    | .error e => (s.countFirst ((ps.filter (fun p => !p.fab)).map (fun p => (p.addr, p.len))), .failed e)
    | .ok b =>
      let hs := listShards l
      let (d, img) := s.ckptImage ps hs b
      let n := roundUp img.length (x.block nsid)
      let s := ({ s with cur := { s.cur with ckptHolds := s.cur.ckptHolds ++ hs } }).fresh
      (s.storeOut k true nsid lba (n / x.block nsid) (fitBytes n img), .checkpointWrite k.toNat d img.length hs)

/-- The door that holds a checkpoint: a region lies in the Wings of a Core under takeover (R428). -/
def State.ckptDoor (s : State) (a : W64) : Option Nat :=
  match devAddr a with
  | none => none
  | some x => match s.ckptList x with
    | .error _ => none
    | .ok l => (l.filterMap (fun e => if e.1 = 0 then s.heldBy e.2.1 e.2.2 else none)).head?

/-- CHECKPOINT_WRITE. -/
def execCheckpointWrite (h : Hdr) (k nsid : BitVec 32) (lba a : BitVec 64) (nq : Option QueueNo) (s : State) : Out1 :=
  .next (s.doorCommand h (fun h => .checkpointWrite h k nsid lba a nq) 0x0620 (fun s => s.ckptDoor a) (fun s =>
    s.async h 0x0620 nq (fun s _ => match s.attachOf k, vaultSpan a 4 with
      | none, _ => .error .gone
      | some _, none => .error .badParam
      | some x, some v => match s.ckptList v with
        | .error e => .ok (s.countFirst [(v, 4), (v + 4, 24 * s.num v 4)], .failed e, [])
        | .ok l => match firstFail (l.map s.ckptFault) with
          | some e => .error e
          | none =>
            let (s, w) := s.ckptWrite k nsid x lba l
            .ok (s, w, []))))

/-- CHECKPOINT_RESTORE; its image is asked for, as many blocks as its manifest gives. -/
def execCheckpointRestore (h : Hdr) (k nsid : BitVec 32) (lba : BitVec 64) (nq : Option QueueNo) (s : State) : Out1 :=
  .next (s.command h (fun h => .checkpointRestore h k nsid lba nq) 0x0621 (fun s =>
    s.async h 0x0621 nq (fun s _ => match s.attachOf k with
      | none => .error .gone
      | some _ => .ok (s.storeOut k false nsid lba 0 [], .checkpointRestore k.toNat, []))))

/-- Chunks opened, from number c on; none where a digest or a tag is wrong. -/
def ckptOpen (key : List Byte) : Nat → List (List Byte) → List (List Byte × List Byte) → Option (List Byte)
  | _, [], [] => some []
  | c, b :: t, (d, tag) :: r =>
    if Config.sha3 b ≠ d then none
    else match Config.gcmOpen key (ckptIv c) b tag, ckptOpen key (c + 1) t r with
      | some x, some y => some (x ++ y)
      | _, _ => none
  | _, _, _ => none

/-- One piece written back: here, or in packets to another device, whose answers the command awaits: how many. -/
def State.ckptPiece (s : State) (k : Nat) (p : CkptPiece) (b : List Byte) : Except Status (State × Nat) :=
  match s.place p.fab permWrite (BitVec.ofNat 64 p.addr) b.length with
  | .here a => match s.writeMem (if p.fab then .unit else .command) a b with
    | .ok s => .ok (if p.fab then s.markDirty (p.addr % 2 ^ 48) b.length else s, 0)
    | .error e => .error e
  | .far j fwd t => .ok ((s.putPackets (.restore k (s.slot k).seq) j fwd t b (s.cutPut j t b)).markDirty (p.addr % 2 ^ 48) b.length,
      (s.cutPut j t b).length)
  | .refused e => .error e
  | .wait => .error .notReady

/-- Pieces written back in order; a status stops it. The number is that of the answers awaited. -/
def State.ckptPut (s : State) (k : Nat) : List CkptPiece → List Byte → Nat → State × Nat × Option Status
  | [], _, n => (s, n, none)
  | p :: t, b, n =>
    match s.ckptPiece k p (b.take p.len) with
    | .error e => (s, n, some e)
    | .ok (s, m) => State.ckptPut s k t (b.drop p.len) (n + m)

/-- A door holds one of the writes of a restore (R428). -/
def State.ckptHeld (s : State) (p : CkptPiece) : Bool :=
  match s.place p.fab permWrite (BitVec.ofNat 64 p.addr) p.len with
  | .here a => (s.heldBy a p.len).isSome
  | .far _ _ _ => false
  | .refused _ => false
  | .wait => true

/-- CHECKPOINT_RESTORE carried out on the image read: none while a migration or a takeover makes it wait. The digest of the manifest, and the
answers of other devices that are awaited. -/
def State.ckptTake (s : State) (k : Nat) (img : List Byte) : Option (State × Nat × Status × List Byte) :=
  let (m, body, sig, ct) := CkptManifest.of img
  let d := Config.sha3 body
  let size := (m.pieces.map (·.len)).foldl (· + ·) 0
  if !Config.dsaVerify idPublic d sig then some (s, 0, .denied, d)
  else match ckptOpen (ckptKey m.salt) 0 (chunksOf m.sums.length chunkBytes (ct.take size)) m.sums with
    | none => some (s, 0, .integrity, d)
    | some b =>
      if m.shards.any (fun (n, i) => (s.shard n i).state != .empty) then some (s, 0, .busy, d)
      else if m.pieces.any s.ckptHeld then none
      else match s.ckptPut k m.pieces b 0 with
        | (s, _, some e) => some (s, 0, e, d)
        | (s, n, none) => some (s, n, .ok, d)

/-! ## The end of an asynchronous command (R372) -/

/-- An 8-byte pattern over n bytes. -/
def patternBytes (v : W64) (n : Nat) : List Byte := (List.range n).map (fun i => BitVec.ofNat 8 (v.toNat / 256 ^ (i % 8)))

/-- MEM_FILL ends: the pattern is written, unless a door holds it. -/
def State.fillEnd (s : State) (k a n : Nat) (v : W64) : State :=
  if (s.heldBy a n).isSome then s
  else match s.writeMem .command a (patternBytes v n) with
    | .ok s => s.slotEnds k .ok []
    | .error e => (s.countWrite a n e).slotEnds k e []

/-- What a storage transfer brought ends the command that waits for it. -/
def State.storeEnd (s : State) (k : Nat) (w : Work) (st : Status) (b : List Byte) : State :=
  if st ≠ .ok then s.storeEnds k st []
  else match w with
    | .storeAttach ip l4 nqn roce => match freeEntry (s.cur.attach.map (fun (p : Nat × Attach) => p.1)) attachments with
      | none => s.slotEnds k .busy []
      | some i =>
        let x : Attach := { used := true, ip := ip, l4 := l4, nqn := nqn, roce := roce }
        ({ s with cur := { s.cur with attach := Tab.set s.cur.attach i x } }).slotEnds k .ok [.index (BitVec.ofNat 32 i)]
    | .storeRead _ a n => match s.writeMem .command a (fitBytes n b) with
      | .error e => (s.countWrite a n e).slotEnds k e []
      | .ok s => s.slotEnds k .ok []
    | .storeWrite _ => s.slotEnds k .ok []
    | .folioLoad _ a only => match s.folioTake a only b with
      | .error e => s.slotEnds k e []
      | .ok (s, fs) => s.slotEnds k .ok fs
    | .checkpointWrite _ d n _ => s.storeEnds k .ok [.digest d, .bytes (BitVec.ofNat 64 n)]
    | .checkpointRestore _ => match s.ckptTake k b with
      | none => s
      | some (s, 0, st, d) => s.slotEnds k st (if st = .ok then [.digest d] else [])
      | some (s, n + 1, st, d) => s.setSlot k { s.slot k with work := .restoring (n + 1) st d }
    | _ => s

/-- The end of the work behind a slot: internal work with nothing from outside, a storage command with what the storage answered. -/
def State.asyncEnd (s : State) (k : Nat) (x : Slot) (env : ServiceOutcome) : State :=
  match x.work, env with
  | .failed st, .internal => s.slotEnds k st []
  | .production _ a n, .internal => s.prodEnd k a n
  | .memFill a n v, .internal => s.fillEnd k a n v
  | w, .internal => if x.ended && !workStores w then s.slotEnds k x.status x.fields else s
  | w, .storage st b => if workStores w then s.storeEnd k w st b else s

/-- ASYNC_COMMAND_END. -/
def execAsyncCommandEnd (k : Fin 1024) (env : ServiceOutcome) (s : State) : Out1 :=
  let x := s.slot k.val
  .next (match x.state with
    | .free => s
    | .ready => s
    | .pending => s.asyncEnd k.val x env
    | .abandoned => s.asyncEnd k.val x env)

end Sys2Proof.Machine
end

