-- ==== Sys2Proof/Machine/Takeover.lean ====
section
/-! DEFINITION. Core faults, Understudies, darkness and takeover (R39 to R42, R103 to R107, R201, R427 to R429, R437).
Log entries with the readings and choices that are the model's: 33, 61. -/

namespace Sys2Proof.Machine

/-! ## Physical Cores -/

/-- Physical Core of a slot of a Troupe, and the slot of a physical Core (R2, R42). -/
def physOf (t slot : Nat) : Nat := t / 8 * 144 + t % 8 * 18 + slot
def slotOfPhys (p : Nat) : Nat := p % 18

/-- Where an offset of Wings lies: bank and word row (R425). -/
def wingsBank (off : Nat) : Nat := off / 8 % 64
def wingsRow (off : Nat) : Nat := off / 512

/-- The physical Core that serves the logical Core is failed; an Understudy that failed is no longer present (R42). -/
def Troupe.failed (t : Troupe) (slot : Nat) : Troupe :=
  { t with
    badMask := t.badMask ||| BitVec.ofNat 18 (2 ^ slot)
    presentA := t.presentA && t.slotA.toNat != slot
    presentB := t.presentB && t.slotB.toNat != slot }

/-- The free Understudy of the lowest slot takes a logical Core: its slot (R40). -/
def Troupe.engage (t : Troupe) (k : Nat) : Option (Nat × Troupe) :=
  let mark := t.takenOver ||| BitVec.ofNat 16 (2 ^ k)
  if t.presentA && !t.engagedA then some (t.slotA.toNat, { t with engagedA := true, servingA := BitVec.ofNat 4 k, takenOver := mark })
  else if t.presentB && !t.engagedB then some (t.slotB.toNat, { t with engagedB := true, servingB := BitVec.ofNat 4 k, takenOver := mark })
  else none

/-! ## Requests that a Core's door lets go -/

/-- Mioder requests that a Core's door held after their arrival are served (R198, R428). -/
def State.serveDoor (s : State) (c : Nat) : State :=
  let mine := s.mio.doorHeld.filter (fun p => p.1 == c)
  ({ s with mio := { s.mio with doorHeld := s.mio.doorHeld.filter (fun p => p.1 != c) } }).serveHeld (mine.map (fun (p : Nat × HeldReq) => p.2))

/-- The requests held at the Core's door that came by the queue return to it at the next tick; the device's own writes are made, and runs go on
(R428). -/
def State.doorRelease (s : State) (c : Nat) : State :=
  let s := ((s.serveDoor c).retryWrites).collsResume
  { s with released := s.released ++ (s.held.filter (fun p => p.1 == c)).map (·.2), held := s.held.filter (fun p => p.1 != c) }

/-- Message requests that have not been accepted, oldest first. -/
def MsgPort.unaccepted (m : MsgPort) : List MsgReq :=
  ((List.range 4).map (fun ch => Tab.get [] m.granted ch ++ Tab.get [] m.waiting ch)).flatten

/-- They are answered. -/
def State.answerAll (s : State) (t : Tally) : List MsgReq → State
  | [] => s
  | m :: r => State.answerAll (s.answerMsg m.src t) t r

/-- Handles held at the router are answered; tokens held are lost. -/
def State.answerHeld (s : State) (c : Nat) (st : Status) : List HeldInput → State
  | [] => s
  | .token _ :: r => State.answerHeld s c st r
  | .handle _ _ src :: r => State.answerHeld (s.answerHandle src c st) c st r
  | .words _ :: r => State.answerHeld s c st r

/-- Everything that waits for the Core is refused: with RESET by its door, with DARK by a dark Core (R28, R41, R432). -/
def State.refuseWaiting (s : State) (c : Nat) (reset : Bool) : State :=
  let x := s.core c
  let s := s.modCore c (fun x => { x with msg := { x.msg with waiting := [], granted := [] }, heldIn := [] })
  let s := s.answerAll { refused := 1, reset := reset, gen := x.resetGen } x.msg.unaccepted
  s.answerHeld c (if reset then .reset else .dark) x.heldIn

/-! ## Darkness (R41, R429) -/

/-- A logical Core goes dark: CORE_DARK. -/
def State.goDark (s : State) (c failed : Nat) (entry : Option (BitVec 128)) : State :=
  let s := s.modCore c (fun x => { x with
    dark := true, takeover := none, shadowLoaded := false, rootCues := [], rootQueue := []
    msg := { x.msg with sends := [], copies := [] }, str := { x.str with queue := [], xfers := [] }, vec := { x.vec with jobs := [] } })
  let s := (s.refuseWaiting c false).doorRelease c
  let s := { s with cur := { s.cur with coresDarkened := satInc s.cur.coresDarkened } }
  s.fault { event := 0x02, src := .core c, phys := failed, logical := c, entry := entry }

/-- A takeover is reported: TAKEOVER (R428, R429). -/
def State.takenOver (s : State) (c ns : Nat) (t : Takeover) : State :=
  let s := { s with cur := { s.cur with takeovers := satInc s.cur.takeovers } }
  s.fault { event := 0x01, src := .core c, phys := t.failed, logical := c, ns := ns, entry := t.entry }

/-! ## Detection (R40, R201, R427 to R429, R437) -/

/-- The fault recorded in the runtime Catalogue: a row of Wings, or the physical Core (R201, R427). -/
def State.recordCore (s : State) (phys : Nat) (f : CoreFault) (event : Nat) : State × Option (BitVec 128) :=
  match f with
  | .wingsDouble off => s.record catWingsRow (pack [(0, 10, phys), (10, 6, wingsBank off), (16, 13, wingsRow off)]) event
  | .suspect => s.record catCore phys event
  | .watchdog => s.record catCore phys event
  | .logic => s.record catCore phys event

/-- A failed Core whose place an Understudy takes, or that goes dark. -/
def State.coreFails (s : State) (c : Nat) (f : CoreFault) : State :=
  let x := s.core c
  let t := troupeOfCore c
  let phys := x.phys.toNat
  let s := s.modTroupe t (fun y => y.failed (slotOfPhys phys))
  let s := match f with
    | .watchdog => s.fault { event := 0x05, src := .core c, phys := phys, logical := c }
    | .suspect => s
    | .wingsDouble _ => s
    | .logic => s
  let able := x.inReset || x.marker.isSome
  match (if able then (s.troupe t).engage (c % 16) else none) with
  | none =>
    let (s, e) := s.recordCore phys f 0x02
    s.goDark c phys e
  | some (slot, y) =>
    let (s, e) := s.recordCore phys f 0x01
    let s := (s.setTroupe t y).modCore c (fun x => { x with onUnderstudy := true, phys := BitVec.ofNat 10 (physOf t slot), shadowLoaded := false })
    if x.inReset then s.takenOver c 0 { failed := phys, entry := e }
    else s.modCore c (fun x => { x with takeover := some { failed := phys, entry := e } })

/-- CORE_FAULT_DETECTED: of a Core in service; a suspect verdict is one the check unit has given. -/
def execCoreFaultDetected (c : CoreNo) (f : CoreFault) (s : State) : Out1 :=
  let x := s.core c.val
  if x.dark || !(s.troupe (troupeOfCore c.val)).started || decide (f = .suspect ∧ x.p.state ≠ .suspect) then .next s
  else .next (s.coreFails c.val f)

/-! ## The shadow loaded and replayed (R104, R106, R107) -/

/-- The Core as the Understudy has it once the shadow state of its last marker is loaded. -/
def Core.loadShadow (x : Core) (m : Shadow) : Core :=
  let idle := fun (a : Arr) (tap : Tap) => { ({} : Arr) with
    productSteps := a.productSteps, pacedSteps := a.pacedSteps, tapHoldSteps := a.tapHoldSteps, tap := tap }
  { x with
    p := { x.p with
      run := true, stepped := false, cp := m.cp, pastEnd := false, state := .running, hold := .none, stop := .none, sceneId := m.sceneId
      sceneCp := m.cp, pflags := m.pflags, vl := m.vl, fillHold := m.fillHold, fillBudget := m.fillBudget, fillUsed := 0
      loops := m.loops, tokens := m.tokens, gens := m.gens }
    tiles := m.tiles.map (fun (p : Nat × Tile) => (p.1, { p.2 with state := .free }))
    arrA := idle x.arrA m.tapA, arrB := idle x.arrB m.tapB
    vec := { x.vec with jobs := [], idx := [], freq := [] }
    str := { x.str with descs := m.descs, shadows := [], shadowBusy := [], eps := m.eps, queue := [], xfers := [] }
    msg := {
      rings := m.rings.map (fun (p : Nat × Ring) => (p.1, { p.2 with tail := p.2.head, msgs := [] }))
      waiting := (List.range 4).map (fun ch => (ch, Tab.get [] x.msg.granted ch ++ Tab.get [] x.msg.waiting ch)), sendSeq := m.sendSeq }
    rootCues := [], rootQueue := [], pending := none, logAtLatch := 0, keptMsgs := [], effectsAtLatch := 0
    replayEffects := x.effects ++ x.replayEffects, effects := [], shadowLoaded := true }

/-- One item of the shadow log replayed (R106); a message raises its RTOKEN again (DESIGN CHOICE: log entry 27). -/
def State.replayItem (s : State) (c : Nat) : LogItem → State
  | .msg m =>
    let r := (s.core c).ring m.channel
    (s.modCore c (fun x => x.modRing m.channel (fun r => { r with tail := r.tail + BitVec.ofNat 16 m.granules }))).enterRing c m.channel
      r.tail.toNat m
  | .token t => s.tokenRise c t 1
  | .handle ep h =>
    let e := (s.core c).ep ep
    let s := s.modCore c (fun x => x.setEp ep (e.arrive h))
    if e.arriveEn then s.tokenRise c e.arriveToken.toNat 1 else s
  | .words _ => s

/-- The shadow log replayed. -/
def State.replay (s : State) (c : Nat) : List LogItem → State
  | [] => s
  | i :: t => State.replay (s.replayItem c i) c t

/-- TAKEOVER_SHADOW_LOADED: Wings of zeros, fresh streams, the state of the marker, the log; a shadow that cannot be read leaves the
Core dark (R104, R429). -/
def execTakeoverShadowLoaded (c : CoreNo) (shadowError : Bool) (s : State) : Out1 :=
  let x := s.core c.val
  match x.takeover, x.marker with
  | some t, some m =>
    if x.shadowLoaded then .next s
    else if shadowError then .next (s.goDark c.val t.failed t.entry)
    else .next ((((s.setCore c.val (x.loadShadow m)).zeroMem (wingsOf c.val) 0x400000).seedCore c.val).replay c.val x.log)
  | _, _ => .next s

/-- TAKEOVER: the Core issues again; its door and its router release what they held (R428). -/
def execTakeover (c : CoreNo) (ns : BitVec 32) (s : State) : Out1 :=
  let x := s.core c.val
  match x.takeover with
  | none => .next s
  | some t =>
    if !x.shadowLoaded then .next s
    else
      let s := s.modCore c.val (fun x => { x with takeover := none, shadowLoaded := false })
      .next (((s.takenOver c.val ns.toNat t).doorRelease c.val).releaseHeld c.val)

/-- UNDERSTUDY_LOST: Understudy A, or B, that is not engaged (R429). -/
def execUnderstudyLost (t : TroupeNo) (b : Bool) (s : State) : Out1 :=
  let x := s.troupe t.val
  let free := if b then x.presentB && !x.engagedB else x.presentA && !x.engagedA
  let slot := if b then x.slotB.toNat else x.slotA.toNat
  if !free then .next s
  else .next ((s.setTroupe t.val (x.failed slot)).fault { event := 0x09, src := .troupe t.val, phys := physOf t.val slot })

/-! ## Other single faults (R437, R438, R449) -/

/-- PLANE_FAILOVER: the Stage's traffic moves to its second plane. -/
def execPlaneFailover (st : StageNo) (ns : BitVec 32) (s : State) : Out1 :=
  if (s.stage st.val).planes < 2 then .next s
  else .next ((s.modStage st.val (fun x => { x with planes := 1 })).fault { event := 0x06, src := .stage st.val, ns := ns.toNat })

/-- CURATOR_FAILOVER: a core leaves while another remains. -/
def execCuratorFailover (k : Fin 8) (ns : BitVec 32) (s : State) : Out1 :=
  let cores := s.cur.cores.toNat
  if !bitOf cores k.val ∨ cores = 2 ^ k.val ∨ !s.curatorUp then .next s
  else
    let s := { s with cur := { s.cur with cores := BitVec.ofNat 8 (cores - 2 ^ k.val) } }
    let (s, e) := s.record catCuratorCore k.val 0x07
    .next (s.fault { event := 0x07, src := .device, ns := ns.toNat, entry := e })

/-- Phases of a rail (R449). -/
def phasesOf (rail : Nat) : Nat := if rail < 4 then 14 else if rail = 4 then 6 else 4

/-- PHASE_LOST: recorded; the rail's other phases carry the load. -/
def execPhaseLost (rail : Fin 6) (phase : Fin 32) (s : State) : Out1 :=
  if phasesOf rail.val ≤ phase.val ∨ s.mod.phasesLost.contains (rail.val, phase.val) ∨ !s.curatorUp then .next s
  else
    let s := { s with mod := { s.mod with phasesLost := s.mod.phasesLost ++ [(rail.val, phase.val)] } }
    let (s, e) := s.record catPowerPhase (pack [(0, 3, rail.val), (3, 5, phase.val)]) 0x08
    .next (s.fault { event := 0x08, src := if rail.val < 4 then .stage rail.val else .device, entry := e })

end Sys2Proof.Machine
end

