-- ==== Sys2Proof/Machine/Resets.lean ====
section
/-! DEFINITION. Partial resets: RESET, Mioder resets, Ensemble resets, doors, wipes (R30, R31, R249, R294, R430 to R435).
Log entries with the readings and choices that are the model's: 59, 60. -/

namespace Sys2Proof.Machine

/-! ## Scopes (R430, R431) -/

/-- Scope and index of a hardware unit. -/
def URef.scope : URef → Nat × Nat
  | .core c => (coreScope, c)
  | .troupe t => (troupeScope, t)
  | .stage st => (stageScope, st)
  | .device => (deviceScope, 0)
  | .ensemble e => (coreScope, e)

/-- The hardware unit a reset names. -/
def ResetOp.ref (r : ResetOp) : URef :=
  if r.scope = 0 then .core r.index else if r.scope = 1 then .troupe r.index else if r.scope = 2 then .stage r.index else .device

/-- Units whose door a reset closes. -/
def ResetOp.cores (r : ResetOp) : List Nat := r.ref.leaves
def ResetOp.troupes (r : ResetOp) : List Nat := if r.scope = 0 then [] else r.ref.troupes
def ResetOp.stages (r : ResetOp) : List Nat := if r.scope = 2 then [r.index] else if r.scope = 3 then List.range 4 else []
/-- Conservators of a Stage (R17). -/
def consOfStage (st : Nat) : List Nat := (List.range 16).map (16 * st + ·)

/-- A state changed for each of a list. -/
def State.each (s : State) (f : State → Nat → State) : List Nat → State
  | [] => s
  | k :: t => State.each (f s k) f t

/-! ## A door closes (R430 to R433) -/

/-- The Core as its reset leaves it; its place, generation, queue and tag, and the count of its Wings, stand. -/
def Core.cleared (x : Core) : Core :=
  { ({} : Core) with
    p := { state := if x.dark then .idle else .reset }, wingsCorrected := x.wingsCorrected, dark := x.dark, inReset := x.inReset
    resetGen := x.resetGen, reportQueue := x.reportQueue, tag := x.tag, phys := x.phys, onUnderstudy := x.onUnderstudy }

/-- A Core's door closes: what waited for it is refused, a takeover or a suspect verdict met is settled as under reset (R429, R433). -/
def State.coreShut (s : State) (c : Nat) : State :=
  let x := s.core c
  let s := s.refuseWaiting c true
  let s := match x.takeover with
    | none => s
    | some t => ((s.modCore c (fun x => { x with takeover := none, shadowLoaded := false })).takenOver c 0 t).doorRelease c
  let s := s.modCore c Core.cleared
  if x.p.state = .suspect then s.coreFails c .suspect else s

/-- Generations rise and doors close for the units not yet under reset (R431). -/
def State.shutUnits (s : State) (r : ResetOp) : State :=
  let s := s.each (fun s t => s.modTroupe t (fun x => if x.inReset then x else { x with inReset := true, resetGen := x.resetGen + 1 })) r.troupes
  let s := s.each (fun s t => s.modStage t (fun x => if x.inReset then x else { x with inReset := true, resetGen := x.resetGen + 1 })) r.stages
  let s := s.each (fun s st => s.each (fun s n => s.modCon n (fun x => { x.resetWork with inReset := true })) (consOfStage st)) r.stages
  let s := if r.scope = 3 then { s with cur := { s.cur with deviceGen := s.cur.deviceGen + 1, deviceInReset := true } } else s
  let fresh := r.cores.filter (fun c => !(s.core c).inReset)
  let s := s.each (fun s c => s.modCore c (fun x => { x with inReset := true, resetGen := x.resetGen + 1 })) fresh
  s.each State.coreShut fresh

/-- A Production loses the Cores of a scope and is CLEARED (R404, R430). -/
def Production.lose (p : Production) (cores : List Nat) (u : UnitName) : Production :=
  if p.cores.any cores.contains then { p with cores := without p.cores cores, cleared := p.cleared ++ [u] } else p

/-- The troupe's own state that its reset clears: checks stand, the entropy source and its seed do not (R53, R430). -/
def Troupe.resetSource (x : Troupe) : Troupe := { x with entropyOk := false, fixedSeed := false, seed := 0 }

/-- A reset of a unit of this device; one that its own scope or a wider one covers has no effect (R431, R435). -/
def State.resetUnit (s : State) (wipe : Bool) (ens : Option Nat) (u : URef) : State :=
  if s.resetCovers u then s
  else
    let old := s.genOf u
    let (scope, index) := u.scope
    let r : ResetOp := { unit := s.nameOf u, scope := scope, index := index, wipe := wipe, oldGen := old, newGen := old + 1, ensemble := ens }
    let s := s.shutUnits r
    let s := s.each (fun s t => s.modTroupe t Troupe.resetSource) r.troupes
    let s := s.each (fun s st => s.modStage st (fun x => { x with paceCount := 0 })) r.stages
    let s := { s with
      cur := { s.cur with
        resets := s.cur.resets ++ [r], prods := s.cur.prods.map (fun (p : Nat × Production) => (p.1, p.2.lose r.cores r.unit)) } }
    s.measure.doorNotice 1 u scope wipe old.toNat (s.genOf u).toNat (ens.map (fun e => (s.ensemble e).reportQueue.toNat))

/-- Units reset one after another. -/
def State.resetUnits (s : State) (wipe : Bool) (ens : Option Nat) : List URef → State
  | [] => s
  | u :: t => State.resetUnits (s.resetUnit wipe ens u) wipe ens t

/-! ## Ensembles (R26, R30, R31, R435) -/

/-- What a reset of a name comes to on this device: hardware units, Ensembles, names on other devices, EMPTY entries met. -/
structure ResetPlan where
  units : List URef := []
  ens   : List Nat := []
  far   : List UnitName := []
  gone  : Nat := 0
deriving DecidableEq, Repr

def ResetPlan.join (a b : ResetPlan) : ResetPlan :=
  { units := a.units ++ b.units, ens := a.ens ++ b.ens, far := a.far ++ b.far, gone := a.gone + b.gone }

/-- A name followed through at most `fuel` levels of Ensembles. -/
def State.resetPlan (s : State) : Nat → UnitName → ResetPlan
  | 0, _ => {}
  | fuel + 1, u =>
    if !s.isHere u then { far := [u] }
    else match nameRef u with
      | none => {}
      | some (.ensemble e) =>
        let x := s.ensemble e
        if !x.defined then { gone := 1 } else x.members.foldl (fun acc m => acc.join (State.resetPlan s fuel m)) { ens := [e] }
      | some r => { units := [r] }

/-- Resets forwarded to other devices; whether a branch would cross its 256th boundary, whether one has no association. -/
def State.resetFar (s : State) (bounds : Nat) : List UnitName → State × Bool × Bool
  | [] => (s, false, false)
  | u :: t =>
    match s.upAssoc (nameDevice u) with
    | none =>
      let (s, b, _) := State.resetFar s bounds t
      (s, b, true)
    | some k =>
      if 255 ≤ bounds then
        let (s, _, g) := State.resetFar s bounds t
        (s, true, g)
      else State.resetFar (s.request k {
          op := 0x08, target := u.setWidth 64, gen := s.cur.deviceGen, aux := BitVec.ofNat 48 ((bounds + 1) * 2 ^ 32) } .resetBranch) bounds t

/-- A reset of a name: its status, and what it does here and sends; an Ensemble that two branches reach
counts once (R30, R31, R308, R435). -/
def State.resetName (s : State) (bounds : Nat) (wipe : Bool) (u : UnitName) : State × Status :=
  let p := s.resetPlan 4097 u
  let top := match nameRef u with
    | some (.ensemble e) => if s.isHere u then some e else none
    | _ => none
  if top.any (fun e => !(s.ensemble e).defined) then (s, .gone)
  else
    let s := s.each (fun s e => s.setEnsemble e { s.ensemble e with resetGen := (s.ensemble e).resetGen + 1 }) (dedup p.ens)
    let s := s.resetUnits wipe top p.units
    let (s, tooBig, gone) := s.resetFar bounds p.far
    (s, if tooBig then .badParam else if gone ∨ 0 < p.gone then .gone else .ok)

/-- RESET. -/
def execReset (h : Hdr) (u : BitVec 48) (options : BitVec 32) (s : State) : Out1 :=
  .next (s.command h (fun h => .reset h u options) 0x0900 (fun s =>
    let wipe := options == 1
    if 1 < options.toNat ∨ (nameRef u).isNone ∨ (wipe ∧ !(s.resetPlan 4097 u).far.isEmpty) then refused s .badParam
    else
      let (s, st) := s.resetName 0 wipe u
      refused s st))

/-- A UNIT reset request of a peer, answered once the doors have closed (R308, R421, R431). -/
def State.serveReset (s : State) (r : MioReq) : State :=
  let u : UnitName := BitVec.ofNat 48 (fld r.target 47 0)
  match nameRef u with
  | none => s.reply r 0x08 .badParam s.cur.deviceGen []
  | some x =>
    if mioBad r 0x08 || !s.isHere u || fld r.aux 3 0 != 0 then s.reply r 0x08 .badParam s.cur.deviceGen []
    else if s.cur.phase ≠ .ready then s.reply r 0x08 .notReady s.cur.deviceGen []
    else
      let (s, st) := s.resetName (boundsOf r.aux) false u
      s.reply r 0x08 st (s.genOf x) []

/-- MIODER_UNIT_RESET. -/
def execMioderUnitReset (r : MioReq) (s : State) : Out1 :=
  let (s, go) := s.receive r.assoc r.counter r.phase r.psn r.path r.frame
  .next (if go then s.serveReset r else s)

/-! ## Quiescence, wipes, doors (R249, R294, R434) -/

/-- A reset of the list changed. -/
def State.modReset (s : State) (k : Nat) (f : ResetOp → ResetOp) : State :=
  { s with cur := { s.cur with resets := s.cur.resets.mapIdx (fun i r => if i = k then f r else r) } }

/-- A wipe of a Stage's units is in progress. -/
def State.wiping (s : State) : State :=
  let w := fun (st : Nat) => s.cur.resets.any (fun r => r.wipe && r.quiesced && !r.wiped && r.cores.any (fun c => stageOfCore c == st))
  s.each (fun s st => s.modStage st (fun x => { x with wiping := w st })) (List.range 4)

/-- RESET_QUIESCED: jobs of the engines covered end; a wipe begins. -/
def execResetQuiesced (k : Nat) (s : State) : Out1 :=
  match s.cur.resets[k]? with
  | none => .next s
  | some r =>
    if r.quiesced then .next s
    else .next (((s.each State.resetEngine r.troupes).modReset k (fun r => { r with quiesced := true })).wiping)

/-- The spans a wipe clears (R430). -/
def ResetOp.spans (r : ResetOp) : List (Nat × Nat) :=
  let sectors := fun (t : Nat) => [(sectorBase t 0, sectorSize), (sectorBase t 1, sectorSize)]
  r.cores.map (fun c => (wingsOf c, 0x400000)) ++ (r.troupes.map sectors).flatten

/-- A span meets one of a list. -/
def hits (l : List (Nat × Nat)) (a n : Nat) : Bool := l.any (fun x => decide (x.1 < a + n ∧ a < x.1 + x.2))

/-- A wipe covers a shard's record, ACC or an array of its state in the Gallery (R233, R249). -/
def State.shardWiped (s : State) (l : List (Nat × Nat)) (a : Nat) : Bool :=
  let part := 4 * s.rN a
  let slot := match s.readRule a with
    | .ok u => part * (1 + moments (uId u) + bit (s.rComp a))
    | .error _ => part * (2 + bit (s.rComp a))
  hits l a 256 || hits l (s.recGet a 383 320) part ||
    (!s.rFab a 0 && (hits l (s.recGet a 255 192) slot || hits l (s.recGet a 319 256) slot)) ||
    (!s.rFab a 1 && hits l (s.recGet a 447 384) (s.rHeld a * part)) || (!s.rFab a 2 && hits l (s.recGet a 511 448) (2 * s.rWorkBytes a))

/-- An emptied shard leaves its Conservator idle. -/
def State.shardLost (s : State) (n i : Nat) : State :=
  (if s.shardBusy n i then s.modCon n Cons.leave else s).shardEmpty n i

/-- Shards that a wipe takes. -/
def State.wipeShards (s : State) (l : List (Nat × Nat)) : State :=
  let all := ((List.range 64).map (fun n => (s.con n).entries.map (fun (p : Nat × ShardEntry) => (n, p.1, p.2)))).flatten
  (all.filter (fun x => x.2.2.state != .empty && s.shardWiped l x.2.2.record.toNat)).foldl (fun s x => s.shardLost x.1 x.2.1) s

/-- A span written with zeros, the runs that use it ended first. -/
def State.wipeSpan (s : State) (x : Nat × Nat) : State :=
  let s := (s.collsWiped x.1 x.2).zeroMem x.1 x.2
  if regionOf x.1 = some .gallery then s.galleryWritten x.1 x.2 else s

/-- WIPE_END. -/
def execWipeEnd (k : Nat) (s : State) : Out1 :=
  match s.cur.resets[k]? with
  | none => .next s
  | some r =>
    if !r.quiesced ∨ !r.wipe ∨ r.wiped then .next s
    else .next (((r.spans.foldl State.wipeSpan (s.wipeShards r.spans)).modReset k (fun r => { r with wiped := true })).wiping)

/-- A Core leaves reset: standard tables, seeded streams, IDLE (R53, R125, R430). -/
def State.coreOpens (s : State) (c : Nat) : State :=
  let s := s.modCore c (fun x => { x with inReset := false })
  if (s.core c).dark then s
  else (s.modCore c (fun x => ({ x with inReset := false }.loadTables).modP (fun p => { p with state := .idle }))).seedCore c

/-- A Troupe leaves reset: its start-up test passed, its timer from zero (R78, R430). -/
def State.troupeOpens (s : State) (t : Nat) : State :=
  s.modTroupe t (fun x => { x with inReset := false, entropyOk := true, timerStart := s.now })

/-- The units of a reset that no other one covers leave reset. -/
def State.openUnits (s : State) (r : ResetOp) : State :=
  let left := s.cur.resets
  let s := s.each State.troupeOpens (r.troupes.filter (fun t => !left.any (fun x => decide (1 ≤ x.scope) && x.coversTroupe t)))
  let s := s.each (fun s st => (s.modStage st (fun x => { x with inReset := false })).each
    (fun s n => s.modCon n (fun x => { x with inReset := false })) (consOfStage st)) (r.stages.filter (fun st => !left.any (·.coversStage st)))
  let s := if r.scope = 3 then { s with cur := { s.cur with deviceInReset := false } } else s
  s.each State.coreOpens (r.cores.filter (fun c => !left.any (·.coversCore c)))

/-- A reset of a wider scope covers the unit that this one names. -/
def ResetOp.under (r x : ResetOp) : Bool :=
  decide (r.scope < x.scope) && (if r.scope = 0 then x.coversCore r.index else if r.scope = 1 then x.coversTroupe r.index else x.coversStage r.index)

/-- DOOR_OPEN: once its units are quiet, its wipe is over and no wider reset covers it. -/
def execDoorOpen (k : Nat) (s : State) : Out1 :=
  match s.cur.resets[k]? with
  | none => .next s
  | some r =>
    if !r.quiesced ∨ (r.wipe ∧ !r.wiped) ∨ s.cur.resets.any r.under then .next s
    else
      let s := ({ s with cur := { s.cur with resets := s.cur.resets.eraseIdx k } }).openUnits r
      .next (s.doorNotice 2 r.ref r.scope r.wipe r.oldGen.toNat r.newGen.toNat (r.ensemble.map (fun e => (s.ensemble e).reportQueue.toNat)))

end Sys2Proof.Machine
end

