-- ==== Sys2Proof/Machine/Bringup.lean ====
section
/-! DEFINITION. Cold start and its phases, the Catalogues as applied, waves of Troupes, firmware update (R35, R36, R205, R215, R217,
R223, R300, R420 to R427, R440 to R443, R464).
Log entries with the readings and choices that are the model's: 8, 62, 63, 64. -/

namespace Sys2Proof.Machine

/-! ## Power (R420, R445, R453) -/

/-- What is left when no state is kept: fuses, module flash, the pins; and the model's own queue, counter and output. -/
def State.blank (s : State) : State :=
  {
    pending := s.pending, freeCtr := s.freeCtr, out := s.out, flash := s.flash
    sec := { creds := s.sec.creds, secVersion := s.sec.secVersion }
    mod := { power := .off, modEn := s.mod.modEn, modRstN := s.mod.modRstN, tripped := s.mod.tripped } }

/-- A cold start begins with phase CURATOR; the straps are sampled (R420, R453). -/
def State.beginCold (s : State) (straps : BitVec 6) : State :=
  let ok := s.mod.pwrOk
  let s := s.blank
  { s with
    flash := { s.flash with coldStarts := satInc s.flash.coldStarts }
    mod := { s.mod with power := .on, modEn := true, modRstN := true, slotId := straps, pwrOk := ok } }

/-- COLD_START: MOD_RST_N is released, or MOD_EN goes high after it was low. -/
def execColdStart (straps : BitVec 6) (s : State) : Out1 :=
  .next (if s.mod.power = Power.held ∨ (s.mod.power = Power.off ∧ !s.mod.modEn ∧ !s.mod.tripped) then s.beginCold straps else s)

/-! ## The end of a phase (R420, R422, R443) -/

/-- Phase `k` ends and the next begins. -/
def State.endPhase (s : State) (k : Nat) (next : BPhase) : State :=
  { s with cur := { s.cur with phase := next, phaseEnd := Tab.set s.cur.phaseEnd (k - 1) (BitVec.ofNat 48 s.now) } }

/-- Bring-up stops in phase `k`. -/
def State.bringupStops (s : State) (k : Nat) (st : Status) : State :=
  { s with cur := { s.cur with phase := .failed, failPhase := BitVec.ofNat 4 k, failStatus := BitVec.ofNat 16 (statusCode st) } }

/-- Bring-up fails: BRINGUP_FAILED (R422, R439). -/
def State.bringupFails (s : State) (k : Nat) (st : Status) : State :=
  (s.bringupStops k st).fault { event := 0x0D, src := .device, status := st }

/-- A phase that ends, or fails. -/
def State.endOrFail (s : State) (k : Nat) (fatal : Option Status) (next : BPhase) : State :=
  match fatal with
  | some st => s.bringupFails k st
  | none => s.endPhase k next

/-! ## CURATOR: firmware bank, Catalogues, Calibration page (R422, R424, R427, R442, R464) -/

def Flash.bankVersion (f : Flash) (b : Bool) : BitVec 32 := if b then f.bankVersion1 else f.bankVersion0
def Flash.bankValid (f : Flash) (b : Bool) : Bool := if b then f.bankValid1 else f.bankValid0

/-- A bank passes the boot ROM's checks. -/
def State.bankPasses (s : State) (b : Bool) : Bool := s.flash.bankValid b && decide (s.sec.secVersion.toNat ≤ (s.flash.bankVersion b).toNat)

/-- Bytes of Catalogue entries. -/
def catBytes (l : List (BitVec 128)) : List Byte := (l.map (fun e => leBytes 16 e.toNat)).flatten

/-- Places of the entries of a kind, each once: the union of the Catalogues is applied (R427). -/
def State.catOf (s : State) (kind : Nat) : List Nat := dedup ((s.catUnion.filter (fun e => entryKind e == kind)).map entryLoc)

/-- All bytes of a span of the page are zero. -/
def zeroAt (page : List Byte) (at_ n : Nat) : Bool := ((page.drop at_).take n).all (fun b => b == 0)

/-- The CRC of a page (R461). -/
def calCrc (page : List Byte) : BitVec 32 := crc32 (page.take 60 ++ page.drop 64)

/-- Magic, version and CRC of a page, and its serial number, are right (R462, R464). -/
def Flash.pageOk (f : Flash) (page : List Byte) : Bool :=
  page.length == 8192 && calField page 0 4 == 0x4B564341 && calField page 4 2 == 1 && calField page 60 4 == (calCrc page).toNat &&
    ((page.drop 16).take 16 == f.serial)

/-- Reserved bytes of a page are zero (R461, R462). -/
def calReservedZero (page : List Byte) : Bool :=
  calField page 6 2 / 2 == 0 && zeroAt page 12 4 && zeroAt page 32 28 && zeroAt page 0x70 16 && zeroAt page 0x90 48 &&
    (List.range 6).all (fun r => zeroAt page (0x240 + 16 * r + 4) 12) && zeroAt page 0x2A0 96 && zeroAt page 0x19B0 1616

/-- A rejected runtime Catalogue is reported (R427). -/
def State.checkRuntime (s : State) : State :=
  if s.flash.runtimeValid then s
  else ({ s with cur := { s.cur with catRejected := true } }).fault { event := 0x0B, src := .device, status := .integrity }

/-- Fields that the Catalogues, the page and the nonce source set as CURATOR ends. -/
def State.curatorReady (s : State) : State :=
  let lost := s.catOf catCuratorCore
  ({ s with
    cur := { s.cur with
      catApplied := [Config.sha3 (catBytes s.flash.fuseCat), Config.sha3 (catBytes s.flash.moduleCat),
        Config.sha3 (catBytes (if s.flash.runtimeValid then s.flash.runtimeCat else []))]
      cores := BitVec.ofNat 8 (bitsWhere 8 (fun k => !(lost.map (· % 8)).contains k)) }
    mod := { s.mod with
      pwrOk := true, calValid := s.flash.pageOk s.flash.calPage
      phasesLost := (s.catOf catPowerPhase).map (fun w => (bitsOf w 2 0, bitsOf w 7 3)) }
    sec := { s.sec with nonce := s.secret 32 } }).fresh

/-- The end of CURATOR; with both banks bad the Curator stays in ROM recovery, which raises nothing. -/
def State.endCurator (s : State) (fatal : Option Status) : State :=
  let b := s.flash.bank
  if !s.bankPasses b ∧ !s.bankPasses (!b) then s.bringupStops 1 .integrity
  else
    let s := { s with flash := { s.flash with bank := if s.bankPasses b then b else !b } }
    match fatal with
    | some st => s.bringupFails 1 st
    | none => (s.curatorReady.checkRuntime).endPhase 1 .clocks

/-! ## MEMORY: Vault, Gallery rows, lanes (R205, R215, R217, R223, R299, R300, R426) -/

/-- A channel that a Catalogue lists is FAILED (R215). -/
def State.applyChannel (s : State) (w : Nat) : State :=
  let g := bitsOf w 2 0
  let k := bitsOf w 7 3
  if 18 ≤ k then s else (s.modGroup g (fun x => x.setChan k .failed)).checkLost g k

/-- A page that a Catalogue lists keeps its ERASED_CH (R217). -/
def State.applyPage (s : State) (w : Nat) : State :=
  let p := bitsOf w 24 0
  s.modGroup (p / pagesPerGroup) (fun x => { x with
    pages := Tab.set x.pages (p % pagesPerGroup) { x.page (p % pagesPerGroup) with erasedCh := BitVec.ofNat 5 (bitsOf w 29 25) } })

/-- Lines of a row of a die. -/
def linesOfRow (d b r : Nat) : List Nat :=
  ((List.range linesPerDie).map (fun i => sectorBase (8 * (d / 2)) (d % 2) + 256 * i)).filter (fun a => bankOf a == b && rowOf a == r)

/-- The bank's last spare row is in use: GAL_SPARES_OUT once (R205). -/
def State.bankOut (s : State) (d b : Nat) : State :=
  if (s.die d).sparesOut.contains b then s
  else (s.modDie d (fun x => { x with sparesOut := x.sparesOut ++ [b] })).vaultNotice 0x12 (d / 2) (d % 2) 0x1F 0 0 b

/-- A bad row takes a spare row of its bank; where none is left its lines are poisoned (R205, R426). -/
def State.applyRow (s : State) (w : Nat) : State :=
  let d := 2 * bitsOf w 1 0 + bitsOf w 2 2
  let b := bitsOf w 11 3
  let used := Tab.get 0 (s.die d).spareUsed b
  if sparesPerBank ≤ used then
    (s.modDie d (fun x => { x with poisoned := dedup (x.poisoned ++ linesOfRow d b (bitsOf w 27 12)) })).bankOut d b
  else
    let s := s.modDie d (fun x => { x with spareUsed := Tab.set x.spareUsed b (used + 1) })
    if used + 1 < sparesPerBank then s else s.bankOut d b

/-- A row that the MEMORY test finds is recorded, unless a Catalogue lists it (R426). -/
def State.recordRow (s : State) (x : Fin 8 × Nat × Nat) : State :=
  let w := pack [(0, 2, x.1.val / 2), (2, 1, x.1.val % 2), (3, 9, x.2.1), (12, 16, x.2.2)]
  if 512 ≤ x.2.1 ∨ 65536 ≤ x.2.2 ∨ (s.catOf catGalRow).contains w then s else ((s.record catGalRow w 0x11).1).applyRow w

/-- A port as it comes up: mode 1, or mode 3 without its bad lanes; its sub-ports train (R299, R300). -/
def State.portUp (s : State) (p : Nat) : State :=
  let bad : BitVec 8 := BitVec.ofNat 8 (bitsWhere 8 (fun k => (s.catOf catLane).contains (8 * p + k)))
  let y := { s.port p with laneBad := bad, macBase := Config.macBase + BitVec.ofNat 48 (8 * p), mode := if bad = 0 then 1 else 3 }
  s.setPort p (y.configured (BitVec.ofNat 64 (y.word 0x00)))

/-- A group after its zero fill: every line written under slot 0, no page STALE (R223). -/
def VGroup.zeroFilled (g : VGroup) : VGroup :=
  { g with
    poison := []
    pages := (g.pages.map (fun (p : Nat × PageState) => (p.1, { p.2 with epochSel := false, stale := false }))).filter
      (fun (p : Nat × PageState) => p.2 != ({} : PageState)) }

/-- The end of MEMORY. -/
def State.endMemory (s : State) (rows : List (Fin 8 × Nat × Nat)) : State :=
  let s := s.zeroMem 0 vaultEnd
  let s := { s with vault := { s.vault with zeroFilled := true, groups := s.vault.groups.map (fun (p : Nat × VGroup) => (p.1, p.2.zeroFilled)) } }
  let s := s.each State.applyChannel (s.catOf catVaultCh)
  let s := s.each State.applyPage (s.catOf catVaultPage)
  let s := s.each State.applyRow (s.catOf catGalRow)
  let s := rows.foldl State.recordRow s
  (s.each State.portUp (List.range 4)).endPhase 4 .links

/-- Every live sub-port is up (R420). -/
def State.allUp (s : State) : Bool :=
  (List.range 4).all (fun p => (s.port p).linkUp == (subsOf (s.port p).mode.toNat &&& ~~~(s.port p).subOff))

/-- BRINGUP_PHASE_END: `fatal` where PLL, plane test or module Catalogue fails; LINKS ends when every live sub-port is up, or, with
`trained` false, at its limit. -/
def execBringupPhaseEnd (e : PhaseEnd) (s : State) : Out1 :=
  if s.mod.power ≠ Power.on then .next s
  else match s.cur.phase with
    | .curator => .next (s.endCurator e.fatal)
    | .clocks => .next (s.endOrFail 2 e.fatal .network)
    | .network => .next (s.endOrFail 3 e.fatal .memory)
    | .memory => .next (s.endMemory e.galleryFails)
    | .links => .next (if e.trained && !s.allUp then s else s.endPhase 5 .compute)
    | .compute => .next (if s.cur.wavesDone = 8 then s.endPhase 6 .ready else s)
    | .ready => .next s
    | .failed => .next s

/-! ## COMPUTE: the waves (R35, R36, R201, R423, R426) -/

/-- Physical Cores of a Troupe. -/
def physOfTroupe (t : Nat) : List Nat := (List.range 18).map (physOf t)

/-- A physical Core has a bank of Wings with more listed rows than spares (R201, R426). -/
def State.wingsOut (s : State) (p : Nat) : Bool :=
  let rows := dedup ((s.catOf catWingsRow).filter (fun w => bitsOf w 9 0 == p))
  (List.range 64).any (fun b => decide (16 < (rows.filter (fun w => bitsOf w 15 10 == b)).length))

/-- A physical Core is bad by the Catalogues (R35, R426). -/
def State.physBad (s : State) (p : Nat) : Bool := ((s.catOf catCore).map (fun w => bitsOf w 9 0)).contains p || s.wingsOut p

/-- A Troupe's map: good slots in order to logical Cores, the next two to Understudies (R35, R36, R42). -/
def Troupe.mapped (x : Troupe) (bad : List Nat) : Troupe :=
  let good := (List.range 18).filter (fun k => !bad.contains k)
  { x with
    mapSlot := (List.range 16).map (fun k => (k, BitVec.ofNat 5 (nth 0x1F good k)))
    slotA := BitVec.ofNat 5 (nth 0 good 16), presentA := decide (16 < good.length)
    slotB := BitVec.ofNat 5 (nth 0 good 17), presentB := decide (17 < good.length)
    badMask := BitVec.ofNat 18 (bitsWhere 18 bad.contains) }

/-- A Core as its Troupe starts: dark without a physical Core, else with the standard tables and seeded streams (R36, R53, R125). -/
def State.coreStarts (s : State) (t : Nat) (k : Nat) : State :=
  let c := 16 * t + k
  let slot := (Tab.get 0x1F (s.troupe t).mapSlot k).toNat
  if 18 ≤ slot then s.modCore c (fun x => { x with dark := true, phys := 0x3FF })
  else (s.modCore c (fun x => { x with phys := BitVec.ofNat 10 (physOf t slot) }.loadTables)).seedCore c

/-- A Troupe starts: its start test, map, tables, entropy source and timer. -/
def State.troupeStarts (s : State) (failed : List Nat) (t : Nat) : State :=
  let found := (physOfTroupe t).filter (fun p => failed.contains p && !s.physBad p)
  let s := found.foldl (fun s p => (s.record catCore p 0).1) s
  let bad := (List.range 18).filter (fun k => s.physBad (physOf t k) || found.contains (physOf t k))
  let s := s.modTroupe t (fun x => { x.mapped bad with entropyOk := true, started := true, timerStart := s.now })
  s.each (fun s k => s.coreStarts t k) (List.range 16)

/-- TROUPE_WAVE_START: the Troupes at position w of the four Stages. -/
def execTroupeWaveStart (w : Fin 8) (failed : List Nat) (s : State) : Out1 :=
  if s.mod.power ≠ Power.on ∨ s.cur.phase ≠ BPhase.compute ∨ s.cur.wavesDone ≠ w.val then .next s
  else
    let s := s.each (fun s t => s.troupeStarts failed t) [w.val, 8 + w.val, 16 + w.val, 24 + w.val]
    .next { s with cur := { s.cur with wavesDone := w.val + 1 } }

/-! ## BRINGUP_STATUS and CATALOGUE_READ (R427, R443) -/

/-- BRINGUP_STATUS. -/
def execBringupStatus (h : Hdr) (s : State) : Out1 :=
  .next (s.command h .bringupStatus 0x0901 (fun s => (s, {
    fields := [.value (BitVec.ofNat 64 (s.curatorWord 0x100)),
      .data ((List.range 9).map (fun k => leBytes 8 (s.curatorWord (0x108 + 8 * k)))).flatten] })))

/-- Entries of a Catalogue by INDEX. -/
def State.catalogue (s : State) (k : Nat) : Option (List (BitVec 128)) :=
  if k = 0 then some s.flash.fuseCat
  else if k = 1 then some s.flash.moduleCat
  else if k = 2 then some (if s.flash.runtimeValid then s.flash.runtimeCat else [])
  else if k = 3 then some s.catUnion
  else none

/-- CATALOGUE_READ. -/
def execCatalogueRead (h : Hdr) (index : BitVec 32) (first : Option (BitVec 64)) (s : State) : Out1 :=
  .next (s.command h (fun h => .catalogueRead h index first) 0x0910 (fun s =>
    match s.catalogue index.toNat with
    | none => refused s .badParam
    | some l => (s, { fields := [.value (BitVec.ofNat 64 l.length), .data (catBytes ((l.drop (first.getD 0).toNat).take 4095))] })))

/-! ## Firmware (R440 to R442) -/

/-- An image written to a bank. -/
def Flash.writeBank (f : Flash) (b : Bool) (version : BitVec 32) (digest : List Byte) : Flash :=
  if b then { f with bankVersion1 := version, bankValid1 := true, bankDigest1 := digest }
  else { f with bankVersion0 := version, bankValid0 := true, bankDigest0 := digest }

/-- FIRMWARE_STAGE: an image in the Vault checked and written to the idle bank. -/
def State.firmwareStage (s : State) (a n : W64) : Except Status State :=
  match vaultSpan a n.toNat with
  | none => .error .badParam
  | some x => match s.readMem .unit x n.toNat with
    | .error e => .error e
    | .ok b => match Config.firmwareImage b with
      | none => .error .badParam
      | some (version, digest, sig) =>
        if s.activating then .error .busy
        else if !Config.dsaVerify Config.firmwareKey digest sig ∨ version.toNat < s.sec.secVersion.toNat then .error .denied
        else
          let s := { s with
            flash := s.flash.writeBank (!s.flash.bank) version digest
            cur := { s.cur with updateState := .staged, stagedDigest := digest, stagedVersion := version } }
          .ok s.measure

/-- FIRMWARE_STAGE. -/
def execFirmwareStage (h : Hdr) (a n : BitVec 64) (s : State) : Out1 :=
  .next (s.command h (fun h => .firmwareStage h a n) 0x0920 (fun s => answerState s (s.firmwareStage a n)))

/-- A Folio that is DECRYPTING or OPEN is closed; MEAS_GEN rises for its removal (R403, R405). -/
def State.folioYields (s : State) (k : Nat) : State :=
  match s.folio k with
  | none => s
  | some f => if f.state = .registered then s else s.measure.folioClose k f

/-- FIRMWARE_ACTIVATE: the reply leaves as the state becomes ACTIVATING; released Folios close (R441). -/
def execFirmwareActivate (h : Hdr) (s : State) : Out1 :=
  .next (s.command h .firmwareActivate 0x0921 (fun s =>
    if s.cur.updateState ≠ UpdateState.staged then refused s .badParam
    else (({ s with cur := { s.cur with updateState := .activating } }).each State.folioYields (s.sec.folios.map (fun (p : Nat × Folio) => p.1)), {})))

/-- The activation is over and the queued requests are served (R441, R442). -/
def State.servesAgain (s : State) : State :=
  { s with
    cur := { s.cur with updateState := .none, stagedDigest := [], stagedVersion := 0, fwQueue := [] }
    released := s.released ++ s.cur.fwQueue }

/-- FIRMWARE_RUNNING (R441). -/
def execFirmwareRunning (s : State) : Out1 :=
  if !s.activating then .next s
  else
    let s := { s with
      sec := { s.sec with secVersion := if s.sec.secVersion.toNat < s.cur.stagedVersion.toNat then s.cur.stagedVersion else s.sec.secVersion }
      flash := { s.flash with bank := !s.flash.bank } }
    .next s.measure.servesAgain

/-- FW_FALLBACK (R442, R439). -/
def execFwFallback (s : State) : Out1 :=
  if !s.activating then .next s
  else
    let b := !s.flash.bank
    let f := if b then { s.flash with bankValid1 := false } else { s.flash with bankValid0 := false }
    let s := ({ s with flash := f }).servesAgain
    .next ((s.fault { event := 0x0C, src := .device, status := Config.fwFallbackStatus s.freeCtr }).fresh)

end Sys2Proof.Machine
end

