-- ==== Sys2Proof/Machine/Module.lean ====
section
/-! DEFINITION. The module: power, pins, the governor, cooling, sensors, telemetry, the Calibration page, the Condition report (R385,
R386, R445 to R467).
Log entries with the readings and choices that are the model's: 8, 62, 65, 66. -/

namespace Sys2Proof.Machine

/-! ## Rails and pins (R445, R447, R453, R458, R459) -/

/-- An event of the power event log (R466): causes 0 to 5 of the end of operation, 6 blade fault, 7 sense fallback, 8 open sensor. -/
def State.logPower (s : State) (code : Nat) : State :=
  { s with flash := { s.flash with powerLog := last64 (s.flash.powerLog ++ [BitVec.ofNat 8 code]) } }

/-- Operation ends for a cause: no state is kept (R445, R465). -/
def State.endsFor (s : State) (cause : Nat) : State :=
  let s := s.blank.logPower cause
  { s with flash := { s.flash with lastOffCause := BitVec.ofNat 8 cause } }

/-- Every rail is removed and the trip is latched. -/
def State.trip (s : State) (cause : Nat) : State :=
  let s := s.endsFor cause
  { s with mod := { s.mod with tripped := true } }

/-- MOD_EN_LOW: a latched trip ends. -/
def execModEnLow (s : State) : Out1 :=
  let s := if s.mod.power = Power.off then s else s.endsFor 0
  .next { s with mod := { s.mod with modEn := false, tripped := false } }

/-- MOD_RST_N_LOW: the rails stay up and every unit is held in reset; of a module that is off, only the pin changes. -/
def execModRstNLow (s : State) : Out1 :=
  if s.mod.power = Power.off then .next { s with mod := { s.mod with modRstN := false } }
  else if s.mod.power ≠ Power.on then .next s
  else
    let ok := s.mod.pwrOk
    let s := s.endsFor 5
    .next { s with mod := { s.mod with power := .held, modRstN := false, pwrOk := ok } }

/-- INPUT_OUT_OF_RANGE. -/
def execInputOutOfRange (high : Bool) (s : State) : Out1 :=
  .next (if s.mod.power = Power.off then s else s.endsFor (if high then 2 else 1))

/-- INPUT_RECOVERED: a cold start, or the hold in reset that MOD_RST_N asks for, with every rail up (R447, R453). -/
def execInputRecovered (straps : BitVec 6) (s : State) : Out1 :=
  if s.mod.power ≠ Power.off ∨ !s.mod.modEn ∨ s.mod.tripped then .next s
  else if s.mod.modRstN then .next (s.beginCold straps)
  else .next { s with mod := { s.mod with power := .held, pwrOk := true } }

/-- BLADE_LOST, until the next cold start (R448). -/
def execBladeLost (s : State) : Out1 :=
  if s.mod.power ≠ Power.on ∨ s.mod.bladeFault then .next s
  else .next ({ s with mod := { s.mod with bladeFault := true } }.logPower 6)

/-- FLOW_SHUTDOWN: flow has stayed below 1.0 L/min. -/
def execFlowShutdown (s : State) : Out1 :=
  .next (if s.mod.power = Power.on ∧ s.mod.flow.toNat < 1000 then s.trip 4 else s)

/-- THERMAL_TRIP. -/
def execThermalTrip (s : State) : Out1 :=
  if s.mod.power = Power.off then .next s
  else
    let s := s.trip 3
    .next { s with flash := { s.flash with thermalTrips := satInc s.flash.thermalTrips } }

/-- A bit of a field. -/
def putBit {n : Nat} (v : BitVec n) (k : Nat) (b : Bool) : BitVec n := BitVec.ofNat n (setBits v.toNat k k (bit b))

/-- REMOTE_SENSE_OPEN (R455). -/
def execRemoteSenseOpen (rail : Fin 6) (s : State) : Out1 :=
  if s.mod.power ≠ Power.on ∨ bitOf s.mod.senseFallback.toNat rail.val then .next s
  else .next ({ s with mod := { s.mod with senseFallback := putBit s.mod.senseFallback rail.val true } }.logPower 7)

/-- REMOTE_SENSE_RESTORED (R455). -/
def execRemoteSenseRestored (rail : Fin 6) (s : State) : Out1 :=
  .next { s with mod := { s.mod with senseFallback := putBit s.mod.senseFallback rail.val false } }

/-- SENSOR_OPEN (R455). -/
def execSensorOpen (sensor : Fin 16) (s : State) : Out1 :=
  if s.mod.power ≠ Power.on ∨ bitOf s.mod.sensorOpen.toNat sensor.val then .next s
  else .next ({ s with mod := { s.mod with sensorOpen := putBit s.mod.sensorOpen sensor.val true } }.logPower 8)

/-- SENSOR_RESTORED (R455). -/
def execSensorRestored (sensor : Fin 16) (s : State) : Out1 :=
  .next { s with mod := { s.mod with sensorOpen := putBit s.mod.sensorOpen sensor.val false } }

/-- A Vault group is LOST. -/
def State.anyLost (s : State) : Bool := (List.range 8).any (fun g => (s.group g).isLost)

/-- FAULT_N is driven low (R422, R453). -/
def State.faultLow (s : State) : Bool :=
  decide (s.cur.phase = BPhase.failed) || s.anyLost || popCount 8 s.cur.cores.toNat == 1 || s.mod.bladeFault || s.mod.tripped

/-- THERM_N is pulled low (R453). -/
def State.thermLow (s : State) : Bool := s.mod.thermalLimited || s.mod.flowLow || s.mod.tripped

/-! ## The governor (R385, R448, R455, R457, R458, R464) -/

/-- The cap in force, W. -/
def Module.cap (m : Module) : Nat :=
  let c := m.powerCapW.toNat
  let c := if m.bladeFault then min c 1200 else c
  let c := if m.flowLow then min c (650 * m.flow.toNat / 1000) else c
  if m.calValid then c else min c 2000

/-- A junction, in 0.1 °C; an open sensor reads as 105 °C. -/
def Module.junction (m : Module) (k : Nat) : Int := if bitOf m.sensorOpen.toNat k then 1050 else nth 0 m.tj k

/-- The hottest junction of a Stage. -/
def Module.tjMax (m : Module) (st : Nat) : Int :=
  max (max (m.junction (4 * st)) (m.junction (4 * st + 1))) (max (m.junction (4 * st + 2)) (m.junction (4 * st + 3)))

/-- The junction limit, in 0.1 °C. -/
def Module.limit (m : Module) : Int := if m.calValid then 1050 else 950

/-- A sensor of the Stage is open. -/
def Module.openOn (m : Module) (st : Nat) : Bool := fld m.sensorOpen (4 * st + 3) (4 * st) != 0

/-- The temperature of a Stage holds its rail down. -/
def Module.hot (m : Module) (st : Nat) : Bool := decide (m.limit < m.tjMax st) || m.openOn st

/-- A value held between two bounds. -/
def within (lo hi v : Nat) : Nat := max lo (min hi v)

/-- Where a Stage's rail goes at a sample, in steps of 5 mV. -/
def Stage.railNext (x : Stage) (m : Module) (st : Nat) : Nat :=
  let lo := x.railMin.toNat
  let v := x.railMv.toNat
  within lo x.railMax.toNat
    (if m.openOn st then lo
    else if m.hot st ∨ m.cap < m.pinW.toNat then v - 5
    else if m.pinW.toNat < m.cap then v + 5
    else v)

/-- A Stage's rail moved. -/
def State.moveRail (s : State) (st : Nat) : State :=
  s.modStage st (fun x => { x with railMv := BitVec.ofNat 16 (x.railNext s.mod st) })

/-- A rail is below its upper limit. -/
def State.railBelow (s : State) (st : Nat) : Bool := decide ((s.stage st).railMv.toNat < (s.stage st).railMax.toNat)

/-- The limited states, and their entries counted (R386). -/
def State.limits (s : State) : State :=
  let m := s.mod
  let cap := decide (m.cap ≤ m.pinW.toNat) && (List.range 4).any s.railBelow
  let hot := (List.range 4).any (fun st => m.hot st && s.railBelow st)
  { s with
      mod := { m with
      capLimited := cap, thermalLimited := hot
      throttleEvents := satInc m.throttleEvents (bit (cap && !m.capLimited) + bit (hot && !m.thermalLimited)) } }

/-- The offset of a temperature sensor, in 0.01 °C: the page's, or zero where the page failed its checks (R461, R464). -/
def State.sensorOffset (s : State) (k : Nat) : Int :=
  if s.mod.calValid then (BitVec.ofNat 16 (calField s.flash.calPage (0x40 + 2 * k) 2)).toInt else 0

/-- A reading in 0.1 °C with its sensor's offset added, rounded down (R457; DESIGN CHOICE, log entry 65). -/
def State.corrected (s : State) (k : Nat) (reading : Int) : Int := (10 * reading + s.sensorOffset k) / 10

/-- The junction readings, corrected. -/
def State.junctions (s : State) (l : List Int) : List Int := l.zipIdx.map (fun (v, k) => s.corrected k v)

/-- GOVERNOR_SAMPLE. -/
def execGovernorSample (g : PowerSample) (s : State) : Out1 :=
  if s.mod.power ≠ Power.on then .next s
  else
    let s := { s with
      mod := { s.mod with
      vinMv := g.vinMv, iin := g.iin, pinW := g.pinW, tj := s.junctions g.tj
      tInlet := BitVec.ofInt 16 (s.corrected 22 g.tInlet.toInt), paceM := g.pace } }
    .next (s.each State.moveRail (List.range 4)).limits

/-- FLOW_READ (R458). -/
def execFlowRead (mlPerMin : BitVec 16) (s : State) : Out1 :=
  if s.mod.power ≠ Power.on then .next s
  else .next { s with mod := { s.mod with flow := mlPerMin, flowLow := decide (mlPerMin.toNat < 3600) } }

/-- POWER_CAP_SET. -/
def execPowerCapSet (h : Hdr) (v : BitVec 64) (s : State) : Out1 :=
  .next (s.command h (fun h => .powerCapSet h v) 0x0800 (fun s =>
    if v.toNat < 1200 ∨ 2400 < v.toNat then refused s .badParam
    else ({ s with mod := { s.mod with powerCapW := v.setWidth 12 } }, {})))

/-- RAIL_LIMITS. -/
def execRailLimits (h : Hdr) (st : BitVec 32) (v : BitVec 64) (s : State) : Out1 :=
  .next (s.command h (fun h => .railLimits h st v) 0x0801 (fun s =>
    let lo := fld v 15 0
    let hi := fld v 31 16
    if 4 ≤ st.toNat ∨ lo < 600 ∨ 850 < hi ∨ hi < lo ∨ fld v 63 32 ≠ 0 then refused s .badParam
    else (s.modStage st.toNat (fun x => { x with railMin := BitVec.ofNat 10 lo, railMax := BitVec.ofNat 10 hi }), {})))

/-! ## Telemetry (R386) -/

/-- The telemetry record. -/
def State.telemetry (s : State) : List Byte :=
  let m := s.mod
  leBytes 128 (pack ([(0, 64, s.now), (64, 16, m.vinMv.toNat), (80, 16, m.iin.toNat), (96, 16, m.pinW.toNat), (112, 16, m.cap)] ++
    (List.range 4).map (fun st => (128 + 16 * st, 16, (s.stage st).railMv.toNat)) ++
    (List.range 4).map (fun st => (192 + 16 * st, 16, (nth 0 m.paceM st).toNat)) ++
    (List.range 4).map (fun st => (256 + 16 * st, 16, wrapInt 16 (m.tjMax st))) ++
    [(320, 16, m.tInlet.toNat), (336, 16, m.flow.toNat), (352, 1, bit m.capLimited), (353, 1, bit m.thermalLimited),
      (354, 1, bit m.flowLow), (384, 32, m.throttleEvents.toNat)]))

/-- TELEMETRY_READ. -/
def execTelemetryRead (h : Hdr) (s : State) : Out1 :=
  .next (s.command h .telemetryRead 0x0802 (fun s => (s, { fields := [.data s.telemetry] })))

/-- TELEMETRY_STREAM: a period of 0 stops it. -/
def execTelemetryStream (h : Hdr) (a v : BitVec 64) (s : State) : Out1 :=
  .next (s.command h (fun h => .telemetryStream h a v) 0x0803 (fun s =>
    if v ≠ 0 ∧ (v.toNat < 1000 ∨ 10000000 < v.toNat) then refused s .badParam
    else ({ s with mod := { s.mod with telemetryAddr := a, telemetryUs := v.toNat } }, {})))

/-- TELEMETRY_PERIOD; services stand still while firmware is activated (R441). -/
def execTelemetryPeriod (s : State) : Out1 :=
  .next (if s.mod.power ≠ Power.on ∨ s.mod.telemetryUs = 0 ∨ s.activating then s else s.deviceWrite s.mod.telemetryAddr s.telemetry)

/-! ## Calibration page and Condition report (R461 to R464, R466, R467) -/

/-- CAL_READ. -/
def execCalRead (h : Hdr) (offset bytes : Option (BitVec 64)) (s : State) : Out1 :=
  .next (s.command h (fun h => .calRead h offset bytes) 0x0A00 (fun s =>
    let n := (bytes.getD 8192).toNat
    if 8192 < n then refused s .badParam
    else (s, { fields := [.data ((s.flash.calPage.drop (offset.getD 0).toNat).take n)] })))

/-- The page as the Curator writes it: CAL_ORIGIN 1, CAL_WRITES one more than stored, CAL_CRC anew. -/
def calStored (old page : List Byte) : List Byte :=
  let p := page.take 6 ++ [1, 0] ++ leBytes 4 (calField old 8 4 + 1) ++ (page.drop 12)
  p.take 60 ++ leBytes 4 (calCrc p).toNat ++ p.drop 64

/-- CAL_WRITE. -/
def execCalWrite (h : Hdr) (data : List Byte) (s : State) : Out1 :=
  .next (s.command h (fun h => .calWrite h data) 0x0A01 (fun s =>
    if !s.flash.pageOk data || !calReservedZero data then refused s .badParam
    else (({ s with flash := { s.flash with calPage := calStored s.flash.calPage data } }).measure, {})))

/-- What a Condition report holds of this state, section by section: header, bring-up registers, Catalogues, calibration, power event log,
telemetry, and the module registers (R466). -/
def State.conditionKnown (s : State) : List (List Byte) :=
  let words := fun (l : List Nat) => (l.map (fun o => leBytes 8 (s.curatorWord o))).flatten
  [leBytes 4 0x4B564352 ++ leBytes 4 1 ++ s.flash.serial ++ stepping ++ leBytes 1 (bit s.flash.bank) ++ s.flash.bankImage ++
      leBytes 4 s.flash.coldStarts.toNat ++ leBytes 8 s.now,
    words ((List.range 10).map (fun k => 0x100 + 8 * k)),
    catBytes s.flash.fuseCat, catBytes s.flash.moduleCat, catBytes (if s.flash.runtimeValid then s.flash.runtimeCat else []),
    s.flash.calPage ++ leBytes 1 (bit s.mod.calValid), (s.flash.powerLog.map (fun e => leBytes 1 e.toNat)).flatten, s.telemetry,
    words [0x000, 0x008, 0x300, 0x308]]

/-- CONDITION_CAPTURE: the report's bytes are free, of what it holds (DESIGN CHOICE, log entry 66). -/
def execConditionCapture (h : Hdr) (s : State) : Out1 :=
  .next (s.command h .conditionCapture 0x0F10 (fun s =>
    let b := Config.conditionSections s.conditionKnown s.freeCtr
    (({ s with flash := { s.flash with condition := some (b ++ Config.dsaSign idSeed (Config.sha3 b)) } }).fresh, {})))

/-- CONDITION_READ. -/
def execConditionRead (h : Hdr) (offset bytes : BitVec 64) (s : State) : Out1 :=
  .next (s.command h (fun h => .conditionRead h offset bytes) 0x0F11 (fun s =>
    if 16384 < bytes.toNat then refused s .badParam
    else match s.flash.condition with
      | none => refused s .gone
      | some r => (s, { fields := [.data ((r.drop offset.toNat).take bytes.toNat)] })))

end Sys2Proof.Machine
end

