-- ==== Sys2Proof/Machine/Dispatch.lean ====
section
/-! DEFINITION. The dispatch of every command and event to its meaning, one arm per constructor of Instr. -/

namespace Sys2Proof.Machine

/-- The effect of a command on everything but the queue. -/
def exec (i : Instr) (s : State) : Host.Outcome State Fault Refusal :=
  match i with
  | .vecCueComplete c => Sys2Proof.Machine.execVecCueComplete c s
  | .strStart c ecc => Sys2Proof.Machine.execStrStart c ecc s
  | .strRearm c => Sys2Proof.Machine.execStrRearm c s
  | .strRelease c => Sys2Proof.Machine.execStrRelease c s
  | .strTake c => Sys2Proof.Machine.execStrTake c s
  | .streamTileResident c x => Sys2Proof.Machine.execStreamTileResident c x s
  | .streamTransferComplete c x => Sys2Proof.Machine.execStreamTransferComplete c x s
  | .shadowInEffect c d => Sys2Proof.Machine.execShadowInEffect c d s
  | .handleArrival c ep handle src => Sys2Proof.Machine.execHandleArrival c ep handle src s
  | .handleReleaseAnswer c ep status => Sys2Proof.Machine.execHandleReleaseAnswer c ep status s
  | .send c => Sys2Proof.Machine.execSend c s
  | .recv c => Sys2Proof.Machine.execRecv c s
  | .compl c => Sys2Proof.Machine.execCompl c s
  | .msgCreditGrant c ch => Sys2Proof.Machine.execMsgCreditGrant c ch s
  | .msgCompleteInRing c ch => Sys2Proof.Machine.execMsgCompleteInRing c ch s
  | .recvCopyDone c => Sys2Proof.Machine.execRecvCopyDone c s
  | .sendComplete c seq => Sys2Proof.Machine.execSendComplete c seq s
  | .tokenSignalArrival c token => Sys2Proof.Machine.execTokenSignalArrival c token s
  | .rampLevelStep c a => Sys2Proof.Machine.execRampLevelStep c a s
  | .holdFillEnd c a => Sys2Proof.Machine.execHoldFillEnd c a s
  | .fillBudgetExhausted c => Sys2Proof.Machine.execFillBudgetExhausted c s
  | .fillWindowReset c => Sys2Proof.Machine.execFillWindowReset c s
  | .sceneCommit c => Sys2Proof.Machine.execSceneCommit c s
  | .rngReseed c k => Sys2Proof.Machine.execRngReseed c k s
  | .entropyHealthFail t => Sys2Proof.Machine.execEntropyHealthFail t s
  | .entropyHealthOk t => Sys2Proof.Machine.execEntropyHealthOk t s
  | .tableSlotWrite c slot off value => Sys2Proof.Machine.execTableSlotWrite c slot off value s
  | .tableSlotCrcWrite c slot value => Sys2Proof.Machine.execTableSlotCrcWrite c slot value s
  | .tableReread c slot storeError => Sys2Proof.Machine.execTableReread c slot storeError s
  | .tableSlotReload c slot => Sys2Proof.Machine.execTableSlotReload c slot s
  | .rootCue c => Sys2Proof.Machine.execRootCue c s
  | .rootJobStart t => Sys2Proof.Machine.execRootJobStart t s
  | .rootJobBoundary t => Sys2Proof.Machine.execRootJobBoundary t s
  | .rootJobEnd t => Sys2Proof.Machine.execRootJobEnd t s
  | .rootDeadlineMiss t jobSeq => Sys2Proof.Machine.execRootDeadlineMiss t jobSeq s
  | .rootAssemblyStart t => Sys2Proof.Machine.execRootAssemblyStart t s
  | .rootAssemblyComplete t => Sys2Proof.Machine.execRootAssemblyComplete t s
  | .slotClear t mask => Sys2Proof.Machine.execSlotClear t mask s
  | .galleryLineAdd addr value ecc => Sys2Proof.Machine.execGalleryLineAdd addr value ecc s
  | .galleryLineAccess addr acc ecc => Sys2Proof.Machine.execGalleryLineAccess addr acc ecc s
  | .galleryPatrolScrub addr ecc => Sys2Proof.Machine.execGalleryPatrolScrub addr ecc s
  | .vaultLineAccess addr acc err => Sys2Proof.Machine.execVaultLineAccess addr acc err s
  | .chHeld g ch => Sys2Proof.Machine.execChHeld g ch s
  | .driftRetrain g ch => Sys2Proof.Machine.execDriftRetrain g ch s
  | .retrainStart g ch => Sys2Proof.Machine.execRetrainStart g ch s
  | .retrainAttemptEnd g ok => Sys2Proof.Machine.execRetrainAttemptEnd g ok s
  | .pageRebuilt g => Sys2Proof.Machine.execPageRebuilt g s
  | .rowRepairStart g ch addr repairLeft => Sys2Proof.Machine.execRowRepairStart g ch addr repairLeft s
  | .rowRepaired g addr => Sys2Proof.Machine.execRowRepaired g addr s
  | .pageStateError g word => Sys2Proof.Machine.execPageStateError g word s
  | .pageConverted g => Sys2Proof.Machine.execPageConverted g s
  | .noticeOffer => Sys2Proof.Machine.execNoticeOffer s
  | .nqConfigWrite q value => Sys2Proof.Machine.execNqConfigWrite q value s
  | .nqHeadWrite q value => Sys2Proof.Machine.execNqHeadWrite q value s
  | .nqFlush q => Sys2Proof.Machine.execNqFlush q s
  | .flushGapPublish q => Sys2Proof.Machine.execFlushGapPublish q s
  | .nqAnnounceWrite q => Sys2Proof.Machine.execNqAnnounceWrite q s
  | .runStart c => Sys2Proof.Machine.execRunStart c s
  | .runStop c => Sys2Proof.Machine.execRunStop c s
  | .hqEnableWrite c ep v => Sys2Proof.Machine.execHqEnableWrite c ep v s
  | .hqInjectWrite c value => Sys2Proof.Machine.execHqInjectWrite c value s
  | .hqPriorityWrite c ep p => Sys2Proof.Machine.execHqPriorityWrite c ep p s
  | .registerWrite addr value => Sys2Proof.Machine.execRegisterWrite addr value s
  | .registerReadClear addr => Sys2Proof.Machine.execRegisterReadClear addr s
  | .credGo session value => Sys2Proof.Machine.execCredGo session value s
  | .ownerRelease session => Sys2Proof.Machine.execOwnerRelease session s
  | .gradientClose n ix => Sys2Proof.Machine.execGradientClose n ix s
  | .closeCopyDone n => Sys2Proof.Machine.execCloseCopyDone n s
  | .closeZeroDone n => Sys2Proof.Machine.execCloseZeroDone n s
  | .sweepStart n ix => Sys2Proof.Machine.execSweepStart n ix s
  | .sweepPassStart n => Sys2Proof.Machine.execSweepPassStart n s
  | .sweepBlockDone n => Sys2Proof.Machine.execSweepBlockDone n s
  | .skipCopyDone n => Sys2Proof.Machine.execSkipCopyDone n s
  | .sweepCommit n => Sys2Proof.Machine.execSweepCommit n s
  | .compareDone n => Sys2Proof.Machine.execCompareDone n s
  | .mioderPut r => Sys2Proof.Machine.execMioderPut r s
  | .mioderGet r => Sys2Proof.Machine.execMioderGet r s
  | .mioderAtomic r => Sys2Proof.Machine.execMioderAtomic r s
  | .mioderAdd r => Sys2Proof.Machine.execMioderAdd r s
  | .mioderMsg r => Sys2Proof.Machine.execMioderMsg r s
  | .mioderToken r => Sys2Proof.Machine.execMioderToken r s
  | .mioderHandle r => Sys2Proof.Machine.execMioderHandle r s
  | .mioderUnitReset r => Sys2Proof.Machine.execMioderUnitReset r s
  | .mioderUnitDescribe r => Sys2Proof.Machine.execMioderUnitDescribe r s
  | .mioderRegRead r => Sys2Proof.Machine.execMioderRegRead r s
  | .mioderRegWrite r => Sys2Proof.Machine.execMioderRegWrite r s
  | .mioderResponse r => Sys2Proof.Machine.execMioderResponse r s
  | .mioderAck k => Sys2Proof.Machine.execMioderAck k s
  | .mioderProbe a path counter phase => Sys2Proof.Machine.execMioderProbe a path counter phase s
  | .retransmitTimeout a psn => Sys2Proof.Machine.execRetransmitTimeout a psn s
  | .pathProbeTimer a path => Sys2Proof.Machine.execPathProbeTimer a path s
  | .idleProbe a path => Sys2Proof.Machine.execIdleProbe a path s
  | .msgBusyRetry a reqId => Sys2Proof.Machine.execMsgBusyRetry a reqId s
  | .subPortDown p sub lane => Sys2Proof.Machine.execSubPortDown p sub lane s
  | .subPortUp p sub inv order => Sys2Proof.Machine.execSubPortUp p sub inv order s
  | .subportRetrainEnd p sub ok => Sys2Proof.Machine.execSubportRetrainEnd p sub ok s
  | .subportRetryTimer p sub => Sys2Proof.Machine.execSubportRetryTimer p sub s
  | .assocHandshake a m reduced => Sys2Proof.Machine.execAssocHandshake a m reduced s
  | .assocOpenTimeout a => Sys2Proof.Machine.execAssocOpenTimeout a s
  | .assocTimeout a => Sys2Proof.Machine.execAssocTimeout a s
  | .counterRekey a => Sys2Proof.Machine.execCounterRekey a s
  | .rxOldKeyExpire a => Sys2Proof.Machine.execRxOldKeyExpire a s
  | .migratePassDone fail => Sys2Proof.Machine.execMigratePassDone fail s
  | .migrateComplete fail => Sys2Proof.Machine.execMigrateComplete fail s
  | .collRunStart k => Sys2Proof.Machine.execCollRunStart k s
  | .collDeviceDone k => Sys2Proof.Machine.execCollDeviceDone k s
  | .mioderCollData r => Sys2Proof.Machine.execMioderCollData r s
  | .mioderCollReady r => Sys2Proof.Machine.execMioderCollReady r s
  | .mioderCollDone r => Sys2Proof.Machine.execMioderCollDone r s
  | .mioderCollAbort r => Sys2Proof.Machine.execMioderCollAbort r s
  | .mioderCollGns r => Sys2Proof.Machine.execMioderCollGns r s
  | .collTimeout k => Sys2Proof.Machine.execCollTimeout k s
  | .phaseTransitionStart m => Sys2Proof.Machine.execPhaseTransitionStart m s
  | .chainChunkReceived k => Sys2Proof.Machine.execChainChunkReceived k s
  | .chunkVerified k chunk => Sys2Proof.Machine.execChunkVerified k chunk s
  | .discover h => Sys2Proof.Machine.execDiscover h s
  | .inventory h => Sys2Proof.Machine.execInventory h s
  | .unitDescribe h unit => Sys2Proof.Machine.execUnitDescribe h unit s
  | .ensembleDefine h members tagValue => Sys2Proof.Machine.execEnsembleDefine h members tagValue s
  | .ensembleEdit h unit members remove => Sys2Proof.Machine.execEnsembleEdit h unit members remove s
  | .ensembleDelete h unit => Sys2Proof.Machine.execEnsembleDelete h unit s
  | .productionLoad h addr bytes nq => Sys2Proof.Machine.execProductionLoad h addr bytes nq s
  | .productionRun h index unit => Sys2Proof.Machine.execProductionRun h index unit s
  | .productionStop h index unit => Sys2Proof.Machine.execProductionStop h index unit s
  | .productionUnload h index => Sys2Proof.Machine.execProductionUnload h index s
  | .productionList h => Sys2Proof.Machine.execProductionList h s
  | .shardLoad h unitNo addr => Sys2Proof.Machine.execShardLoad h unitNo addr s
  | .shardResumeRetry h unitNo index => Sys2Proof.Machine.execShardResumeRetry h unitNo index s
  | .shardResumeDiscard h unitNo index => Sys2Proof.Machine.execShardResumeDiscard h unitNo index s
  | .shardUnload h unitNo index => Sys2Proof.Machine.execShardUnload h unitNo index s
  | .shardCompare h unitNo index => Sys2Proof.Machine.execShardCompare h unitNo index s
  | .rootSubmit h addr priority nq => Sys2Proof.Machine.execRootSubmit h addr priority nq s
  | .rootCancel h value => Sys2Proof.Machine.execRootCancel h value s
  | .collectivePost h addr => Sys2Proof.Machine.execCollectivePost h addr s
  | .collectiveRun h index => Sys2Proof.Machine.execCollectiveRun h index s
  | .collectiveCancel h index => Sys2Proof.Machine.execCollectiveCancel h index s
  | .collectiveRelease h index => Sys2Proof.Machine.execCollectiveRelease h index s
  | .mappingPost h index addr => Sys2Proof.Machine.execMappingPost h index addr s
  | .mappingRelease h index => Sys2Proof.Machine.execMappingRelease h index s
  | .memRead h addr bytes => Sys2Proof.Machine.execMemRead h addr bytes s
  | .memWrite h addr data => Sys2Proof.Machine.execMemWrite h addr data s
  | .memFill h addr bytes value nq => Sys2Proof.Machine.execMemFill h addr bytes value nq s
  | .regRead h addr => Sys2Proof.Machine.execRegRead h addr s
  | .regWrite h addr value => Sys2Proof.Machine.execRegWrite h addr value s
  | .fabricSetId h device => Sys2Proof.Machine.execFabricSetId h device s
  | .portConfigure h index value => Sys2Proof.Machine.execPortConfigure h index value s
  | .portAddress h index ip => Sys2Proof.Machine.execPortAddress h index ip s
  | .assocOpen h device ip keyClass nq => Sys2Proof.Machine.execAssocOpen h device ip keyClass nq s
  | .assocClose h index => Sys2Proof.Machine.execAssocClose h index s
  | .assocRekey h index => Sys2Proof.Machine.execAssocRekey h index s
  | .assocDescribe h index => Sys2Proof.Machine.execAssocDescribe h index s
  | .accessionSet h index data => Sys2Proof.Machine.execAccessionSet h index data s
  | .accessionClear h index => Sys2Proof.Machine.execAccessionClear h index s
  | .segmentMigrate h index device addr nq => Sys2Proof.Machine.execSegmentMigrate h index device addr nq s
  | .accessionRead h index => Sys2Proof.Machine.execAccessionRead h index s
  | .attest h nonce options => Sys2Proof.Machine.execAttest h nonce options s
  | .sessionOpenInit h init => Sys2Proof.Machine.execSessionOpenInit h init s
  | .sessionOpenFinish h hsId signature => Sys2Proof.Machine.execSessionOpenFinish h hsId signature s
  | .sessionClose h => Sys2Proof.Machine.execSessionClose h s
  | .folioKey h index record => Sys2Proof.Machine.execFolioKey h index record s
  | .vaultRotate h => Sys2Proof.Machine.execVaultRotate h s
  | .hostModeEnter h devices => Sys2Proof.Machine.execHostModeEnter h devices s
  | .hostModeLeave h => Sys2Proof.Machine.execHostModeLeave h s
  | .storeAttach h ip l4Port nqn action nq => Sys2Proof.Machine.execStoreAttach h ip l4Port nqn action nq s
  | .storeDetach h index => Sys2Proof.Machine.execStoreDetach h index s
  | .storeRead h index nsid lba blocks addr nq => Sys2Proof.Machine.execStoreRead h index nsid lba blocks addr nq s
  | .storeWrite h index nsid lba addr bytes nq => Sys2Proof.Machine.execStoreWrite h index nsid lba addr bytes nq s
  | .storeConnectionLost attachment => Sys2Proof.Machine.execStoreConnectionLost attachment s
  | .folioLoad h index nsid lba addr options nq => Sys2Proof.Machine.execFolioLoad h index nsid lba addr options nq s
  | .folioUnload h index => Sys2Proof.Machine.execFolioUnload h index s
  | .folioDecryptDone f => Sys2Proof.Machine.execFolioDecryptDone f s
  | .checkpointWrite h index nsid lba addr nq => Sys2Proof.Machine.execCheckpointWrite h index nsid lba addr nq s
  | .checkpointRestore h index nsid lba nq => Sys2Proof.Machine.execCheckpointRestore h index nsid lba nq s
  | .nqConfigure h index value => Sys2Proof.Machine.execNqConfigure h index value s
  | .nqRead h index bytes => Sys2Proof.Machine.execNqRead h index bytes s
  | .nqAdvance h index value => Sys2Proof.Machine.execNqAdvance h index value s
  | .nqFlushCmd h index => Sys2Proof.Machine.execNqFlushCmd h index s
  | .nqAnnounce h index addr => Sys2Proof.Machine.execNqAnnounce h index addr s
  | .resultRead h slot seq => Sys2Proof.Machine.execResultRead h slot seq s
  | .resultRelease h slot seq => Sys2Proof.Machine.execResultRelease h slot seq s
  | .asyncCommandEnd slot env => Sys2Proof.Machine.execAsyncCommandEnd slot env s
  | .resultSlotExpire slot => Sys2Proof.Machine.execResultSlotExpire slot s
  | .powerCapSet h value => Sys2Proof.Machine.execPowerCapSet h value s
  | .railLimits h unitNo value => Sys2Proof.Machine.execRailLimits h unitNo value s
  | .telemetryRead h => Sys2Proof.Machine.execTelemetryRead h s
  | .telemetryStream h addr value => Sys2Proof.Machine.execTelemetryStream h addr value s
  | .telemetryPeriod => Sys2Proof.Machine.execTelemetryPeriod s
  | .reset h unit options => Sys2Proof.Machine.execReset h unit options s
  | .resetQuiesced k => Sys2Proof.Machine.execResetQuiesced k s
  | .wipeEnd k => Sys2Proof.Machine.execWipeEnd k s
  | .doorOpen k => Sys2Proof.Machine.execDoorOpen k s
  | .replyDiscarded c r => Sys2Proof.Machine.execReplyDiscarded c r s
  | .bringupStatus h => Sys2Proof.Machine.execBringupStatus h s
  | .catalogueRead h index first => Sys2Proof.Machine.execCatalogueRead h index first s
  | .firmwareStage h addr bytes => Sys2Proof.Machine.execFirmwareStage h addr bytes s
  | .firmwareActivate h => Sys2Proof.Machine.execFirmwareActivate h s
  | .firmwareRunning => Sys2Proof.Machine.execFirmwareRunning s
  | .fwFallback => Sys2Proof.Machine.execFwFallback s
  | .calRead h offset bytes => Sys2Proof.Machine.execCalRead h offset bytes s
  | .calWrite h data => Sys2Proof.Machine.execCalWrite h data s
  | .rehearsalEnter h => Sys2Proof.Machine.execRehearsalEnter h s
  | .rehearsalLeave h => Sys2Proof.Machine.execRehearsalLeave h s
  | .accumRead h unit index => Sys2Proof.Machine.execAccumRead h unit index s
  | .regForce h addr value => Sys2Proof.Machine.execRegForce h addr value s
  | .conditionCapture h => Sys2Proof.Machine.execConditionCapture h s
  | .conditionRead h offset bytes => Sys2Proof.Machine.execConditionRead h offset bytes s
  | .cmdFragmentTimeout h => Sys2Proof.Machine.execCmdFragmentTimeout h s
  | .sessionIdleTimeout session => Sys2Proof.Machine.execSessionIdleTimeout session s
  | .sessionCounterClose session => Sys2Proof.Machine.execSessionCounterClose session s
  | .handshakeExpire hsId => Sys2Proof.Machine.execHandshakeExpire hsId s
  | .coldStart straps => Sys2Proof.Machine.execColdStart straps s
  | .bringupPhaseEnd e => Sys2Proof.Machine.execBringupPhaseEnd e s
  | .troupeWaveStart w failed => Sys2Proof.Machine.execTroupeWaveStart w failed s
  | .coreFaultDetected c f => Sys2Proof.Machine.execCoreFaultDetected c f s
  | .takeoverShadowLoaded c shadowError => Sys2Proof.Machine.execTakeoverShadowLoaded c shadowError s
  | .takeover c interruptNs => Sys2Proof.Machine.execTakeover c interruptNs s
  | .understudyLost t b => Sys2Proof.Machine.execUnderstudyLost t b s
  | .planeFailover st interruptNs => Sys2Proof.Machine.execPlaneFailover st interruptNs s
  | .curatorFailover core interruptNs => Sys2Proof.Machine.execCuratorFailover core interruptNs s
  | .phaseLost rail phase => Sys2Proof.Machine.execPhaseLost rail phase s
  | .modEnLow => Sys2Proof.Machine.execModEnLow s
  | .modRstNLow => Sys2Proof.Machine.execModRstNLow s
  | .inputOutOfRange high => Sys2Proof.Machine.execInputOutOfRange high s
  | .inputRecovered straps => Sys2Proof.Machine.execInputRecovered straps s
  | .bladeLost => Sys2Proof.Machine.execBladeLost s
  | .governorSample g => Sys2Proof.Machine.execGovernorSample g s
  | .flowRead mlPerMin => Sys2Proof.Machine.execFlowRead mlPerMin s
  | .flowShutdown => Sys2Proof.Machine.execFlowShutdown s
  | .thermalTrip => Sys2Proof.Machine.execThermalTrip s
  | .remoteSenseOpen rail => Sys2Proof.Machine.execRemoteSenseOpen rail s
  | .sensorOpen sensor => Sys2Proof.Machine.execSensorOpen sensor s
  | .accumulatorsKept c => Sys2Proof.Machine.execAccumulatorsKept c s
  | .assemblyGroupEnd t => Sys2Proof.Machine.execAssemblyGroupEnd t s
  | .factorFoldDone n => Sys2Proof.Machine.execFactorFoldDone n s
  | .describeMemberTimeout job device => Sys2Proof.Machine.execDescribeMemberTimeout job device s
  | .commandPacketRejected h opcode why => Sys2Proof.Machine.execCommandPacketRejected h opcode why s
  | .mioderPacketDropped a why => Sys2Proof.Machine.execMioderPacketDropped a why s
  | .remoteSenseRestored rail => Sys2Proof.Machine.execRemoteSenseRestored rail s
  | .sensorRestored sensor => Sys2Proof.Machine.execSensorRestored sensor s
  | .nop c => Sys2Proof.Machine.execNop c s
  | .jump c => Sys2Proof.Machine.execJump c s
  | .loopSet c => Sys2Proof.Machine.execLoopSet c s
  | .loopBranch c => Sys2Proof.Machine.execLoopBranch c s
  | .scene c => Sys2Proof.Machine.execScene c s
  | .halt c => Sys2Proof.Machine.execHalt c s
  | .agBase c => Sys2Proof.Machine.execAgBase c s
  | .agDim c => Sys2Proof.Machine.execAgDim c s
  | .tileSet c => Sys2Proof.Machine.execTileSet c s
  | .regSet c => Sys2Proof.Machine.execRegSet c s
  | .cueSkip c => Sys2Proof.Machine.execCueSkip c s
  | .synTake c => Sys2Proof.Machine.execSynTake c s
  | .give c => Sys2Proof.Machine.execGive c s
  | .fence c => Sys2Proof.Machine.execFence c s
  | .tileFree c => Sys2Proof.Machine.execTileFree c s
  | .tileReady c => Sys2Proof.Machine.execTileReady c s
  | .flags c => Sys2Proof.Machine.execFlags c s
  | .arrOs c => Sys2Proof.Machine.execArrOs c s
  | .arrOsSq c => Sys2Proof.Machine.execArrOsSq c s
  | .arrOsHeld c => Sys2Proof.Machine.execArrOsHeld c s
  | .arrWs c => Sys2Proof.Machine.execArrWs c s
  | .arrBwdDual c => Sys2Proof.Machine.execArrBwdDual c s
  | .tileCheckVerdict c a upset => Sys2Proof.Machine.execTileCheckVerdict c a upset s
  | .arrDestinationResident c a => Sys2Proof.Machine.execArrDestinationResident c a s
  | .stationaryPreloadDone c a => Sys2Proof.Machine.execStationaryPreloadDone c a s
  | .grm c => Sys2Proof.Machine.execGrm c s
  | .vecConvert c => Sys2Proof.Machine.execVecConvert c s
  | .vecAdd c => Sys2Proof.Machine.execVecAdd c s
  | .vecSub c => Sys2Proof.Machine.execVecSub c s
  | .vecMul c => Sys2Proof.Machine.execVecMul c s
  | .vecFmas c => Sys2Proof.Machine.execVecFmas c s
  | .vecAdds c => Sys2Proof.Machine.execVecAdds c s
  | .vecMuls c => Sys2Proof.Machine.execVecMuls c s
  | .vecMax c => Sys2Proof.Machine.execVecMax c s
  | .vecMin c => Sys2Proof.Machine.execVecMin c s
  | .vecAbs c => Sys2Proof.Machine.execVecAbs c s
  | .vecDiv c => Sys2Proof.Machine.execVecDiv c s
  | .vecRecip c => Sys2Proof.Machine.execVecRecip c s
  | .vecSqrt c => Sys2Proof.Machine.execVecSqrt c s
  | .vecRsqrt c => Sys2Proof.Machine.execVecRsqrt c s
  | .vecSubr c => Sys2Proof.Machine.execVecSubr c s
  | .vecMulr c => Sys2Proof.Machine.execVecMulr c s
  | .vecNormr c => Sys2Proof.Machine.execVecNormr c s
  | .vecMulc c => Sys2Proof.Machine.execVecMulc c s
  | .vecAddc c => Sys2Proof.Machine.execVecAddc c s
  | .vecExpsubr c => Sys2Proof.Machine.execVecExpsubr c s
  | .vecDivr c => Sys2Proof.Machine.execVecDivr c s
  | .vecFunc c => Sys2Proof.Machine.execVecFunc c s
  | .vecDeriv c => Sys2Proof.Machine.execVecDeriv c s
  | .vecPermute c => Sys2Proof.Machine.execVecPermute c s
  | .vecShuffle c => Sys2Proof.Machine.execVecShuffle c s
  | .vecPackEven c => Sys2Proof.Machine.execVecPackEven c s
  | .vecPackOdd c => Sys2Proof.Machine.execVecPackOdd c s
  | .vecUnpackLo c => Sys2Proof.Machine.execVecUnpackLo c s
  | .vecUnpackHi c => Sys2Proof.Machine.execVecUnpackHi c s
  | .vecIdxLoad c => Sys2Proof.Machine.execVecIdxLoad c s
  | .vecFreqLoad c => Sys2Proof.Machine.execVecFreqLoad c s
  | .vecRsum c => Sys2Proof.Machine.execVecRsum c s
  | .vecRsumsq c => Sys2Proof.Machine.execVecRsumsq c s
  | .vecRmax c => Sys2Proof.Machine.execVecRmax c s
  | .vecRmin c => Sys2Proof.Machine.execVecRmin c s
  | .vecRamax c => Sys2Proof.Machine.execVecRamax c s
  | .vecRdot c => Sys2Proof.Machine.execVecRdot c s
  | .vecRstats c => Sys2Proof.Machine.execVecRstats c s
  | .vecRrms c => Sys2Proof.Machine.execVecRrms c s
  | .vecMask c => Sys2Proof.Machine.execVecMask c s
  | .vecRotary c => Sys2Proof.Machine.execVecRotary c s
  | .vecTopk c => Sys2Proof.Machine.execVecTopk c s
  | .vecSplit c => Sys2Proof.Machine.execVecSplit c s
  | .vecJoin c => Sys2Proof.Machine.execVecJoin c s

end Sys2Proof.Machine
end

