-- ==== Sys2Proof/Machine/Step.lean ====
section
/-! DEFINITION. The step of the block: the command at the front of its queue, or a tick where the queue is empty. -/

namespace Sys2Proof.Machine

/-- What an empty queue does: requests released by a door or kept through a firmware activation come to the queue, else the
Curator's timer counts one tick (R333, R428, R441; DESIGN CHOICE: log entry 1). -/
def State.tick (s : State) : State :=
  match s.released with
  | [] => { s with now := s.now + 1 }
  | l => { s with pending := l, released := [], heldSessions := s.heldSessions.filter (fun p => s.holding p.1) }

/-- One step. -/
def step (s : State) : Host.Outcome State Fault Refusal :=
  match s.pending with
  | i :: t => exec i { s with pending := t }
  | [] => .next s.tick

/-- The state with a command in front of its queue. -/
def State.enqueueFront (s : State) (i : Instr) : State := { s with pending := i :: s.pending }

/-- The state with the command that a word spells in front of its queue; unchanged where it spells none (DESIGN CHOICE: log entry 2). -/
def State.withFetchWord (s : State) (nbits w : Nat) : State :=
  match Sys2Proof.decodeTableWord nbits w with
  | some i => s.enqueueFront i
  | none => s

end Sys2Proof.Machine
end

