-- ==== Sys2Proof/Safety.lean ====
section
/-! DEFINITION. What statements about the block are said in: the invariants of a state, when a command completes, when a cue issues,
when a command of a session is carried out. -/

namespace Sys2Proof.Machine

/-- The rails are on wherever PWR_OK is released; a latched trip means that they are off; the cap is one that POWER_CAP_SET takes. -/
abbrev Module.sound (m : Module) : Prop :=
  (m.power = .off → m.pwrOk = false) ∧ (m.tripped = true → m.power = .off) ∧ 1200 ≤ m.powerCapW.toNat ∧ m.powerCapW.toNat ≤ 2400

/-- What every step keeps: memory in its canonical form, a sound module, at most 64 sessions (R363, R385, R445, R453). -/
abbrev State.Inv (s : State) : Prop := Memory.wf s.mem = true ∧ s.mod.sound ∧ s.cur.sessions.length ≤ 64

/-- So many steps lead from one state to another. -/
inductive Runs : Nat → State → State → Prop where
  | zero (s : State) : Runs 0 s s
  | succ {n : Nat} {s t u : State} : step s = .next t → Runs n t u → Runs (n + 1) s u

/-- A command answers a next state, of which `P` holds. -/
def completes (i : Instr) (s : State) (P : State → Prop) : Prop := ∃ t, exec i s = .next t ∧ P t

/-- From `s` to `t` only notices were raised, and one of the kind goes to queue `q`. -/
def tells (s t : State) (kind q : Nat) : Prop :=
  ∃ l n, t.raised = s.raised ++ l ∧ n ∈ l ∧ n.queue = q ∧ n.kind = BitVec.ofNat 16 kind

/-- Memory outside [a, a + n) is the same. -/
def sameOutside (s t : State) (a n : Nat) : Prop := ∀ k, k < a ∨ a + n ≤ k → Memory.get t.mem k = Memory.get s.mem k

/-- Every byte of memory is the same. -/
def sameMem (s t : State) : Prop := ∀ k, Memory.get t.mem k = Memory.get s.mem k

/-- A packet of a peer is admitted: its association is UP, its counter is new, its PSN was not received (R307, R311, R326). -/
abbrev State.takes (s : State) (k : Nat) (counter : W64) (phase : Bool) (psn : BitVec 32) (path : Nat) : Prop :=
  (s.receive k counter phase psn path).2 = true

/-- The association keeps, to send or sent, a response to a request. -/
def respondedTo (t : State) (k : Nat) (reqId : BitVec 32) (st : Status) (data : List Byte) : Prop :=
  ∃ p ∈ (t.assoc k).kept, p.reqId = reqId ∧ p.out.status = some st ∧ p.out.data = data

/-- The end of a collective's run sets no transition of its mapping going: none runs, it is stopped, or the run is its own and stops it
(R347). -/
abbrev State.endsAlone (s : State) (k : Nat) : Prop :=
  (s.collOf k).inMap = false ∨ (s.mapping (s.collOf k).mapNo).transition = false ∨ (s.mapping (s.collOf k).mapNo).stopped = true ∨
    ∃ r, (s.collOf k).now = some r ∧ r.byTransition = true

/-- A transition of a collective's mapping, if one runs, waits for a run in progress (R347). -/
abbrev State.mapStays (s : State) (k : Nat) : Prop :=
  (s.collOf k).inMap = true → (s.mapping (s.collOf k).mapNo).transition = true → (s.mapping (s.collOf k).mapNo).stopped = false →
    ∃ id l j, (s.mapping (s.collOf k).mapNo).todo = id :: l ∧ s.collById id.toNat = some j ∧ (s.collOf j).now.isSome = true

/-- Nothing of other agents waits at the door of a Core: no Mioder request, no write of the device, no run of a collective (R198, R428). -/
abbrev State.doorIdle (s : State) (c : Nat) : Prop :=
  (∀ p ∈ s.mio.doorHeld, p.1 ≠ c) ∧ s.mio.heldWrites = [] ∧ ∀ k, (s.collOf k).now = none

/-! ## Cues (R92, R96) -/

/-- The Prompter of Core `c` stands at the cue `q` and decides `v` of it. -/
abbrev State.decides (s : State) (c : CoreNo) (q : W128) (v : Verdict) : Prop :=
  (s.core c.val).live = true ∧ (s.core c.val).cueAt = q ∧ (s.core c.val).verdict (s.stage (stageOfCore c.val)).jump.toNat q = v

/-- It issues the cue, having drawn `pk`. -/
abbrev State.issues (s : State) (c : CoreNo) (q : W128) (pk : Peek) : Prop := s.decides c q (.issue pk)

/-- A token once the cue has taken the one it waits for. -/
def Core.waited (x : Core) (q : W128) (k : Nat) : Nat := if cueWait q = some k then x.token k - 1 else x.token k

/-- A token of value `v` after the signal of the cue. -/
def signalled (q : W128) (k v : Nat) : Nat := if cueSignal q = some k then min (v + 1) 15 else v

/-- The rows that issue a CTL or a SYN cue, each with the cues it issues. -/
def PrompterRow (r : (W128 → Bool) × (CoreNo → Instr)) : Prop := r ∈ ([
  (isCue 0 0, .nop), (isCue 0 1, .jump), (isCue 0 2, .loopSet), (isCue 0 3, .loopBranch), (isCue 0 4, .scene), (isCue 0 5, .halt),
  (isCue 0 6, .agBase), (isCue 0 7, .agDim), (isCue 0 8, .tileSet), (isCue 0 9, .regSet), (isCue 1 0, .synTake), (isCue 1 1, .give),
  (isCue 1 2, .fence), (isCue 1 3, .tileFree), (isCue 1 4, .tileReady), (isCue 1 5, .flags)] : List ((W128 → Bool) × (CoreNo → Instr)))

/-- The ARR rows, each with its mode. -/
def ArrRow (r : Nat × (CoreNo → Instr)) : Prop :=
  r ∈ ([(0, .arrOs), (1, .arrOsSq), (2, .arrOsHeld), (3, .arrWs), (4, .arrBwdDual)] : List (Nat × (CoreNo → Instr)))

/-- The VEC rows, each with its OP. -/
def VecRow (r : Nat × (CoreNo → Instr)) : Prop := r ∈ ([
  (0x00, .vecConvert), (0x01, .vecAdd), (0x02, .vecSub), (0x03, .vecMul), (0x04, .vecFmas), (0x05, .vecAdds), (0x06, .vecMuls),
  (0x07, .vecMax), (0x08, .vecMin), (0x09, .vecAbs), (0x0A, .vecDiv), (0x0B, .vecRecip), (0x0C, .vecSqrt), (0x0D, .vecRsqrt),
  (0x10, .vecSubr), (0x11, .vecMulr), (0x12, .vecNormr), (0x13, .vecMulc), (0x14, .vecAddc), (0x15, .vecExpsubr), (0x16, .vecDivr),
  (0x20, fun c => .vecFunc ⟨c, false⟩), (0x20, fun c => .vecFunc ⟨c, true⟩), (0x21, .vecDeriv), (0x30, .vecPermute), (0x31, .vecShuffle),
  (0x32, .vecPackEven), (0x33, .vecPackOdd), (0x34, .vecUnpackLo), (0x35, .vecUnpackHi), (0x36, .vecIdxLoad), (0x37, .vecFreqLoad),
  (0x40, .vecRsum), (0x41, .vecRsumsq), (0x42, .vecRmax), (0x43, .vecRmin), (0x44, .vecRamax), (0x45, .vecRdot), (0x46, .vecRstats),
  (0x47, .vecRrms), (0x50, .vecMask), (0x51, .vecRotary), (0x60, .vecTopk), (0x70, .vecSplit), (0x71, .vecJoin)] : List (Nat ×
  (CoreNo → Instr)))

/-- The rows of CTL, SYN, ARR and VEC, each with the cues it issues. -/
def CueRow (r : (W128 → Bool) × (CoreNo → Instr)) : Prop :=
  PrompterRow r ∨ (∃ a, ArrRow a ∧ r = (isArr a.1, a.2)) ∨ ∃ v, VecRow v ∧ r = (isVec v.1, v.2)

/-! ## Commands of a session (R363 to R376) -/

/-- The commands that are answered, each by its opcode and what it is with a given header (R376). -/
inductive CommandRow : Nat → (Hdr → Instr) → Prop where
  | discover : CommandRow 0x0100 .discover
  | inventory : CommandRow 0x0101 .inventory
  | unitDescribe u : CommandRow 0x0108 (fun h => .unitDescribe h u)
  | ensembleDefine ms tag : CommandRow 0x0110 (fun h => .ensembleDefine h ms tag)
  | ensembleEdit u ms remove : CommandRow 0x0111 (fun h => .ensembleEdit h u ms remove)
  | ensembleDelete u : CommandRow 0x0112 (fun h => .ensembleDelete h u)
  | productionLoad a n nq : CommandRow 0x0200 (fun h => .productionLoad h a n nq)
  | productionRun k u : CommandRow 0x0201 (fun h => .productionRun h k u)
  | productionStop k u : CommandRow 0x0202 (fun h => .productionStop h k u)
  | productionUnload k : CommandRow 0x0203 (fun h => .productionUnload h k)
  | productionList : CommandRow 0x0204 .productionList
  | shardLoad n a : CommandRow 0x0230 (fun h => .shardLoad h n a)
  | shardResumeDiscard n i : CommandRow 0x0231 (fun h => .shardResumeDiscard h n i)
  | shardResumeRetry n i : CommandRow 0x0231 (fun h => .shardResumeRetry h n i)
  | shardUnload n i : CommandRow 0x0232 (fun h => .shardUnload h n i)
  | shardCompare n i : CommandRow 0x0233 (fun h => .shardCompare h n i)
  | rootSubmit a prio nq : CommandRow 0x0240 (fun h => .rootSubmit h a prio nq)
  | rootCancel v : CommandRow 0x0241 (fun h => .rootCancel h v)
  | collectivePost a : CommandRow 0x0250 (fun h => .collectivePost h a)
  | collectiveRun k : CommandRow 0x0251 (fun h => .collectiveRun h k)
  | collectiveCancel k : CommandRow 0x0252 (fun h => .collectiveCancel h k)
  | collectiveRelease k : CommandRow 0x0253 (fun h => .collectiveRelease h k)
  | mappingPost k a : CommandRow 0x0254 (fun h => .mappingPost h k a)
  | mappingRelease k : CommandRow 0x0255 (fun h => .mappingRelease h k)
  | memRead a n : CommandRow 0x0300 (fun h => .memRead h a n)
  | memWrite a b : CommandRow 0x0301 (fun h => .memWrite h a b)
  | memFill a n v nq : CommandRow 0x0302 (fun h => .memFill h a n v nq)
  | regRead a : CommandRow 0x0310 (fun h => .regRead h a)
  | regWrite a v : CommandRow 0x0311 (fun h => .regWrite h a v)
  | fabricSetId d : CommandRow 0x0401 (fun h => .fabricSetId h d)
  | portConfigure k v : CommandRow 0x0402 (fun h => .portConfigure h k v)
  | portAddress k ip : CommandRow 0x0403 (fun h => .portAddress h k ip)
  | assocOpen d ip kc nq : CommandRow 0x0410 (fun h => .assocOpen h d ip kc nq)
  | assocClose k : CommandRow 0x0411 (fun h => .assocClose h k)
  | assocRekey k : CommandRow 0x0412 (fun h => .assocRekey h k)
  | assocDescribe k : CommandRow 0x0413 (fun h => .assocDescribe h k)
  | accessionSet k b : CommandRow 0x0420 (fun h => .accessionSet h k b)
  | accessionClear k : CommandRow 0x0421 (fun h => .accessionClear h k)
  | segmentMigrate k d a nq : CommandRow 0x0422 (fun h => .segmentMigrate h k d a nq)
  | accessionRead k : CommandRow 0x0423 (fun h => .accessionRead h k)
  | attest nonce options : CommandRow 0x0500 (fun h => .attest h nonce options)
  | sessionOpenFinish id sig : CommandRow 0x0501 (fun h => .sessionOpenFinish h id sig)
  | sessionOpenInit b : CommandRow 0x0501 (fun h => .sessionOpenInit h b)
  | sessionClose : CommandRow 0x0502 .sessionClose
  | folioKey k b : CommandRow 0x0510 (fun h => .folioKey h k b)
  | vaultRotate : CommandRow 0x0520 .vaultRotate
  | hostModeEnter ds : CommandRow 0x0530 (fun h => .hostModeEnter h ds)
  | hostModeLeave : CommandRow 0x0530 .hostModeLeave
  | storeAttach ip l4 nqn action nq : CommandRow 0x0600 (fun h => .storeAttach h ip l4 nqn action nq)
  | storeDetach k : CommandRow 0x0601 (fun h => .storeDetach h k)
  | storeRead k nsid lba blocks a nq : CommandRow 0x0602 (fun h => .storeRead h k nsid lba blocks a nq)
  | storeWrite k nsid lba a n nq : CommandRow 0x0603 (fun h => .storeWrite h k nsid lba a n nq)
  | folioLoad k nsid lba a options nq : CommandRow 0x0610 (fun h => .folioLoad h k nsid lba a options nq)
  | folioUnload k : CommandRow 0x0611 (fun h => .folioUnload h k)
  | checkpointWrite k nsid lba a nq : CommandRow 0x0620 (fun h => .checkpointWrite h k nsid lba a nq)
  | checkpointRestore k nsid lba nq : CommandRow 0x0621 (fun h => .checkpointRestore h k nsid lba nq)
  | nqConfigure k v : CommandRow 0x0700 (fun h => .nqConfigure h k v)
  | nqRead k n : CommandRow 0x0701 (fun h => .nqRead h k n)
  | nqAdvance k v : CommandRow 0x0702 (fun h => .nqAdvance h k v)
  | nqFlushCmd k : CommandRow 0x0703 (fun h => .nqFlushCmd h k)
  | nqAnnounce k a : CommandRow 0x0704 (fun h => .nqAnnounce h k a)
  | resultRead k seq : CommandRow 0x0710 (fun h => .resultRead h k seq)
  | resultRelease k seq : CommandRow 0x0711 (fun h => .resultRelease h k seq)
  | powerCapSet v : CommandRow 0x0800 (fun h => .powerCapSet h v)
  | railLimits st v : CommandRow 0x0801 (fun h => .railLimits h st v)
  | telemetryRead : CommandRow 0x0802 .telemetryRead
  | telemetryStream a v : CommandRow 0x0803 (fun h => .telemetryStream h a v)
  | reset u options : CommandRow 0x0900 (fun h => .reset h u options)
  | bringupStatus : CommandRow 0x0901 .bringupStatus
  | catalogueRead index first : CommandRow 0x0910 (fun h => .catalogueRead h index first)
  | firmwareStage a n : CommandRow 0x0920 (fun h => .firmwareStage h a n)
  | firmwareActivate : CommandRow 0x0921 .firmwareActivate
  | calRead offset bytes : CommandRow 0x0A00 (fun h => .calRead h offset bytes)
  | calWrite data : CommandRow 0x0A01 (fun h => .calWrite h data)
  | rehearsalEnter : CommandRow 0x0F00 .rehearsalEnter
  | rehearsalLeave : CommandRow 0x0F01 .rehearsalLeave
  | accumRead u k : CommandRow 0x0F02 (fun h => .accumRead h u k)
  | regForce a v : CommandRow 0x0F03 (fun h => .regForce h a v)
  | conditionCapture : CommandRow 0x0F10 .conditionCapture
  | conditionRead offset bytes : CommandRow 0x0F11 (fun h => .conditionRead h offset bytes)

/-- The Curator serves a request now: it runs, hears the lane and has ended the phase of the opcode; the session exists where the opcode
needs one, has not used the tag, waits at no door, and its role may issue the opcode (R363, R365, R368, R369, R421, R441). -/
abbrev State.admits (s : State) (h : Hdr) (op : Nat) : Prop :=
  s.curatorUp = true ∧ s.activating = false ∧ (h.lane = .main → s.phaseEnded 5 = true) ∧ s.phaseEnded (opPhase op) = true ∧
  if h.session = 0 then opNeed op = .none
  else s.waitsAt h.session = none ∧ ∃ x, s.session h.session = some x ∧ (∀ k ∈ x.kept, k.reply.tag ≠ h.tag) ∧
    (x.role = .observer → opNeed op ≠ .operator)

/-- A command is carried out: one reply of status OK goes out last, and `P` holds of the state after. -/
def answered (i : Instr) (s : State) (h : Hdr) (op : Nat) (async : Bool) (fs : List Fld) (P : State → Prop) : Prop :=
  completes i s fun t => P t ∧ ∃ o, t.out = s.out ++ o ++ [Out.reply h.lane
    { opcode := BitVec.ofNat 16 op, tag := h.tag, session := h.session, status := .ok, async := async, fields := fs,
      updatePending := decide (t.cur.updateState ≠ UpdateState.none) }]

/-- A slot a command claims: PENDING, of the session, with the work, under the next sequence number (R372). -/
def claimed (s t : State) (k : Nat) (h : Hdr) (op : Nat) (nq : Option QueueNo) (w : Work) : Prop :=
  t.slot k = { state := .pending, session := h.session, seq := nextSeq s.cur.slotSeq, opcode := BitVec.ofNat 16 op, tag := h.tag,
               nq := nq.map (·.val), work := w }

/-- The fields of a reply that names a slot (R372). -/
def slotFields (s : State) (k : Nat) : List Fld := [.result (BitVec.ofNat 16 k) (nextSeq s.cur.slotSeq)]

/-- A pending slot becomes READY with a status and fields, and its queue is told (R372, R375). -/
def readied (s t : State) (k : Nat) (st : Status) (fs : List Fld) : Prop :=
  t.slot k = { s.slot k with state := .ready, status := st, fields := fs, work := .none, ended := true } ∧
    ∀ q, (s.slot k).nq = some q → tells s t kResult q

/-- A queue that an asynchronous command may name: not one of the first four (R376). -/
abbrev asyncQueue (nq : Option QueueNo) : Prop := ∀ q : QueueNo, nq = some q → 4 ≤ q.val

/-- Nothing waits for a Core, and no takeover or suspect verdict is open on it. -/
abbrev Core.quiet (x : Core) : Prop := x.msg.unaccepted = [] ∧ x.heldIn = [] ∧ x.takeover = none ∧ x.p.state ≠ .suspect

/-- A reset of the unit `r` has closed the doors of its Cores: each is under reset, its generation one higher unless a reset held it already,
its cue store empty; other Cores, memory and the rest of the resets stand, and MEAS_GEN rises (R403, R430, R431, R435). -/
def doorsClose (s t : State) (r : URef) (wipe : Bool) : Prop :=
  (∀ c ∈ r.leaves, (t.core c).inReset = true ∧
    ((s.core c).inReset = true → t.core c = s.core c) ∧
    ((s.core c).inReset = false → (t.core c).resetGen = (s.core c).resetGen + 1 ∧ (t.core c).p.cues = [] ∧ (t.core c).tiles = [] ∧
      (t.core c).p.state = if (s.core c).dark then .idle else .reset)) ∧
  (∀ c, c ∉ r.leaves → t.core c = s.core c) ∧ t.mem = s.mem ∧ t.sec.measGen = s.sec.measGen + 1 ∧ tells s t kReset (s.queueOf r) ∧
  ∃ q, t.cur.resets = s.cur.resets ++ [q] ∧ q.unit = s.nameOf r ∧ q.wipe = wipe ∧ q.quiesced = false ∧ q.oldGen = s.genOf r ∧
    q.newGen = s.genOf r + 1

/-- Everything but what has left the block and the sessions is the same. -/
def sameButReplies (s t : State) : Prop := { t with out := s.out, cur := { t.cur with sessions := s.cur.sessions } } = s

end Sys2Proof.Machine
end

