-- ==== Sys2Proof/Certificates/Slice0/Obligations.lean ====
section
/-! DEFINITION. The statements about the block, by family of its commands; each names the rules of the spec that it formalises. -/

open Sys2Proof Sys2Proof.Machine

/-- CTL cues that the Prompter issues: the pointer, the loop counters, the generators, a tile descriptor, VL (R89, R93, R94, R86, R145).
-/
def Obligations.ControlCueEffects : Prop :=
  ∀ (s : State) (c : CoreNo) (q : W128) (pk : Peek), s.issues c q pk →
    let x := s.core c.val
    (isCue 0 0 q = true → completes (.nop c) s fun t => (t.core c.val).p.cp = x.p.cp + 1 ∧
      ∀ k, (t.core c.val).token k = signalled q k (x.waited q k)) ∧
    (isCue 0 1 q = true → completes (.jump c) s fun t => (t.core c.val).p.cp = BitVec.ofNat 14 (fld q 45 32)) ∧
    (isCue 0 2 q = true → completes (.loopSet c) s fun t => (t.core c.val).p.cp = x.p.cp + 1 ∧
      ∀ k, (t.core c.val).loop k = if k = fld q 36 32 then BitVec.ofNat 32 (fld q 95 64) else x.loop k) ∧
    (isCue 0 3 q = true → completes (.loopBranch c) s fun t =>
      (t.core c.val).p.cp = (if (x.loop (fld q 36 32)).toNat ≤ 1 then x.p.cp + 1 else BitVec.ofNat 14 (fld q 61 48)) ∧
      ∀ k, (t.core c.val).loop k = if k = fld q 36 32 ∧ x.loop k ≠ 0 then x.loop k - 1 else x.loop k) ∧
    (isCue 0 6 q = true → completes (.agBase c) s fun t => (t.core c.val).p.cp = x.p.cp + 1 ∧
      ∀ g, (t.core c.val).gen g = if g = fld q 35 32 then
        { base := BitVec.ofNat 32 (fld q 95 64), byteMode := fld q 36 36 == 1, d0 := { (x.gen g).d0 with idx := 0 },
          d1 := { (x.gen g).d1 with idx := 0 }, d2 := { (x.gen g).d2 with idx := 0 }, d3 := { (x.gen g).d3 with idx := 0 } } else x.gen g) ∧
    (isCue 0 7 q = true → completes (.agDim c) s fun t => (t.core c.val).p.cp = x.p.cp + 1 ∧
      ∀ g, (t.core c.val).gen g = if g = fld q 35 32 then
        (x.gen g).setDim (fld q 37 36) { count := BitVec.ofNat 16 (fld q 63 48), idx := 0, stride := BitVec.ofNat 32 (fld q 95 64) }
        else x.gen g) ∧
    (isCue 0 8 q = true → completes (.tileSet c) s fun t => (t.core c.val).p.cp = x.p.cp + 1 ∧
      ∀ i, (t.core c.val).tile i = if i = fld q 41 32 then
        { frame := BitVec.ofNat 13 (fld q 54 42), side := BitVec.ofNat 15 (fld q 69 55), sideValid := fld q 70 70 == 1,
          rowsM1 := BitVec.ofNat 6 (fld q 76 71), colsM1 := BitVec.ofNat 6 (fld q 82 77), state := .free,
          version := (x.tile i).version, tag := mkTag (fld q 86 83) (fld q 87 87) 0 {} } else x.tile i) ∧
    (isCue 0 9 q = true → completes (.regSet c) s fun t => (t.core c.val).p.cp = x.p.cp + 1 ∧
      (t.core c.val).p.vl = BitVec.ofNat 64 (fld q 95 64)) ∧
    (isCue 0 5 q = true → completes (.halt c) s fun t => (t.core c.val).p.cp = x.p.cp + 1 ∧
      (t.core c.val).p.haltCode = BitVec.ofNat 16 (fld q 47 32) ∧
      ((∀ k, cueSignal q = some k → x.waited q k < 15) → (t.core c.val).p.state = .halted))

/-- SYN cues and SCENE that the Prompter issues, and a cue that is skipped (R86, R92, R95, R96, R102). -/
def Obligations.SyncCueEffects : Prop :=
  (∀ (s : State) (c : CoreNo) (q : W128) (pk : Peek), s.issues c q pk →
    let x := s.core c.val
    (isCue 1 0 q = true → completes (.synTake c) s fun t => (t.core c.val).p.cp = x.p.cp + 1 ∧
      ∀ k, (t.core c.val).token k = signalled q k (if k = fld q 37 32 then x.waited q k - fld q 41 38 else x.waited q k)) ∧
    (isCue 1 1 q = true → completes (.give c) s fun t => (t.core c.val).p.cp = x.p.cp + 1 ∧
      ∀ k, (t.core c.val).token k = signalled q k (if k = fld q 37 32 then min (x.waited q k + fld q 41 38) 15 else x.waited q k)) ∧
    (isCue 1 2 q = true → completes (.fence c) s fun t => (t.core c.val).p.cp = x.p.cp + 1 ∧
      x.maskIncomplete (fld q 55 48) = false ∧ ∀ k, (t.core c.val).token k = signalled q k (x.waited q k)) ∧
    (isCue 1 3 q = true → completes (.tileFree c) s fun t => (t.core c.val).p.cp = x.p.cp + 1 ∧
      ∀ i, (t.core c.val).tile i = if i ∈ pk.syncs then { x.tile i with state := .free } else x.tile i) ∧
    (isCue 1 4 q = true → completes (.tileReady c) s fun t => (t.core c.val).p.cp = x.p.cp + 1 ∧
      ∀ i, (t.core c.val).tile i = if i ∈ pk.syncs ∧ (x.tile i).state = .free then
        { x.tile i with state := .resident, tag := mkTag (tagFormat (x.tile i).tag) (tagAxis (x.tile i).tag) prodStream {} } else x.tile i) ∧
    (isCue 1 5 q = true → completes (.flags c) s fun t => (t.core c.val).p.cp = x.p.cp + 1 ∧
      (t.core c.val).p.pflags = (x.p.pflags &&& ~~~ BitVec.ofNat 16 (fld q 63 48)) ||| BitVec.ofNat 16 (fld q 79 64)) ∧
    (isCue 0 4 q = true → completes (.scene c) s fun t => (t.core c.val).p.cp = x.p.cp + 1 ∧
      ∃ m, (t.core c.val).pending = some m ∧ m.sceneId = BitVec.ofNat 16 (fld q 47 32) ∧ m.cp = x.p.cp + 1 ∧ m.loops = x.p.loops ∧
        m.tiles = x.tiles ∧ m.vl = x.p.vl)) ∧
  (∀ (s : State) (c : CoreNo) (q : W128), s.decides c q .skip → completes (.cueSkip c) s fun t =>
    (t.core c.val).p.cp = (s.core c.val).p.cp + 1 ∧ (t.core c.val).p.gens = (s.core c.val).p.gens ∧
    ∀ k, (t.core c.val).token k = (s.core c.val).waited q k)

/-- A cue that must wait, or that is found wrong, does not issue: the Core holds with its reason, or stops with its cause and raises a
FAULT notice, and the token that a GIVE would take past 15 stands at 15; the row of another kind of cue does nothing (R92, R96, R99). What
the CTL and SYN cues leave as it was: every other Core, memory, and of the Core all but its Prompter, its tiles and a marker. -/
def Obligations.CueHoldsAndFrames : Prop :=
  (∀ (s : State) (c : CoreNo) (q : W128), ∀ row, CueRow row →
     ((s.core c.val).cueAt = q → row.1 q = false → exec (row.2 c) s = .next s) ∧
     (row.1 q = true → ∀ r, s.decides c q (.hold r) → completes (row.2 c) s fun t =>
       t.core c.val = (s.core c.val).modP (fun p => { p with state := .hold, hold := r }) ∧ t.mem = s.mem ∧ t.raised = s.raised ∧
       ∀ k, k ≠ c.val → t.core k = s.core k) ∧
     (row.1 q = true → ∀ cause, s.decides c q (.stop cause) → completes (row.2 c) s fun t =>
       t.core c.val = (if cause = .tokenOvf then (s.core c.val).setToken (fld q 37 32) 15 else s.core c.val).modP
         (fun p => { p with state := .stopped, hold := .none, stop := cause }) ∧ t.mem = s.mem ∧
       (∃ l, l ≠ [] ∧ t.raised = s.raised ++ l) ∧ ∀ k, k ≠ c.val → t.core k = s.core k)) ∧
  (∀ (s t : State) (c : CoreNo), ∀ row, PrompterRow row → exec (row.2 c) s = .next t →
     (∀ k, k ≠ c.val → t.core k = s.core k) ∧ (∀ a, Memory.get t.mem a = Memory.get s.mem a) ∧ t.out = s.out ∧ t.troupes = s.troupes ∧
     t.engines = s.engines ∧ t.stages = s.stages ∧ t.vault = s.vault ∧ t.nqs = s.nqs ∧ t.mio = s.mio ∧ t.cur = s.cur ∧
     (t.core c.val).arrA = (s.core c.val).arrA ∧ (t.core c.val).arrB = (s.core c.val).arrB ∧ (t.core c.val).vec = (s.core c.val).vec ∧
     (t.core c.val).str = (s.core c.val).str ∧ (t.core c.val).msg = (s.core c.val).msg ∧ (t.core c.val).p.cues = (s.core c.val).p.cues ∧
     (t.core c.val).p.entry = (s.core c.val).p.entry ∧ (t.core c.val).p.fillBudget = (s.core c.val).p.fillBudget)

/-- RUN, tokens from outside, the activity ramp, hold fill (R87, R92, R100, R101, R106). -/
def Obligations.PrompterEvents : Prop :=
  ∀ (s : State) (c : CoreNo),
    let x := s.core c.val
    (s.cur.phase = .ready → x.open = true →
      (x.p.state = .halted ∨ (x.p.state = .idle ∧ x.p.singleStep = false) → completes (.runStart c) s fun t =>
        (t.core c.val).p.state = .running ∧ (t.core c.val).p.cp = x.p.entry ∧ (t.core c.val).p.run = true ∧
        (t.core c.val).p.tokens = x.p.tokens ∧ (t.core c.val).tiles = x.tiles ∧ t.mem = s.mem) ∧
      (x.p.state = .running ∨ x.p.state = .hold → completes (.runStop c) s fun t =>
        (t.core c.val).p.state = .idle ∧ (t.core c.val).p.cp = x.p.cp ∧ (t.core c.val).p.run = false ∧ (t.core c.val).vec = x.vec ∧
        t.mem = s.mem)) ∧
    (∀ k : Fin 64, x.open = true → x.heldIn = [] → x.logRoom 1 = true → completes (.tokenSignalArrival c k) s fun t =>
      (t.core c.val).log = x.log ++ [.token k.val] ∧ (t.core c.val).p.cp = x.p.cp ∧
      ∀ j, (t.core c.val).token j = if j = k.val then min (x.token j + 1) 15 else x.token j) ∧
    (∀ a : ArrayId, x.rising (s.stage (stageOfCore c.val)).jump.toNat a = true → completes (.rampLevelStep c a) s fun t =>
      ((t.core c.val).arr a).level = (x.arr a).level + 1 ∧ ((t.core c.val).arr a).jobs = (x.arr a).jobs) ∧
    (∀ a : ArrayId, x.rampHeld (s.stage (stageOfCore c.val)).jump.toNat a = true →
      x.rising (s.stage (stageOfCore c.val)).jump.toNat a = false → completes (.rampLevelStep c a) s fun t => t = s) ∧
    (∀ a : ArrayId, x.rampHeld (s.stage (stageOfCore c.val)).jump.toNat a = false → (x.arr a).jobs = [] → (x.arr a).holdLeft = none →
      0 < (x.arr a).level.toNat → completes (.rampLevelStep c a) s fun t => ((t.core c.val).arr a).level = (x.arr a).level - 1) ∧
    (∀ (a : ArrayId) (n : Nat), (x.arr a).holdLeft = some n → x.p.fillUsed.toNat + n ≤ x.p.fillBudget.toNat →
      completes (.holdFillEnd c a) s fun t =>
        ((t.core c.val).arr a).holdLeft = none ∧ (t.core c.val).p.fillUsed.toNat = x.p.fillUsed.toNat + n) ∧
    (0 < x.arrA.holdSteps + x.arrB.holdSteps → x.p.fillBudget.toNat ≤ x.p.fillUsed.toNat + (x.arrA.holdSteps + x.arrB.holdSteps) →
      completes (.fillBudgetExhausted c) s fun t => (t.core c.val).arrA.holdLeft = none ∧ (t.core c.val).arrB.holdLeft = none ∧
        (t.core c.val).p.fillUsed = x.p.fillBudget) ∧
    (completes (.fillWindowReset c) s fun t => (t.core c.val).p.fillUsed = 0 ∧ (t.core c.val).p.cp = x.p.cp ∧ t.mem = s.mem)

/-- Table slots: loading ends with the word at 0x38, which makes the slot VALID or FAILED; every other word leaves it BUSY; reserved bits
of the header read as zero; an uncorrectable error of the store, or a re-read that finds one, fails the slot and tells the Curator; the
firmware loads a standard slot again (R13, R125 to R127). A stream that has given 2^24 draws is seeded again unless FIXED_SEED is set; a
failing health test clears ENTROPY_OK and counts, and a passing one sets it again, each with a notice (R53 to R55, R469). -/
def Obligations.TablesAndRandomSources : Prop :=
  (∀ (s : State) (c : CoreNo) (k : Fin 32), (s.core c.val).open = true →
     let x := s.core c.val
     (∀ (off : Nat) (v : W64) (e : Bool), s.cur.phase = .ready → off % 8 = 0 → off < 4160 → off ≠ 0x38 →
       completes (.tableSlotWrite c ⟨k, e⟩ off v) s fun t => ((t.core c.val).tslot k.val).state = (if e then .failed else .busy) ∧
         (∀ i, ((t.core c.val).tslot k.val).word i = if i = off / 8 then v &&& slotMask i else (x.tslot k.val).word i) ∧
         (e = true → (t.core c.val).lastFailed = BitVec.ofNat 5 k.val ∧ tells s t kTable 0) ∧
         ∀ j, j ≠ k.val → (t.core c.val).tslot j = x.tslot j) ∧
     (∀ (v : W64) (e : Bool), s.cur.phase = .ready → completes (.tableSlotCrcWrite c ⟨k, e⟩ v) s fun t =>
       ((t.core c.val).tslot k.val).state = (if e = false ∧ ((x.tslot k.val).put 0x38 v .busy).crcOk ∧
         ((x.tslot k.val).put 0x38 v .busy).encodingOk then .valid else .failed) ∧
       ((t.core c.val).tslot k.val).word 7 = v &&& slotMask 7 ∧ (e = true → tells s t kTable 0) ∧
       ∀ j, j ≠ k.val → (t.core c.val).tslot j = x.tslot j) ∧
     (∀ e : Bool, (x.tslot k.val).state = .valid → e = true ∨ (x.tslot k.val).crcOk = false → completes (.tableReread c k e) s fun t =>
       ((t.core c.val).tslot k.val).state = .failed ∧ (t.core c.val).lastFailed = BitVec.ofNat 5 k.val ∧
       ∃ r, t.raised = s.raised ++ [r] ∧ r.queue = 0 ∧ r.kind = BitVec.ofNat 16 kTable ∧ r.status = .integrity) ∧
     (∀ e : Bool, (x.tslot k.val).state = .failed → standardSlot k.val = true → completes (.tableSlotReload c ⟨k, e⟩) s fun t =>
       (t.core c.val).tslot k.val = (if e then { firmwareSlot k.val with state := .failed } else firmwareSlot k.val) ∧
       (e = true → tells s t kTable 0) ∧ ∀ j, j ≠ k.val → (t.core c.val).tslot j = x.tslot j)) ∧
  ((∀ (s : State) (c : CoreNo) (k : Fin 3), 2 ^ 24 ≤ (s.source c.val k.val).rng.draws →
     (s.troupe (troupeOfCore c.val)).fixedSeed = false → completes (.rngReseed c k) s fun t =>
       (t.source c.val k.val).rng = entropyRng s.freeCtr ∧ t.mem = s.mem ∧
       ∀ j, j ≠ k.val → Tab.get {} (t.core c.val).rng j = Tab.get {} (s.core c.val).rng j) ∧
   (∀ (s : State) (t : TroupeNo), (s.troupe t.val).entropyOk = true → completes (.entropyHealthFail t) s fun u =>
     (u.troupe t.val).entropyOk = false ∧ (u.troupe t.val).healthFails = satInc (s.troupe t.val).healthFails ∧
     (∃ l, l ≠ [] ∧ u.raised = s.raised ++ l) ∧ u.cores = s.cores) ∧
   (∀ (s : State) (t : TroupeNo), (s.troupe t.val).entropyOk = false → (s.troupe t.val).started = true →
     completes (.entropyHealthOk t) s fun u => (u.troupe t.val).entropyOk = true ∧
       (u.troupe t.val).healthFails = (s.troupe t.val).healthFails ∧ (∃ l, l ≠ [] ∧ u.raised = s.raised ++ l) ∧ u.cores = s.cores))

/-- An ARR cue of each mode joins the arrays it names with its mode, its tiles and its signal; its destinations are FILLING, released
operands FREE, the pointer moves on (R86, R96, R112, R117). A GRM cue sets the Gram tap of each array it names and opens a new window; a
tap it does not name stands (R96, R134, R136). -/
def Obligations.ArrayAndGramCuesIssue : Prop :=
  (∀ (s : State) (c : CoreNo) (q : W128) (pk : Peek) (row : Nat × (CoreNo → Instr)), ArrRow row → isArr row.1 q = true → s.issues c q pk →
     completes (row.2 c) s fun t =>
       (t.core c.val).p.cp = (s.core c.val).p.cp + 1 ∧
       (∀ a, if namesArr q a then
           ∃ j, ((t.core c.val).arr a).jobs = ((s.core c.val).arr a).jobs ++ [j] ∧ j.mode = BitVec.ofNat 4 row.1 ∧
             j.keep = (fld q 80 80 == 1) ∧ j.pTiles = pk.ops.take (fld q 61 56 + 1) ∧ j.cue.signal = cueSignal q
         else ((t.core c.val).arr a).jobs = ((s.core c.val).arr a).jobs) ∧
       (∀ i ∈ pk.dests, ((t.core c.val).tile i).state = .filling) ∧
       (fld q 77 77 = 1 → ∀ i ∈ pk.ops.take (fld q 61 56 + 1), ((t.core c.val).tile i).state = .free) ∧
       (∀ k, k ≠ c.val → t.core k = s.core k)) ∧
  (∀ (s : State) (c : CoreNo) (q : W128) (pk : Peek), s.issues c q pk → cueClass q = clsGrm → completes (.grm c) s fun t =>
     (t.core c.val).arrA.tap = (if namesA q then (s.core c.val).arrA.tap.configure q else (s.core c.val).arrA.tap) ∧
     (t.core c.val).arrB.tap = (if namesB q then (s.core c.val).arrB.tap.configure q else (s.core c.val).arrB.tap) ∧
     (t.core c.val).p.cp = (s.core c.val).p.cp + 1 ∧ t.mem = s.mem ∧ ∀ j, j ≠ c.val → t.core j = s.core j)

/-- A tile whose check passes, and is counted where that took a recomputation; one that is computed again, at the steps of one tile; one
that makes the Core SUSPECT (R73 to R76, R78). A drained tile is RESIDENT and its cue's next tile comes up; the end of a cue that keeps
its accumulators; a stationary tile that is preloaded (R86, R90, R112, R120). -/
def Obligations.TileChecksAndCompletions : Prop :=
  (∀ (s : State) (c : CoreNo) (a : ArrayId) (u : Option Upset) (w : TileJob), ((s.core c.val).arr a).toCheck = some w →
     (s.core c.val).works = true →
       (u = none → completes (.tileCheckVerdict c a u) s fun t => ((t.core c.val).arr a).bank = !((s.core c.val).arr a).bank ∧
         (t.core c.val).p = (s.core c.val).p ∧
         (t.troupe (troupeOfCore c.val)).checkRetries = (if w.retried then satInc (s.troupe (troupeOfCore c.val)).checkRetries
           else (s.troupe (troupeOfCore c.val)).checkRetries) ∧
         ∃ j r j' r', ((s.core c.val).arr a).jobs = j :: r ∧ ((t.core c.val).arr a).jobs = j' :: r' ∧
           r' = r ∧ (j'.tiles.filter (fun x => x.verdict == some true)).length = (j.tiles.filter (fun x => x.verdict == some true)).length + 1) ∧
       (w.passes u = false → w.retried = false → completes (.tileCheckVerdict c a u) s fun t => (t.core c.val).p = (s.core c.val).p ∧
         ((t.core c.val).arr a).toCheck = some { w with retried := true } ∧
         ((t.core c.val).arr a).productSteps = ((s.core c.val).arr a).productSteps + BitVec.ofNat 48 w.steps ∧
         (t.troupe (troupeOfCore c.val)).checkRetries = (s.troupe (troupeOfCore c.val)).checkRetries) ∧
       (w.passes u = false → w.retried = true → completes (.tileCheckVerdict c a u) s fun t => (t.core c.val).p.state = .suspect ∧
         (t.troupe (troupeOfCore c.val)).suspects = satInc (s.troupe (troupeOfCore c.val)).suspects ∧
         (∃ l, l ≠ [] ∧ t.raised = s.raised ++ l))) ∧
  (∀ (s : State) (c : CoreNo) (a : ArrayId), (s.core c.val).works = true →
     (∀ j r w ws, ((s.core c.val).arr a).jobs = j :: r → j.keep = false → j.tiles = w :: ws → w.verdict = some true →
       completes (.arrDestinationResident c a) s fun t => ((t.core c.val).tile w.dest).state = .resident ∧
         ((t.core c.val).tile w.dest).version = w.version ∧
         ((t.core c.val).arr a).jobs.length = (if ws.isEmpty then r.length else r.length + 1)) ∧
     (∀ j r, ((s.core c.val).arr .arrA).jobs = j :: r → j.keep = true → ((s.core c.val).arr .arrB).jobs = [] →
       completes (.accumulatorsKept c) s fun t => ((t.core c.val).arr .arrA).jobs.length = r.length ∧
         ((r.head?.map (·.cont)).getD false = false → ((t.core c.val).arr .arrA).kept = j.tiles.head?)) ∧
     (∀ j k r, ((s.core c.val).arr a).jobs = j :: k :: r → 3 ≤ j.mode.toNat → k.needsStationary = true → k.preloaded = false →
       completes (.stationaryPreloadDone c a) s fun t => ((t.core c.val).arr a).shadowValid = true ∧
         ((t.core c.val).arr a).jobs = j :: { k with preloaded := true } :: r))

/-- A VEC cue of each OP joins the engine's queue with its word, VL as it stands and the tiles it drew; its destinations are FILLING, the
pointer moves on; an uncorrectable error of the table store that a FUNC meets fails its slot and tells the Curator (R86, R96, R127, R144,
R145, R148). The completion of a cue that has run: its destinations RESIDENT with the tags and versions formed, its signal given (R63,
R86, R90). -/
def Obligations.VectorCues : Prop :=
  ((∀ (s : State) (c : CoreNo) (q : W128) (pk : Peek) (row : Nat × (CoreNo → Instr)), VecRow row → isVec row.1 q = true → s.issues c q pk →
     completes (row.2 c) s fun t =>
       (t.core c.val).p.cp = (s.core c.val).p.cp + 1 ∧
       (t.core c.val).vec.jobs.map (·.word) = (s.core c.val).vec.jobs.map (·.word) ++ [q] ∧
       (∃ j, (t.core c.val).vec.jobs.getLast? = some j ∧ j.vl = (s.core c.val).p.vl ∧ j.dTiles = pk.dests ∧ j.cue.signal = cueSignal q) ∧
       (∀ i ∈ pk.dests, ((t.core c.val).tile i).state = .filling) ∧
       (∀ k, k ≠ c.val → t.core k = s.core k)) ∧
   (∀ (s : State) (c : CoreNo) (q : W128) (pk : Peek), isVec 0x20 q = true → s.issues c q pk →
     (s.core c.val).slotValid (bitsOf (vecImm q) 3 0) = true → completes (.vecFunc ⟨c, true⟩) s fun t => tells s t kTable 0 ∧
       ((t.core c.val).tslot (bitsOf (vecImm q) 3 0)).state = .failed ∧ (t.core c.val).lastFailed = BitVec.ofNat 5 (bitsOf (vecImm q) 3 0) ∧
       ∀ j, j ≠ bitsOf (vecImm q) 3 0 → (t.core c.val).tslot j = (s.core c.val).tslot j)) ∧
  (∀ (s : State) (c : CoreNo) (j : VecJob) (r : List VecJob), (s.core c.val).works = true → (s.core c.val).vec.jobs = j :: r →
     j.ran = true → j.tags.length = j.dTiles.length →
       completes (.vecCueComplete c) s fun t => (t.core c.val).vec.jobs.map (·.word) = r.map (·.word) ∧
         (∀ i ∈ j.dTiles, ((t.core c.val).tile i).state = .resident) ∧
         (∀ k, cueSignal j.word = some k → j.cue.signal = some k → (t.core c.val).token k = min ((s.core c.val).token k + 1) 15) ∧
         (∀ k, k ≠ c.val → t.core k = s.core k))

/-- Every finite code of the floating formats of 8 bits converts back to itself without saturating (R51, R56). -/
def Obligations.FormatsConvertExactly : Prop :=
  ∀ f ∈ [Fmt.e4m3, Fmt.e5m2], ∀ code < 256, (valueOf f code).isFin = true →
    (convert f .toInf none (valueOf f code)).code = code ∧ (convert f .toInf none (valueOf f code)).sat = false

/-- STR cues that the Prompter issues to an engine with an empty queue: START begins its transfer, or waits while it may not begin; TAKE
holds the oldest waiting handle, or waits for one; RELEASE sends the oldest held handle; REARM replaces the descriptor, shadows it while a
transfer uses it, or is rejected while a shadow is occupied (R166, R168, R176, R177, R179, R182). -/
def Obligations.StreamCuesIssue : Prop :=
  ∀ (s : State) (c : CoreNo) (q : W128) (pk : Peek), s.issues c q pk → (s.core c.val).str.queue = [] →
    let x := s.core c.val
    let d := x.desc (strDesc q)
    let e := x.ep (strHq q)
    (∀ ecc, isCue 4 0 q = true →
      (x.startWaits q = true → completes (.strStart c ecc) s fun t => (t.core c.val).p.cp = x.p.cp + 1 ∧
        (t.core c.val).str.queue.map (·.word) = [q] ∧ (t.core c.val).str.xfers = x.str.xfers) ∧
      (x.startWaits q = false → dUseHandle d = false →
        (∀ y : Xfer, y.word = d → y.handle = none → y.base = dAddr d + BitVec.ofNat 64 (fld q 95 64) → y.tiles = pk.ops ++ pk.dests →
          y.startOk (x.issued q pk) q = true) →
        completes (.strStart c ecc) s fun t => (t.core c.val).p.cp = x.p.cp + 1 ∧ (t.core c.val).str.queue = [] ∧
          (t.core c.val).str.xfers.map (·.desc) = x.str.xfers.map (·.desc) ++ [strDesc q] ∧
          ∀ i ∈ pk.dests, ((t.core c.val).tile i).state = .filling)) ∧
    (isCue 4 3 q = true → e.state ≠ .off →
      (∀ h r, e.waiting = h :: r → completes (.strTake c) s fun t => (t.core c.val).p.cp = x.p.cp + 1 ∧
        ((t.core c.val).ep (strHq q)).held = e.held ++ [h] ∧ ((t.core c.val).ep (strHq q)).waiting = r ∧ (t.core c.val).str.queue = []) ∧
      (e.waiting = [] → completes (.strTake c) s fun t => (t.core c.val).p.cp = x.p.cp + 1 ∧
        (t.core c.val).str.queue.map (·.word) = [q])) ∧
    (isCue 4 2 q = true → e.state = .live → ∀ h r, e.held = h :: r → s.isHere e.next = true → (coreName e.next).isSome = true →
      e.releasing = none → x.bound (strHq q) = false → x.replayEffects = [] →
      completes (.strRelease c) s fun t => (t.core c.val).p.cp = x.p.cp + 1 ∧ ((t.core c.val).ep (strHq q)).releasing.isSome = true ∧
        ((t.core c.val).ep (strHq q)).sent = true ∧ ((t.core c.val).ep (strHq q)).held = e.held) ∧
    (isCue 4 1 q = true → ∀ arm : BitVec 512, arm = BitVec.ofNat 512 (s.num (wingsOf c.val + pk.byteVal) 64) → descOk arm = true →
      x.str.shadowBusy.contains (strDesc q) = false → completes (.strRearm c) s fun t => (t.core c.val).p.cp = x.p.cp + 1 ∧
        (if x.str.xfers.any (fun z => z.desc == strDesc q) then
          (t.core c.val).desc (strDesc q) = d ∧ Tab.get 0 (t.core c.val).str.shadows (strDesc q) = arm ∧
            (t.core c.val).str.shadowBusy.contains (strDesc q) = true
        else (t.core c.val).desc (strDesc q) = arm)) ∧
    (isCue 4 1 q = true → descOk (BitVec.ofNat 512 (s.num (wingsOf c.val + pk.byteVal) 64)) = true →
      x.str.shadowBusy.contains (strDesc q) = true → completes (.strRearm c) s fun t => (t.core c.val).p.cp = x.p.cp + 1 ∧
        (t.core c.val).str.rearmRejects = satInc x.str.rearmRejects ∧ (t.core c.val).str.streamErrors = satInc x.str.streamErrors ∧
        tells s t kRearmReject (dNq d) ∧ tells s t kStreamError (dNq d))

/-- A tile of a GET whose data is all here becomes RESIDENT with the stream's tag and VERSION; a transfer with nothing left to move ends;
a shadow descriptor takes effect (R170, R171, R173, R182). -/
def Obligations.StreamEvents : Prop :=
  ∀ (s : State) (c : CoreNo), (s.core c.val).works = true →
    let x := s.core c.val
    (∀ (k : Nat) (y : Xfer) (bs : List (Nat × List Byte)), x.xferAt k = some y → x.xfer y.cue.num = some y → dOp y.word = opGet →
      y.status = .ok → y.suppressed = none → y.done < y.tiles.length →
      (∀ p ∈ y.pieces, ∃ a, s.placeOf y.fabric permRead p.addr p.n = .here a) →
      tileData s y (y.unitPieces y.done) = some (.ok bs) → completes (.streamTileResident c k) s fun t =>
        ((t.core c.val).tile (nth 0 y.tiles y.done)).state = .resident ∧
        ((t.core c.val).tile (nth 0 y.tiles y.done)).version = y.version ∧
        tagFormat ((t.core c.val).tile (nth 0 y.tiles y.done)).tag = dFmt y.word) ∧
    (∀ (k : Nat) (y : Xfer), x.xferAt k = some y → x.xfer y.cue.num = some y → y.suppressed = none → dOp y.word ≠ opAtomic →
      dLayout y.word = 0 → y.waiting = [] → (y.status ≠ .ok ∨ (List.range y.pieces.length).all y.settled.contains = true) →
      x.str.queue = [] → completes (.streamTransferComplete c k) s fun t =>
        (t.core c.val).str.xfers = x.str.xfers.filter (fun z => z.cue.num != y.cue.num) ∧
        (t.core c.val).str.streamErrors = (if y.status = .ok then x.str.streamErrors else satInc x.str.streamErrors) ∧
        (y.status ≠ .ok → ∃ l, l ≠ [] ∧ t.raised = s.raised ++ l)) ∧
    (∀ d : Fin 32, x.str.shadowBusy.contains d.val = true → (x.str.xfers.any (fun z => z.desc == d.val)) = false → x.str.queue = [] →
      completes (.shadowInEffect c d) s fun t => (t.core c.val).desc d.val = Tab.get 0 x.str.shadows d.val ∧
        (t.core c.val).str.shadowBusy.contains d.val = false ∧ t.mem = s.mem)

/-- A message sent, granted its granules, complete in its ring, copied out by RECV or reported by COMPL, and the send's end (R106, R108 to
R111). -/
def Obligations.MessageFlow : Prop :=
  ∀ (s : State) (c : CoreNo),
    let x := s.core c.val
    (∀ q pk ecc, s.issues c q pk → isCue 5 0 q = true → completes (.send ⟨c, ecc⟩) s fun t => (t.core c.val).p.cp = x.p.cp + 1 ∧
      (t.core c.val).msg.sendSeq = x.msg.sendSeq + 1 ∧
      (t.core c.val).msg.sends.map (·.seq) = x.msg.sends.map (·.seq) ++ [x.msg.sendSeq]) ∧
    (∀ (ch : Fin 4) m r, Tab.get [] x.msg.waiting ch.val = m :: r → x.open = true → (x.ring ch.val).enable = true →
      (x.ring ch.val).used + m.granules ≤ (x.ring ch.val).granules → x.logRoom m.granules = true →
      completes (.msgCreditGrant c ch) s fun t => Tab.get [] (t.core c.val).msg.waiting ch.val = r ∧
        Tab.get [] (t.core c.val).msg.granted ch.val = Tab.get [] x.msg.granted ch.val ++ [m] ∧
        ((t.core c.val).ring ch.val).tail = (x.ring ch.val).tail + BitVec.ofNat 16 m.granules) ∧
    (∀ (ch : Fin 4) m r, Tab.get [] x.msg.granted ch.val = m :: r → x.open = true → completes (.msgCompleteInRing c ch) s fun t =>
      Tab.get [] (t.core c.val).msg.granted ch.val = r ∧ (t.core c.val).log = x.log ++ [.msg m] ∧
      ((t.core c.val).ring ch.val).msgs = (x.ring ch.val).msgs ++ [m]) ∧
    (∀ q pk m, s.issues c q pk → isCue 5 1 q = true → x.nextMsg (fld q 42 41) = some m → completes (.recv c) s fun t =>
      (t.core c.val).p.cp = x.p.cp + 1 ∧ ∃ y, (t.core c.val).msg.copies = x.msg.copies ++ [y] ∧ y.channel = some (fld q 42 41) ∧
        y.dest = pk.byteVal ∧ y.granules = m.granules ∧ y.cue.signal = cueSignal q) ∧
    (∀ q pk r l, s.issues c q pk → isCue 5 2 q = true →
      x.msg.compl.drop (x.msg.copies.filter (fun y => y.channel.isNone)).length = r :: l → completes (.compl c) s fun t =>
      (t.core c.val).p.cp = x.p.cp + 1 ∧ ∃ y, (t.core c.val).msg.copies = x.msg.copies ++ [y] ∧ y.channel = none ∧
        y.dest = pk.byteVal ∧ y.bytes = leBytes 16 (pack [(0, 16, statusCode r.status), (16, 16, r.seq.toNat), (32, 32, r.refused.toNat),
          (64, 32, r.accepted.toNat), (96, 32, r.destGen.toNat)])) ∧
    (∀ y r, x.msg.copies = y :: r → x.works = true → completes (.recvCopyDone c) s fun t =>
      (t.core c.val).msg.copies = r ∧ (∀ i, i < y.bytes.length → Memory.get t.mem (wingsOf c.val + y.dest + i) = nth 0 y.bytes i) ∧
      (∀ a, a < wingsOf c.val + y.dest ∨ wingsOf c.val + y.dest + y.bytes.length ≤ a → Memory.get t.mem a = Memory.get s.mem a) ∧
      (∀ ch, y.channel = some ch → ((t.core c.val).ring ch).head = (x.ring ch).head + BitVec.ofNat 16 y.granules)) ∧
    (∀ (seq : BitVec 16) y, x.msg.sends.find? (fun y => y.seq == seq) = some y → y.waiting = 0 → y.puts = [] → x.works = true →
      completes (.sendComplete c seq) s fun t => (t.core c.val).msg.sends = x.msg.sends.erase y ∧
        (t.core c.val).msg.compl = (if y.record then x.msg.compl ++ [
          { status := y.status, seq := seq, refused := BitVec.ofNat 32 y.refused, accepted := BitVec.ofNat 32 y.accepted, destGen := y.destGen }]
        else x.msg.compl))

/-- Handles between endpoints, the registers of an endpoint, and the commit of a marker (R102, R106, R176, R178 to R181). -/
def Obligations.HandlesAndScenes : Prop :=
  ∀ (s : State) (c : CoreNo),
    let x := s.core c.val
    (∀ (k : Fin 16) (h : BitVec 128) (src : HandleSrc), s.travels c.val k.val h src = true → x.open = true → (x.ep k.val).state ≠ .off →
      (x.ep k.val).waiting.length + (x.ep k.val).held.length < 64 → x.heldIn = [] → x.logRoom 1 = true → x.str.queue = [] →
      completes (.handleArrival c k h src) s fun t => ((t.core c.val).ep k.val).waiting = (x.ep k.val).waiting ++ [h] ∧
        (t.core c.val).log = x.log ++ [.handle k.val h] ∧
        ∀ d e, src = .localCore d e → ((t.core d.val).ep e.val).answer = some .ok ∧ ((t.core d.val).ep e.val).sent = false) ∧
    (∀ (k : Fin 16) (st : Status) cue, (x.ep k.val).releasing = some cue → (x.ep k.val).answer = some st → x.works = true →
      x.str.queue = [] → completes (.handleReleaseAnswer c k st) s fun t => ((t.core c.val).ep k.val).releasing = none ∧
        (st = .badParam →
          (t.core c.val).ep k.val = { x.ep k.val with releasing := none, answer := none, sending := none, sent := false }) ∧
        (∀ h, (x.ep k.val).sending = some ((x.ep k.val).oldest, h) → (x.ep k.val).held ≠ [] → st ≠ .badParam →
          ((t.core c.val).ep k.val).held = (x.ep k.val).held.tail ∧
          (st = .ok → ((t.core c.val).ep k.val).waiting = (x.ep k.val).waiting ∧ ((t.core c.val).ep k.val).state = (x.ep k.val).state) ∧
          (st ≠ .ok → ((t.core c.val).ep k.val).waiting = (x.ep k.val).waiting ++ [h])) ∧
        ((x.ep k.val).held = [] → ((t.core c.val).ep k.val).held = [] ∧ ((t.core c.val).ep k.val).waiting = (x.ep k.val).waiting) ∧
        (st ≠ .ok → st ≠ .badParam → (x.ep k.val).state ≠ .off → ((t.core c.val).ep k.val).state = .broken ∧
          ((t.core c.val).ep k.val).lastStatus = BitVec.ofNat 16 (statusCode st))) ∧
    (s.cur.phase = .ready → x.open = true →
      (∀ (k : Fin 16) (v : Bool), x.str.queue = [] → completes (.hqEnableWrite c k v) s fun t =>
        ((t.core c.val).ep k.val).enable = v ∧ ((t.core c.val).ep k.val).state = (if v then .live else .off) ∧
        ((t.core c.val).ep k.val).waiting = (if v then (x.ep k.val).waiting else []) ∧
        ((t.core c.val).ep k.val).held = (if v then (x.ep k.val).held else [])) ∧
      (∀ v : BitVec 64, x.str.queue = [] → v.getLsbD 63 = false →
        (x.ep x.str.injectEp.toNat).waiting.length + (x.ep x.str.injectEp.toNat).held.length < 64 →
        completes (.hqInjectWrite c v) s fun t => ((t.core c.val).ep x.str.injectEp.toNat).waiting =
          (x.ep x.str.injectEp.toNat).waiting ++ [BitVec.ofNat 128 (v.toNat * 2 ^ 64 + x.str.injectLo.toNat)]) ∧
      (∀ (k : Fin 16) (p : Fin 8), completes (.hqPriorityWrite c k p) s fun t =>
        ((t.core c.val).ep k.val).priority = BitVec.ofNat 3 p.val ∧ ((t.core c.val).ep k.val).waiting = (x.ep k.val).waiting)) ∧
    (∀ m, x.pending = some m → x.open = true → x.heldIn = [] → completes (.sceneCommit c) s fun t =>
      (t.core c.val).marker = some m ∧ (t.core c.val).pending = none ∧ (t.core c.val).p.sceneId = m.sceneId ∧
      (t.core c.val).p.sceneCp = m.cp ∧ (t.core c.val).p.scenes = x.p.scenes + 1 ∧ (t.core c.val).tiles = x.tiles ∧ t.mem = s.mem)

/-- A line of the Gallery: an FP32 add rounds once and is not lost, a poisoned line keeps its bytes, a read changes no byte and corrects,
counts or poisons, a write stores its bytes; the patrol pass (R204 to R206). A line of the Vault: a read changes no byte and ends by what
its decoding found; a write of the whole line clears its poison; a write of part stores that part; a LOST group stores nothing (R211,
R213, R214, R218). -/
def Obligations.GalleryAndVaultLines : Prop :=
  (∀ (s : State) (a : Nat), inGallery a = true → s.sectorShut (troupeUnder a) = false →
     (∀ v : BitVec 32, s.lineLost a = false → completes (.galleryLineAdd a v .clean) s fun t =>
       t.bytes a 4 = leBytes 4 (r32 ((f32 (s.num a 4)).add (f32 v.toNat))) ∧ sameOutside s t a 4 ∧ t.dies = s.dies) ∧
     (∀ (v : BitVec 32) (e : GalleryEcc), s.lineLost a = true → e = .clean → exec (.galleryLineAdd a v e) s = .next s) ∧
     (completes (.galleryLineAccess a .read .clean) s fun t => t = s) ∧
     (s.lineLost a = false → completes (.galleryLineAccess a .read .correctable) s fun t => sameMem s t ∧
       (t.die (dieOf a)).corrected = satInc (s.die (dieOf a)).corrected ∧ (t.die (dieOf a)).poisoned = (s.die (dieOf a)).poisoned) ∧
     (s.lineLost a = false → completes (.galleryLineAccess a .read .uncorrectable) s fun t => sameMem s t ∧ t.lineLost a = true ∧
       tells s t kVault 0 ∧ (t.die (dieOf a)).uncorrectable = satInc (s.die (dieOf a)).uncorrectable) ∧
     (∀ data : List Byte, a % 256 = 0 → data.length = 256 → ∀ e, completes (.galleryLineAccess a (.write 0 data) e) s fun t =>
       t.bytes a 256 = data ∧ sameOutside s t a 256 ∧ t.lineLost a = false) ∧
     (∀ (off : Nat) (data : List Byte), a % 256 = 0 → 0 < data.length → off + data.length ≤ 256 → data.length < 256 →
       s.lineLost a = false → completes (.galleryLineAccess a (.write off data) .clean) s fun t =>
         t.bytes (a + off) data.length = data ∧ sameOutside s t (a + off) data.length) ∧
     (completes (.galleryPatrolScrub a .clean) s fun t => sameMem s t ∧
       if (s.die (dieOf a)).scrubAt + 1 < linesPerDie then (t.die (dieOf a)).scrubAt = (s.die (dieOf a)).scrubAt + 1 ∧
         (t.die (dieOf a)).scrubPasses = (s.die (dieOf a)).scrubPasses
       else (t.die (dieOf a)).scrubAt = 0 ∧ (t.die (dieOf a)).scrubPasses = (s.die (dieOf a)).scrubPasses + 1)) ∧
  (∀ (s : State) (a : Nat), regionOf a = some .vault → a % 1024 = 0 →
     let g := groupOf a
     let n := ((s.group g).erasures (pageOf a)).length
     (∀ e, completes (.vaultLineAccess a .read e) s fun t => sameMem s t ∧
       (s.vaultReadFails a 1024 = true → (t.group g).uncorrectable = satInc (s.group g).uncorrectable) ∧
       (∀ l, s.vaultReadFails a 1024 = false → e = .symbols l →
         let wrong := fun i => (wrongIn ((s.group g).erasures (pageOf a)) l i).length
         (n = 0 → (∀ i, wrong i ≤ 1) → (∃ i, wrong i = 1) →
           (t.group g).corrected = satInc (s.group g).corrected ((List.finRange 64).filter (fun i => wrong i == 1)).length ∧
           t.raised = s.raised) ∧
         ((n = 0 ∧ ∃ i, 2 ≤ wrong i) ∨ (n = 1 ∧ ∃ i, 1 ≤ wrong i) → (s.group g).poison.length < 4096 →
           (s.group g).poison.contains a = false → (t.group g).poison = (s.group g).poison ++ [a] ∧
           (t.group g).uncorrectable = satInc (s.group g).uncorrectable ∧ tells s t kVault 0) ∧
         ((∀ i, wrong i = 0) → t = s)) ∧
       (s.vaultReadFails a 1024 = false → e = .clean → t = s)) ∧
     (∀ (data : List Byte) e, (s.group g).isLost = false → data.length = 1024 → completes (.vaultLineAccess a (.write 0 data) e) s fun t =>
       t.bytes a 1024 = data ∧ sameOutside s t a 1024 ∧ (t.group g).poison.contains a = false) ∧
     (∀ (off : Nat) (data : List Byte), s.vaultReadFails a 1024 = false → 0 < data.length → off + data.length ≤ 1024 →
       data.length < 1024 → completes (.vaultLineAccess a (.write off data) .clean) s fun t =>
         t.bytes (a + off) data.length = data ∧ sameOutside s t (a + off) data.length) ∧
     (∀ (off : Nat) (data : List Byte) e, (s.group g).isLost = true → exec (.vaultLineAccess a (.write off data) e) s = .next s))

/-- The channels of a group: held, retrained, failed at the third attempt with an entry in the Catalogue, and a group with three channels
out is LOST (R213, R215, R425, R427). Pages of a group: rebuilt one by one until every channel is in service again, erased and repaired,
lost with their table word, and converted to the other key (R215 to R218, R221). -/
def Obligations.VaultChannelsAndPages : Prop :=
  (∀ (s : State) (g : Fin 8) (ch : Fin 18),
     let x := s.group g.val
     (x.chan ch.val = .active ∨ x.chan ch.val = .rebuilding → completes (.chHeld g ch) s fun t =>
       (t.group g.val).chan ch.val = .held ∧ (∀ k, k ≠ ch.val → (t.group g.val).chan k = x.chan k) ∧ tells s t kVault 0 ∧
       (3 ≤ (t.group g.val).erasedCh.length → (t.group g.val).lost = true) ∧ t.mem = s.mem) ∧
     (x.chan ch.val = .active → x.stateNo = 0 → (x.inState .rebuilding).isEmpty = true → completes (.driftRetrain g ch) s fun t =>
       (t.group g.val).chan ch.val = .retraining ∧ (t.group g.val).retrainCh.toNat = ch.val ∧
       (t.group g.val).retrains = satInc x.retrains ∧ t.raised = s.raised ∧ t.mem = s.mem) ∧
     (x.chan ch.val = .held → (x.inState .retraining).isEmpty = true → completes (.retrainStart g ch) s fun t =>
       (t.group g.val).chan ch.val = .retraining ∧ (t.group g.val).retrainCh.toNat = ch.val ∧ (t.group g.val).attempts = 0 ∧
       (t.group g.val).retrains = satInc x.retrains ∧ t.mem = s.mem) ∧
     (x.retrainCh.toNat = ch.val → completes (.retrainAttemptEnd g true) s fun t =>
       (t.group g.val).chan ch.val = (if x.stalePages.length = 0 then .active else .rebuilding) ∧
       (t.group g.val).retrainCh = 0x1F ∧ tells s t kVault 0 ∧ t.mem = s.mem) ∧
     (x.retrainCh.toNat = ch.val → x.attempts < 2 → completes (.retrainAttemptEnd g false) s fun t =>
       (t.group g.val).attempts = x.attempts + 1 ∧ (t.group g.val).ch = x.ch ∧ t.raised = s.raised ∧ t.mem = s.mem) ∧
     (x.retrainCh.toNat = ch.val → 2 ≤ x.attempts → completes (.retrainAttemptEnd g false) s fun t =>
       (t.group g.val).chan ch.val = .failed ∧ tells s t kVault 0 ∧ t.mem = s.mem ∧
       (s.flash.runtimeValid = true → s.flash.runtimeCat.length < 4096 → ∃ e, t.flash.runtimeCat = s.flash.runtimeCat ++ [e] ∧
         entryKind e = 0x05 ∧ entryLoc e = g.val + 8 * ch.val) ∧
       (3 ≤ (t.group g.val).erasedCh.length → (t.group g.val).lost = true))) ∧
  (∀ (s : State) (g : Fin 8),
     let x := s.group g.val
     (∀ p more, x.rebuildRuns = true → x.stalePages = p :: more → completes (.pageRebuilt g) s fun t =>
       ((t.group g.val).page p).stale = false ∧ (∀ q, q ≠ p → (t.group g.val).page q = x.page q) ∧ t.mem = s.mem ∧
       (more = [] → (∀ k < 18, x.chan k = .rebuilding → (t.group g.val).chan k = .active) ∧ tells s t kVault 0)) ∧
     (x.rebuildRuns = true → x.stalePages = [] → completes (.pageRebuilt g) s fun t =>
       (∀ k < 18, x.chan k = .rebuilding → (t.group g.val).chan k = .active) ∧ tells s t kVault 0 ∧ t.mem = s.mem) ∧
     (∀ (ch : Fin 18) (a : Nat) (left : Bool), regionOf a = some .vault → groupOf a = g.val → x.isLost = false →
       completes (.rowRepairStart g ch a left) s fun t =>
         ((t.group g.val).page (pageOf a)).erasedCh.toNat = ch.val ∧ t.mem = s.mem ∧
         (left = true → (t.group g.val).repairing = x.repairing ++ [(pageOf a, ch.val)] ∧ t.raised = s.raised) ∧
         (left = false → tells s t kVault 0)) ∧
     (∀ a : Nat, x.isLost = true → (∀ ch left, exec (.rowRepairStart g ch a left) s = .next s) ∧ exec (.rowRepaired g a) s = .next s) ∧
     (∀ a : Nat, x.marksStale = true → exec (.rowRepaired g a) s = .next s) ∧
     (∀ (ch a : Nat), regionOf a = some .vault → groupOf a = g.val → x.marksStale = false → x.isLost = false →
       x.repairing = [(pageOf a, ch)] →
       completes (.rowRepaired g a) s fun t => ((t.group g.val).page (pageOf a)).erasedCh = 0x1F ∧ (t.group g.val).repairing = [] ∧
         (t.group g.val).rowRepairs = satInc x.rowRepairs ∧ tells s t kVault 0 ∧ t.mem = s.mem) ∧
     (∀ w, w < pagesPerGroup / 8 → x.poison.length + 512 ≤ 4096 → completes (.pageStateError g w) s fun t => t.mem = s.mem ∧
       ∀ i < 512, (t.group g.val).poison.contains (pageAddr g.val (8 * w) + 1024 * i) = true) ∧
     (x.sweeping = true → x.marksStale = false → x.isLost = false → completes (.pageConverted g) s fun t => t.mem = s.mem ∧
       ((t.group g.val).page x.sweepPos.toNat).epochSel = !(x.page x.sweepPos.toNat).epochSel ∧
       (t.group g.val).sweepPos = x.sweepPos + 1 ∧ (t.group g.val).sweeping = decide (x.sweepPos.toNat + 1 < pagesPerGroup)))

/-- A notice offered: dropped by a disabled queue; published at the producer count, after a filler where the ring ends, with the next
sequence number; dropped into a gap where there is no room (R186, R188, R190, R192). The registers of a queue of the host: enabling,
disabling, the consumer count, a flush and its GAP, the announce (R185, R190 to R194). -/
def Obligations.NoticeQueues : Prop :=
  (∀ (s : State) (x : Notice) (r : List Notice), s.raised = x :: r → s.activating = false →
     let n := s.nq x.queue
     let len := (noticeRecord x n.seq.toNat).length
     let pad := padFor n.bytes n.tail.toNat len
     (n.enable = false → completes .noticeOffer s fun t => t.raised = r ∧ t.mem = s.mem ∧
       t.nq x.queue = { n with dropped := satInc n.dropped } ∧ ∀ q, q ≠ x.queue → t.nq q = s.nq q) ∧
     (n.enable = true → n.flushPending = false → n.gapOpen = false → pad = 0 → len + 32 ≤ n.free →
       s.writeStatus .unit (n.base.toNat + n.tail.toNat % n.bytes) len = none → completes .noticeOffer s fun t => t.raised = r ∧
         t.bytes (n.base.toNat + n.tail.toNat % n.bytes) len = noticeRecord x n.seq.toNat ∧
         sameOutside s t (n.base.toNat + n.tail.toNat % n.bytes) len ∧ (t.nq x.queue).tail = n.tail + BitVec.ofNat 32 len ∧
         (t.nq x.queue).seq = n.seq + 1 ∧ (t.nq x.queue).head = n.head ∧ ∀ q, q ≠ x.queue → t.nq q = s.nq q) ∧
     (n.enable = true → n.flushPending = false → n.gapOpen = false → len + pad + 32 ≤ n.free → completes .noticeOffer s fun t =>
       t.raised = r ∧ (t.nq x.queue).tail = n.tail + BitVec.ofNat 32 pad + BitVec.ofNat 32 len ∧ (t.nq x.queue).seq = n.seq + 1) ∧
     (n.enable = true → n.flushPending = false → n.gapOpen = false → n.free < len + pad + 32 → completes .noticeOffer s fun t =>
       t.raised = r ∧ t.mem = s.mem ∧ (t.nq x.queue).gapOpen = true ∧ (t.nq x.queue).gapSeq = n.seq ∧ (t.nq x.queue).gapCount = 1 ∧
       (t.nq x.queue).tail = n.tail ∧ (t.nq x.queue).seq = n.seq + 1 ∧ (t.nq x.queue).dropped = satInc n.dropped)) ∧
  (∀ (s : State) (q : QueueNo) (v : W64),
     let n := s.nq q.val
     (q.val < 4 → exec (.nqConfigWrite q v) s = .next s ∧ exec (.nqHeadWrite q v) s = .next s ∧ exec (.nqFlush q) s = .next s) ∧
     (4 ≤ q.val → fld v 51 48 ≤ 12 → n.enable = false → fld v 53 53 = 1 → badRing (fld v 47 0) (fld v 51 48) = false →
       completes (.nqConfigWrite q v) s fun t => (t.nq q.val).enable = true ∧ (t.nq q.val).head = 0 ∧ (t.nq q.val).tail = 0 ∧
         (t.nq q.val).base.toNat = fld v 47 0 ∧ (t.nq q.val).size.toNat = fld v 51 48 ∧ (t.nq q.val).seq = n.seq ∧ t.mem = s.mem) ∧
     (4 ≤ q.val → fld v 51 48 ≤ 12 → n.enable = true → fld v 53 53 = 0 → completes (.nqConfigWrite q v) s fun t =>
       t.nq q.val = { n with enable := false } ∧ ∀ j, j ≠ q.val → t.nq j = s.nq j) ∧
     (4 ≤ q.val → n.gapOpen = false → (v.setWidth 32 - n.head).toNat ≤ n.used → completes (.nqHeadWrite q v) s fun t =>
       (t.nq q.val).head = v.setWidth 32 ∧ (t.nq q.val).tail = n.tail ∧ t.mem = s.mem) ∧
     (4 ≤ q.val → n.used < (v.setWidth 32 - n.head).toNat → exec (.nqHeadWrite q v) s = .next s) ∧
     (4 ≤ q.val → n.enable = true → n.gapOpen = true → v.setWidth 32 = n.tail → completes (.nqHeadWrite q v) s fun t =>
       (t.nq q.val).gapOpen = false ∧ (t.nq q.val).tail = n.tail + 32 ∧ (t.nq q.val).gaps = satInc n.gaps) ∧
     (4 ≤ q.val → n.enable = true → n.flushPending = false → completes (.nqFlush q) s fun t => (t.nq q.val).head = n.tail ∧
       (t.nq q.val).tail = n.tail ∧ (t.nq q.val).flushPending = true ∧ (t.nq q.val).gapOpen = false ∧ t.mem = s.mem ∧
       (t.nq q.val).dropped = satInc n.dropped n.unread.length) ∧
     (n.flushPending = true → s.activating = false → completes (.flushGapPublish q) s fun t => (t.nq q.val).flushPending = false ∧
       (t.nq q.val).tail = n.tail + 32 ∧ (t.nq q.val).gaps = satInc n.gaps ∧ ∀ j, j ≠ q.val → t.nq j = s.nq j) ∧
     (∀ a, n.announceDue = true → n.announce ≠ 0 → s.activating = false → s.place true permWrite n.announce 8 = .here a →
       s.heldBy a 8 = none → s.writeStatus .unit a 8 = none → completes (.nqAnnounceWrite q) s fun t =>
         (t.nq q.val).announceDue = false ∧ t.bytes a 8 = leBytes 8 n.tail.toNat ∧ sameOutside s t a 8) ∧
     (s.writeHeld n.announce 8 = true → exec (.nqAnnounceWrite q) s = .next s))

/-- Register accesses: RW fields take their value, W1C bits clear, RO words and words outside Rehearsal mode keep theirs; a read clears
the RC fields of its word and no other; an access that a door or a missing block turns away (R12, R54, R87, R199, R200, R224, R432, R444).
-/
def Obligations.RegisterAccesses : Prop :=
  ∀ (s : State) (a : BitVec 48) (v : W64), s.regHeld a.toNat = none →
    (∀ c, s.regRoute a.toNat = .ok (.core c, 0x020) → completes (.registerWrite a v) s fun t =>
      (t.core c).p.pflags = (s.core c).p.pflags &&& ~~~ v.setWidth 16 ∧ (t.core c).p.cp = (s.core c).p.cp ∧ t.mem = s.mem ∧
      ∀ k, k ≠ c → t.core k = s.core k) ∧
    (∀ c, s.regRoute a.toNat = .ok (.core c, 0x030) → completes (.registerWrite a v) s fun t =>
      (t.core c).p.fillHold = v.setWidth 16 ∧ (t.core c).p.cp = (s.core c).p.cp ∧
      (t.core c).p.fillBudget.toNat = min (fld v 47 32) (s.stage (stageOfCore c)).fillCap.toNat ∧ ∀ k, k ≠ c → t.core k = s.core k) ∧
    (∀ c, s.regRoute a.toNat = .ok (.core c, 0x010) → exec (.registerWrite a v) s = .next s) ∧
    (∀ c, s.regRoute a.toNat = .ok (.core c, 0x908) → completes (.registerReadClear a) s fun t => (t.core c).vec.elements = 0 ∧
      (t.core c).vec.jobs = (s.core c).vec.jobs ∧ (t.core c).vec.wingsBound = (s.core c).vec.wingsBound ∧ (t.core c).p = (s.core c).p) ∧
    (∀ c, s.regRoute a.toNat = .ok (.core c, 0x1C20) → completes (.registerReadClear a) s fun t => (t.core c).wingsCorrected = 0 ∧
      (t.core c).p = (s.core c).p ∧ t.mem = s.mem ∧ ∀ k, k ≠ c → t.core k = s.core k) ∧
    (∀ g : Fin 8, s.regRoute a.toNat = .ok (.vault, g.val * 0x100) →
      (1 ≤ fld v 11 9 → 1 ≤ fld v 14 12 → fld v 11 9 + fld v 14 12 ≤ 4 → completes (.registerWrite a v) s fun t =>
        (t.group g.val).rebuildShare.toNat = fld v 11 9 ∧ (t.group g.val).sweepShare.toNat = fld v 14 12 ∧
        (t.group g.val).ch = (s.group g.val).ch ∧ t.mem = s.mem)) ∧
    (∀ g : Fin 8, s.regRoute a.toNat = .ok (.vault, g.val * 0x100 + 0x10) → completes (.registerReadClear a) s fun t =>
      (t.group g.val).corrected = 0 ∧ (t.group g.val).uncorrectable = 0 ∧ (t.group g.val).retrains = (s.group g.val).retrains ∧
      t.mem = s.mem) ∧
    (∀ k, s.regRoute a.toNat = .ok (.troupe k, 0x058) → completes (.registerWrite a v) s fun t =>
      (t.troupe k).seed = (if s.cur.rehearsal then v else (s.troupe k).seed) ∧ (t.troupe k).fixedSeed = (s.troupe k).fixedSeed) ∧
    (s.regRoute a.toNat = .ok (.mioder, 0x008) → completes (.registerWrite a v) s fun t => t.mio.linkNq.toNat = fld v 5 0 ∧
      t.mio.ecnEn = (fld v 6 6 == 1) ∧ t.mio.assocs = s.mio.assocs) ∧
    (∀ k, s.regRoute a.toNat = .ok (.stage k, 0x220) → completes (.registerReadClear a) s fun t => (t.stage k).doorAnswers = 0 ∧
      (t.stage k).discarded = 0 ∧ (t.stage k).resetGen = (s.stage k).resetGen ∧ t.dies = s.dies) ∧
    (s.regRoute a.toNat = .error .badParam →
      exec (.registerWrite a v) s = .next s ∧ exec (.registerReadClear a) s = .next s) ∧
    (s.regRoute a.toNat = .error .reset → ∀ st, (unitBlock ((a.toNat - regBase) / 0x1000000)).bind Block.door = some st →
      completes (.registerWrite a v) s fun t => (t.stage st).doorAnswers = satInc (s.stage st).doorAnswers ∧ t.cores = s.cores)

/-- A credential entry written by CRED_GO from an OWNER session, and the table's release (R394, R396, R403, R417). The Vault's key epoch
and host modes: rotation starts the sweep under the next epoch; entering confidential host mode closes what is not sealed and takes down a
named host's associations without a session, leaving it ends the mode; each change is a new measurement generation (R403, R414, R415,
R417). -/
def Obligations.CredentialsAndHostModes : Prop :=
  (∀ (s : State) (n : BitVec 32), s.ownerSession n = true →
     (∀ v : W64, fld v 8 8 = 1 → fld v 7 5 = 0 → completes (.credGo n v) s fun t => (t.cred (fld v 4 0)).kind = 0 ∧
       t.sec.credStatus = 0 ∧ t.sec.measGen = s.sec.measGen + 1 ∧ tells s t kSecurity 0 ∧ t.mem = s.mem) ∧
     (∀ (v : W64) (key : List Byte), fld v 8 8 = 1 → 2 ≤ fld v 7 5 → fld v 7 5 ≤ 5 → regionOf s.sec.credAddr.toNat = some .vault →
       s.readMem .unit s.sec.credAddr.toNat keyBytes = .ok key →
       (∀ p ∈ s.sec.creds, p.1 ≠ fld v 4 0 → p.2.kind ≠ 0 → p.2.digest ≠ Config.sha3 key) → completes (.credGo n v) s fun t =>
         t.cred (fld v 4 0) = { kind := BitVec.ofNat 3 (fld v 7 5), digest := Config.sha3 key, key := key } ∧ t.sec.credStatus = 0 ∧
         (∀ e, e ≠ fld v 4 0 → t.cred e = s.cred e) ∧ t.sec.measGen = s.sec.measGen + 1 ∧ tells s t kSecurity 0 ∧ t.mem = s.mem) ∧
     (completes (.ownerRelease n) s fun t => t.sec.creds = [] ∧ t.sec.measGen = s.sec.measGen + 1 ∧ t.cur.sessions = [] ∧
       (s.sec.hostConf = false → tells s t kSecurity 0 ∧ t.mem = s.mem))) ∧
  (∀ (s : State) (h : Hdr),
     (s.admits h 0x0520 → s.vault.sweepActive = false → s.sec.vaultEpoch ≠ 0xFFFFFFFF → answered (.vaultRotate h) s h 0x0520 false
       [.value ((s.sec.vaultEpoch + 1).setWidth 64)] fun t => t.sec.vaultEpoch = s.sec.vaultEpoch + 1 ∧ tells s t kSecurity 0 ∧
         t.mem = s.mem ∧
         ((∃ g : Fin 8, (s.group g.val).isLost = false) → t.vault.sweepActive = true ∧ t.vault.keyLive = 3)) ∧
     (∀ ds, s.admits h 0x0530 → ds ≠ [] → ds.length ≤ 8 → s.sealedSession h.session = true → s.coll.colls = [] → s.mio.migration = none →
       (∀ p ∈ s.mio.assocs, p.2.kept = []) → answered (.hostModeEnter h ds) s h 0x0530 false [] fun t => t.sec.hostConf = true ∧
         t.sec.namedHosts = ds ∧ t.sec.measGen = s.sec.measGen + 1 ∧ (∀ y ∈ t.cur.sessions, y.isSealed = true) ∧ tells s t kSecurity 0 ∧
         (∀ k, (t.assoc k).state = .up → ((t.assoc k).conf = none ∧ (t.assoc k).peer ∈ ds → False)) ∧ t.mem = s.mem) ∧
     (s.admits h 0x0530 → s.sec.hostConf = true → answered (.hostModeLeave h) s h 0x0530 false [] fun t => t.sec.hostConf = false ∧
       t.sec.namedHosts = [] ∧ t.sec.measGen = s.sec.measGen + 1 ∧ tells s t kSecurity 0 ∧ t.mem = s.mem ∧ t.mio = s.mio) ∧
     (s.admits h 0x0530 → s.sec.hostConf = false → answered (.hostModeLeave h) s h 0x0530 false [] fun t => sameButReplies s t))

/-- How the Curator takes a command: not at all while it is down, on the main lane not before LINKS ends; NO_SESSION, the kept reply of a
repeat, BAD_PARAM for a tag used before, DENIED by role, NOT_READY by phase, each changing nothing but what has left and the session's own
record; a command carried out is kept with its reply (R363, R365, R367 to R369, R421). -/
def Obligations.HowCommandsAreTaken : Prop :=
  ∀ (s : State) (h : Hdr) (op : Nat) (mk : Hdr → Instr), CommandRow op mk →
    (s.curatorUp = false ∨ (h.lane = .main ∧ s.phaseEnded 5 = false) → exec (mk h) s = .next s) ∧
    (s.curatorUp = true → (h.lane = .main → s.phaseEnded 5 = true) → s.activating = false →
      let r : Reply := { opcode := BitVec.ofNat 16 op, tag := h.tag, session := h.session, status := .ok,
                         updatePending := decide (s.cur.updateState ≠ UpdateState.none) }
      (s.session h.session = none → (h.session ≠ 0 ∨ opNeed op ≠ .none) → completes (mk h) s fun t => sameButReplies s t ∧
        t.cur.sessions = s.cur.sessions ∧ t.out = s.out ++ [.reply h.lane { r with status := .noSession }]) ∧
      (∀ x k, h.session ≠ 0 → s.session h.session = some x → x.kept.find? (fun k => k.reply.tag == h.tag) = some k →
        completes (mk h) s fun t => sameButReplies s t ∧ t.out = s.out ++ [.reply h.lane (if k.req = mk { h with lane := .main }
          then { k.reply with repeated := true, updatePending := r.updatePending } else { r with status := .badParam })]) ∧
      (∀ x, h.session ≠ 0 → s.session h.session = some x → (∀ k ∈ x.kept, k.reply.tag ≠ h.tag) → s.waitsAt h.session = none →
        (x.role = .observer → opNeed op = .operator → completes (mk h) s fun t => sameButReplies s t ∧
          t.out = s.out ++ [.reply h.lane { r with status := .denied }]) ∧
        ((x.role = .observer → opNeed op ≠ .operator) → s.phaseEnded (opPhase op) = false → completes (mk h) s fun t =>
          sameButReplies s t ∧ t.out = s.out ++ [.reply h.lane { r with status := .notReady }]))) ∧
    (∀ t x, h.session ≠ 0 → s.admits h op → (∀ c, s.holding c = false) → exec (mk h) s = .next t →
      t.session h.session = some x → ∃ l k, x.kept = l ++ [k] ∧ k.req = mk { h with lane := .main } ∧ k.reply.tag = h.tag ∧
        x.kept.length ≤ 64)

/-- A packet that fails an early check is counted or answered and has no other effect; a packet that is never whole is counted (R361,
R364, R367). -/
def Obligations.RejectedPackets : Prop :=
  ∀ (s : State) (h : Hdr) (op : BitVec 16), s.curatorUp = true → (h.lane = .main → s.phaseEnded 5 = true) → s.activating = false →
    (∀ d ∈ [PacketDefect.short, .magic], completes (.commandPacketRejected h op d) s fun t =>
      t = { s with cur := { s.cur with cmdDrops := satInc s.cur.cmdDrops } }) ∧
    (completes (.commandPacketRejected h op .version) s fun t => t = { s with out := s.out ++ [.versionReply h.lane h.tag] }) ∧
    ((if h.session = 0 then opNeed op.toNat ≠ .none else s.session h.session = none) →
      ∀ d ∈ [PacketDefect.noSession, .trailer, .reservedOpcode], completes (.commandPacketRejected h op d) s fun t =>
      sameButReplies s t ∧ ∃ r, t.out = s.out ++ [.reply h.lane r] ∧ r.status = .noSession ∧ r.tag = h.tag) ∧
    (∀ x, h.session ≠ 0 → s.session h.session = some x → completes (.commandPacketRejected h op .trailer) s fun t =>
      t = { s with cur := { s.cur with cmdDrops := satInc s.cur.cmdDrops } }) ∧
    (∀ x, h.session ≠ 0 → s.session h.session = some x → (∀ k ∈ x.kept, k.reply.tag ≠ h.tag) →
      completes (.commandPacketRejected h op .reservedOpcode) s fun t => sameButReplies s t ∧
        ∃ r, t.out = s.out ++ [.reply h.lane r] ∧ r.status = .badParam ∧ r.tag = h.tag) ∧
    (s.admits h op.toNat → completes (.commandPacketRejected h op .parameters) s fun t => sameButReplies s t ∧
        ∃ r, t.out = s.out ++ [.reply h.lane r] ∧ r.status = .badParam ∧ r.tag = h.tag) ∧
    (completes (.cmdFragmentTimeout h) s fun t => t = { s with cur := { s.cur with cmdDrops := satInc s.cur.cmdDrops } })

/-- Identity, descriptors and Ensembles: what the replies hold, what a definition, an edit and a deletion leave (R21, R25, R27, R34, R376,
R388). -/
def Obligations.UnitsAndEnsembles : Prop :=
  ∀ (s : State) (h : Hdr),
    (s.admits h 0x0100 → answered (.discover h) s h 0x0100 false
      [.value (if s.mio.devSet then s.mio.deviceNumber.setWidth 64 else 0xFFFFFFFFFFFFFFFF), .data (Config.identityRecord idPublic)]
      fun t => sameButReplies s t) ∧
    (s.admits h 0x0101 → answered (.inventory h) s h 0x0101 false
      [.data (s.describeUnit .device ++ ((List.range 4).map (fun p => leBytes 8 ((s.port p).word 8))).flatten)] fun t => sameButReplies s t) ∧
    (∀ u b, s.admits h 0x0108 → s.describeNow u = some (.ok, b) → answered (.unitDescribe h u) s h 0x0108 false [.data b]
      fun t => sameButReplies s t) ∧
    (∀ c, (s.core c).dark = true → s.unitState (.core c) = 3 ∧ (s.aggOf (.core c) 0).dark = 1) ∧
    (∀ ms tag k b, s.admits h 0x0110 → s.membersFault none ms ms = none →
      freeEntry ((s.ensembles.filter (fun p => p.2.defined)).map (fun p => p.1)) 4096 = some k →
        poolBase (s.poolUsed none) ms.length = some b →
      answered (.ensembleDefine h ms tag) s h 0x0110 false [.unit (s.nameOf (.ensemble k))] fun t =>
        t.ensemble k = { defined := true, members := ms, base := BitVec.ofNat 14 b, tag := (tag.getD 0).setWidth 32 } ∧
        (∀ j, j ≠ k → t.ensemble j = s.ensemble j) ∧ t.cores = s.cores) ∧
    (∀ u e ms remove l b, s.admits h 0x0111 → s.ensembleNamed u = .ok e → (s.ensemble e).locked = false → s.inRun e = false →
      takeOut remove (s.ensemble e).members = some l → s.membersFault (some e) ms (l ++ ms) = none →
      poolBase (s.poolUsed (some e)) (l ++ ms).length = some b → answered (.ensembleEdit h u ms remove) s h 0x0111 false [] fun t =>
        t.ensemble e = { s.ensemble e with members := l ++ ms, base := BitVec.ofNat 14 b } ∧ ∀ j, j ≠ e → t.ensemble j = s.ensemble j) ∧
    (∀ u e, s.admits h 0x0112 → s.ensembleNamed u = .ok e → (s.ensemble e).locked = false → s.ensembleHeld e = false →
      answered (.ensembleDelete h u) s h 0x0112 false [] fun t => (t.ensemble e).defined = false ∧
        ∀ j, j ≠ e → t.ensemble j = s.ensemble j)

/-- Memory and registers by command: what is read, what is written and nothing else, what an asynchronous fill claims (R11, R200, R368,
R372, R377, R378). Rehearsal mode: entered and left while nothing runs, each time a new measurement generation; forced writes and the
accumulator images only in it (R54, R62, R87, R378, R403). -/
def Obligations.MemoryAndRehearsalCommands : Prop :=
  (∀ (s : State) (h : Hdr) (a n v : W64) (x : Nat), devAddr a = some x →
     (∀ b, s.admits h 0x0300 → s.confined = false → n.toNat ≤ 1024 → s.heldBy x n.toNat = none → s.readMem .command x n.toNat = .ok b →
       answered (.memRead h a n) s h 0x0300 false [.data b] fun t => sameButReplies s t) ∧
     (∀ b, s.admits h 0x0301 → b.length ≤ 1024 → s.heldBy x b.length = none → s.writeStatus .command x b.length = none →
       answered (.memWrite h a b) s h 0x0301 false [] fun t => t.bytes x b.length = b ∧ sameOutside s t x b.length ∧ t.cores = s.cores) ∧
     (∀ nq k, s.admits h 0x0302 → asyncQueue nq → s.freeSlot = some k → n ≠ 0 →
       (∃ r, spanRegion x n.toNat = some r ∧ r ≠ .registers) → s.writeStatus .command x n.toNat = none →
       answered (.memFill h a n v nq) s h 0x0302 true (slotFields s k) fun t => t.mem = s.mem ∧
         claimed s t k h 0x0302 nq (.memFill x n.toNat v)) ∧
     (∀ w t0, s.admits h 0x0310 → s.regHeld a.toNat = none → s.regRead a.toNat = .ok (w, t0) →
       answered (.regRead h a) s h 0x0310 false [.value w] fun t => t.cores = t0.cores ∧ t.mem = t0.mem ∧ t.nqs = t0.nqs) ∧
     (∀ t0, s.admits h 0x0311 → s.regHeld a.toNat = none → s.regWriteTo (some h.session) a.toNat v = .ok t0 →
       answered (.regWrite h a v) s h 0x0311 false [] fun t => t.cores = t0.cores ∧ t.mem = t0.mem ∧ t.nqs = t0.nqs ∧ t.sec = t0.sec)) ∧
  (∀ (s : State) (h : Hdr),
     (s.admits h 0x0F00 → s.confined = false → s.anyRunning = false → s.cur.rehearsal = false →
       answered (.rehearsalEnter h) s h 0x0F00 false [] fun t => t.cur.rehearsal = true ∧ t.sec.measGen = s.sec.measGen + 1 ∧
         t.cores = s.cores ∧ t.mem = s.mem) ∧
     (s.admits h 0x0F01 → s.anyRunning = false → s.cur.rehearsal = true →
       answered (.rehearsalLeave h) s h 0x0F01 false [] fun t => t.cur.rehearsal = false ∧ t.sec.measGen = s.sec.measGen + 1 ∧
         (∀ k, (t.troupe k).fixedSeed = false ∧ (t.troupe k).seed = 0) ∧ (∀ c, (t.core c).p.singleStep = false) ∧ t.mem = s.mem) ∧
     (∀ u (c : CoreNo) (k : Fin 2), s.admits h 0x0F02 → s.confined = false → s.cur.rehearsal = true → s.coreHere u = some c.val →
       s.holding c.val = false → (s.core c.val).dark = false → (s.core c.val).inReset = false →
       answered (.accumRead h u (BitVec.ofNat 32 k.val)) s h 0x0F02 false
         [.data (if k.val = 0 then (s.core c.val).arrA else (s.core c.val).arrB).imageBytes] fun t => sameButReplies s t) ∧
     (∀ (a v : W64) (c : Nat), s.admits h 0x0F03 → s.cur.rehearsal = true → s.regHeld a.toNat = none →
       s.regRoute a.toNat = .ok (.core c, 0x028) → answered (.regForce h a v) s h 0x0F03 false [] fun t =>
         (t.core c).p.vl = v ∧ (t.core c).p.cp = (s.core c).p.cp ∧ (∀ k, k ≠ c → t.core k = s.core k) ∧ t.mem = s.mem))

/-- The queues by command, and the result slots: a READY slot is read, marked, released; a PENDING one is not ready, and its release
abandons it; a slot left READY expires (R190 to R193, R372 to R377). -/
def Obligations.QueueAndResultCommands : Prop :=
  ∀ (s : State) (h : Hdr) (k : BitVec 32) (v : W64), k.toNat < 64 →
    (s.admits h 0x0700 → fld v 51 48 ≤ 12 → answered (.nqConfigure h k v) s h 0x0700 false [] fun t =>
      t.nq k.toNat = (s.nqRegWrite k.toNat 0x00 v).nq k.toNat ∧ ∀ j, j ≠ k.toNat → t.nq j = s.nq j) ∧
    (∀ n b, s.admits h 0x0701 → n.toNat ≤ 16384 → s.nqBytes k.toNat n.toNat = .ok b →
      answered (.nqRead h k n) s h 0x0701 false [.value ((s.nq k.toNat).tail.setWidth 64), .data b] fun t => sameButReplies s t) ∧
    (s.admits h 0x0702 → 4 ≤ k.toNat → (s.nq k.toNat).gapOpen = false → (v.setWidth 32 - (s.nq k.toNat).head).toNat ≤ (s.nq k.toNat).used →
      answered (.nqAdvance h k v) s h 0x0702 false [] fun t => (t.nq k.toNat).head = v.setWidth 32 ∧
        (t.nq k.toNat).tail = (s.nq k.toNat).tail) ∧
    (s.admits h 0x0703 → 4 ≤ k.toNat → (s.nq k.toNat).enable = true → (s.nq k.toNat).flushPending = false →
      answered (.nqFlushCmd h k) s h 0x0703 false [] fun t => (t.nq k.toNat).flushPending = true ∧
        (t.nq k.toNat).head = (s.nq k.toNat).tail) ∧
    (s.admits h 0x0704 → 4 ≤ k.toNat → answered (.nqAnnounce h k v) s h 0x0704 false [] fun t => (t.nq k.toNat).announce = v ∧
      ∀ j, j ≠ k.toNat → t.nq j = s.nq j) ∧
    (∀ (z : BitVec 16) seq x, s.namedSlot h.session z seq = some x →
      (s.admits h 0x0710 → x.state = .ready → completes (.resultRead h z seq) s fun t =>
        t.slot z.toNat = { x with readOnce := true } ∧ ∃ r, t.out = s.out ++ [.reply h.lane r] ∧ r.status = .ok ∧ r.tag = h.tag ∧
          r.repeated = x.readOnce ∧ r.fields = .status x.status :: x.fields) ∧
      (s.admits h 0x0711 → answered (.resultRelease h z seq) s h 0x0711 false [] fun t =>
        t.slot z.toNat = if x.state = .pending then { x with state := .abandoned } else {})) ∧
    (∀ z : Fin 1024, (s.slot z.val).state = .ready → completes (.resultSlotExpire z) s fun t => (t.slot z.val).state = .free ∧
      t.cur.slotExpired = satInc s.cur.slotExpired ∧ ∀ j, j ≠ z.val → t.slot j = s.slot j)

/-- A job submitted by a cue or a command joins the queue of its engine under the next JOB_SEQ; submissions that wait fill a queue of two,
and a cue that finds it full holds; a queued job is cancelled at once, a running one is marked; a deadline that has passed ends a job, and
none does before (R96, R97, R268, R269, R287, R288, R295, R372). -/
def Obligations.RootSubmissions : Prop :=
  ∀ (s : State),
    (∀ (c : CoreNo) (q : W128) (pk : Peek) (d : JobDesc), s.issues c q pk → cueClass q = clsRoot → (s.core c.val).replayEffects = [] →
      s.readDesc (fld q 73 26) = .ok d → jGang d = false → jobOk d 1 true = true → arrivedOk d (troupeOfCore c.val) = true →
      (s.troupe (troupeOfCore c.val)).inReset = false → (s.engine (troupeOfCore c.val)).jobs.length < 64 →
      (s.core c.val).rootQueue = [] → completes (.rootCue ⟨c, false⟩) s fun t =>
        (t.core c.val).p.cp = (s.core c.val).p.cp + 1 ∧ t.jobSeq = s.jobSeq + 1 ∧ t.mem = s.mem ∧
        (∃ j, (t.engine (troupeOfCore c.val)).jobs = (s.engine (troupeOfCore c.val)).jobs ++ [j] ∧ j.seq = s.jobSeq ∧ j.desc = d ∧
          j.priority = BitVec.ofNat 2 (fld q 25 24) ∧ j.members = [troupeOfCore c.val]) ∧
        ∃ r, (t.core c.val).rootCues = (s.core c.val).rootCues ++ [(r, s.jobSeq)] ∧ r.signal = cueSignal q) ∧
    (∀ (c : CoreNo) (q : W128) (pk : Peek), s.issues c q pk → cueClass q = clsRoot → (s.core c.val).replayEffects = [] →
      completes (.rootCue ⟨c, true⟩) s fun t => (t.core c.val).p.cp = (s.core c.val).p.cp + 1 ∧ t.engines = s.engines ∧ t.mem = s.mem ∧
        (s.core c.val).rootQueue.length < 2 ∧ ∃ r, (t.core c.val).rootQueue = (s.core c.val).rootQueue ++ [r] ∧ r.2.2 = q) ∧
    (∀ (c : CoreNo) (q : W128) w, s.decides c q (.hold .unit) → cueClass q = clsRoot → completes (.rootCue ⟨c, w⟩) s fun t =>
      t.core c.val = (s.core c.val).modP (fun p => { p with state := .hold, hold := .unit }) ∧ t.engines = s.engines ∧ t.mem = s.mem) ∧
    (∀ (h : Hdr) (a : W64) (prio : BitVec 8) nq d k t0 seq, s.admits h 0x0240 → asyncQueue nq →
      prio.toNat < 4 → s.commandDesc a = .ok d → s.freeSlot = some k → s.acceptJob d prio.toNat (.command k) none = (t0, .ok seq) →
      answered (.rootSubmit h a prio nq) s h 0x0240 true (slotFields t0 k ++ [.value (seq.setWidth 64)]) fun t =>
        claimed t0 t k h 0x0240 nq (.root seq) ∧ t.engines = t0.engines ∧ seq = s.jobSeq ∧ t.jobSeq = s.jobSeq + 1) ∧
    (∀ (h : Hdr) (v : W64) j, s.admits h 0x0241 → s.jobNumbered v = some j → s.jobNow j = j → j.lead ∈ j.members →
      ((s.engine j.lead).running ≠ some j.seq → answered (.rootCancel h v) s h 0x0241 false [] fun t =>
        (∀ k ∈ (t.engine j.lead).jobs, k.seq ≠ j.seq) ∧ (t.engine j.lead).jobsDone = satInc (s.engine j.lead).jobsDone) ∧
      ((s.engine j.lead).running = some j.seq → answered (.rootCancel h v) s h 0x0241 false [] fun t => t.mem = s.mem ∧
        ∀ k ∈ (t.engine j.lead).jobs, k.seq = j.seq → k.cancel = true)) ∧
    (∀ (e : TroupeNo) seq j at_, (s.engine e.val).job seq = some j → j.deadline = some at_ → s.troupeTimer e.val < at_ →
      exec (.rootDeadlineMiss e seq) s = .next s) ∧
    (∀ (e : TroupeNo) seq j at_, (s.engine e.val).job seq = some j → j.lead = e.val → e.val ∈ j.members → j.deadline = some at_ →
      at_ ≤ s.troupeTimer e.val → completes (.rootDeadlineMiss e seq) s fun t => (∀ k ∈ (t.engine e.val).jobs, k.seq ≠ seq) ∧
        (t.engine e.val).deadlineMisses = satInc (s.engine e.val).deadlineMisses ∧
        (t.engine e.val).jobsDone = satInc (s.engine e.val).jobsDone)

/-- The unit of an engine: it takes the best startable job, a gang's member waits for the others, a boundary does the next panel of a
direct job, ends a cancelled one and one whose scratch SRAM failed, the end frees the unit and writes the result record (R270, R273, R274,
R285, R288, R291). The Assembly stage takes the best job that can be assembled, hands over what it produced, and yields to a deadline;
warm-start slots are cleared by a mask (R279, R282, R284 to R286). -/
def Obligations.RootUnitsAndAssembly : Prop :=
  (∀ (s : State) (e : TroupeNo),
     let x := s.engine e.val
     let idle := ∀ c ∈ coresOfTroupe e.val, (s.core c).rootQueue = []
     (∀ j, (s.troupe e.val).inReset = false → idle → x.running = none → s.candidate e.val = some j → s.jobNow j = j → j.members = [e.val] →
       (jLoop j.desc = false → j.resume = false →
         completes (.rootJobStart e) s fun t => (t.engine e.val).running = some j.seq ∧ (t.engine e.val).gangWait = false ∧
           ∃ k, (t.engine e.val).job j.seq = some k ∧ k.started = true) ∧
       (jLoop j.desc = true → j.started = false → completes (.rootJobStart e) s fun t => ∃ k, (t.engine e.val).job j.seq = some k ∧
         k.started = true ∧ (k.ended = none → k.waitEval = true ∧ k.evals = j.evals + 1 ∧ (t.engine e.val).running = none))) ∧
     (∀ j, (s.troupe e.val).inReset = false → idle → x.running = none → s.candidate e.val = some j →
       (∃ u ∈ j.members, u ≠ e.val ∧ (s.engine u).gangWait = false) → completes (.rootJobStart e) s fun t =>
         (t.engine e.val).running = some j.seq ∧ (t.engine e.val).gangWait = true ∧ (t.engine e.val).jobs = x.jobs ∧
         ∀ u, u ≠ e.val → t.engine u = s.engine u) ∧
     (∀ q j, x.running = some q → x.job q = some j → j.lead = e.val → x.gangWait = false → j.ended = none → jDirect j.desc = true →
       completes (.rootJobBoundary ⟨e, false⟩) s fun t => ∃ k, (t.engine e.val).job q = some k ∧
         (k.ended = none → k.iters = j.iters + 1) ∧ (j.cancel = true → k.ended.isSome = true)) ∧
     (∀ q j, x.running = some q → x.job q = some j → j.lead = e.val → x.gangWait = false → j.ended = none →
       completes (.rootJobBoundary ⟨e, true⟩) s fun t => t.mem = s.mem ∧ ∃ k, (t.engine e.val).job q = some k ∧
         k.ended = some (.integrity, false)) ∧
     (∀ j st conv, x.endedJob e.val = some j → j.ended = some (st, conv) → s.jobNow j = j → e.val ∈ j.members → j.optimiser = false →
       completes (.rootJobEnd e) s fun t => (∀ k ∈ (t.engine e.val).jobs, k.seq ≠ j.seq) ∧ (t.engine e.val).running ≠ some j.seq ∧
         (t.engine e.val).jobsDone = satInc x.jobsDone ∧
         ((st ≠ .ok ∨ jDirect j.desc = false) → s.writeStatus .unit (jRes j.desc) 64 = none →
           t.bytes (jRes j.desc) 64 = resultRecord j { status := st, converged := conv } (s.troupeTimer e.val)))) ∧
  (∀ (s : State) (e : TroupeNo),
     let x := s.engine e.val
     (∀ j, x.asmJob = none → bestJob (x.jobs.filter (s.assemblable e.val)) = some j → s.jobNow j = j →
       (jArrived j.desc = 0 ∨ s.arrivals j.desc ≤ jExpect j.desc) → jAsm j.desc ≤ 1 → completes (.rootAssemblyStart e) s fun t =>
         (t.engine e.val).asmJob = some j.seq ∧ (∃ k, (t.engine e.val).job j.seq = some k ∧ k.asm = .working) ∧ t.mem = s.mem) ∧
     (∀ j q, x.asmJob = some q → x.job q = some j → s.jobNow j = j → j.lead = e.val → j.seq = q →
       (jAsm j.desc = 0 → completes (.rootAssemblyComplete e) s fun t => (t.engine e.val).asmJob = none ∧
         (∃ k, (t.engine e.val).job q = some k ∧ k.asm = .complete) ∧ t.mem = s.mem) ∧
       (∀ a, jAsm j.desc = 1 → s.kron j.prec j.desc = .ok a →
         completes (.rootAssemblyComplete e) s fun t => (t.engine e.val).asmJob = none ∧ ∃ k, (t.engine e.val).job q = some k ∧
           if allFinite a.flat then k.asm = .complete ∧ k.m = codesOf j.prec a.flat else k.ended = some (.numeric, false) ∧ t.mem = s.mem)) ∧
     (∀ j q, x.asmJob = some q → x.job q = some j → j.lead = e.val → j.seq = q → completes (.assemblyGroupEnd e) s fun t => t.mem = s.mem ∧
       ((∀ k ∈ x.jobs, k.deadline = none) → (t.engine e.val).asmJob = some q ∧
         ∃ k, (t.engine e.val).job q = some k ∧ k.asmGroup = j.asmGroup + 1)) ∧
     (∀ mask : W64, s.cur.phase = .ready → (s.troupe e.val).inReset = false → completes (.slotClear e mask) s fun t =>
       (∀ k < 64, ((t.engine e.val).slot k).valid = (if mask.getLsbD k then false else (x.slot k).valid)) ∧
       (t.engine e.val).jobs = x.jobs ∧ t.mem = s.mem))

/-- The close of a gradient: the arrivals are counted down, the gradient copied to its held buffer, the accumulator cleared, with CLOSED,
or an overrun that halts the shard; a close waits for its buffer whatever the Conservator does, for the answers of another device that
holds the buffer, and goes on after an interruption (R237 to R239, R249). -/
def Obligations.GradientCloses : Prop :=
  ∀ (s : State) (n : ConsNo),
    (∀ i : Fin 64, s.complete n.val i.val = true →
      (s.heldFree (s.recAt n.val i.val) = true → s.consIdle n.val = true →
        (s.rFab (s.recAt n.val i.val) 1 = false → completes (.gradientClose n i) s fun t => (t.con n.val).activity = .close ∧
          (t.con n.val).shardNow = i.val ∧ (t.shard n.val i.val).stalled = none ∧ t.cores = s.cores ∧
          (∀ k, k < s.recAt n.val i.val ∨ s.recAt n.val i.val + 256 ≤ k → Memory.get t.mem k = Memory.get s.mem k)) ∧
        (s.rFab (s.recAt n.val i.val) 1 = true → completes (.gradientClose n i) s fun t =>
          ((t.con n.val).activity = .close ∨ (t.con n.val).activity = .idle) ∧ (t.shard n.val i.val).stalled = none)) ∧
      (s.heldFree (s.recAt n.val i.val) = false → (s.con n.val).inReset = false → completes (.gradientClose n i) s fun t =>
        t.mem = s.mem ∧ (t.con n.val).activity = (s.con n.val).activity ∧ (t.shard n.val i.val).stalled.isSome = true)) ∧
    (∀ i : Fin 64, s.closeOpen n.val i.val = true → s.consIdle n.val = true → s.rFab (s.recAt n.val i.val) 1 = false →
      completes (.gradientClose n i) s fun t => t.mem = s.mem ∧ (t.con n.val).activity = .close ∧ (t.con n.val).shardNow = i.val) ∧
    (∀ (i a : Nat), (s.con n.val).activity = .close → (s.con n.val).shardNow = i → s.recAt n.val i = a → s.rCloseState a = 1 →
      (s.con n.val).sent = true →
        ((s.con n.val).awaited ≠ 0 → exec (.closeCopyDone n) s = .next s) ∧
        ((s.con n.val).awaited = 0 → completes (.closeCopyDone n) s fun t => t.closeTick = s.closeTick + 1 ∧
          (t.shard n.val i).closeOrder = (s.shard n.val i).closeOrder ++ [s.closeTick] ∧
          ∀ k, k < a ∨ a + 256 ≤ k → Memory.get t.mem k = Memory.get s.mem k)) ∧
    (∀ (i a c : Nat) (b : List Byte), (s.con n.val).activity = .close → (s.con n.val).shardNow = i → s.recAt n.val i = a →
      s.rCloseState a = 1 → s.rCloses a = c → s.consRead false (s.recGet a 383 320) (4 * s.rN a) = .ok b → s.rFab a 1 = false →
      fld (BitVec.ofNat 64 (s.rGrad a c)) 63 48 = 0 → 0 < s.rN a → (s.con n.val).sent = false → (s.con n.val).awaited = 0 →
      s.heldBy (fld (BitVec.ofNat 64 (s.rGrad a c)) 47 0) (4 * s.rN a) = none →
      s.writeStatus .unit (fld (BitVec.ofNat 64 (s.rGrad a c)) 47 0) (4 * s.rN a) = none → completes (.closeCopyDone n) s fun t =>
        t.closeTick = s.closeTick + 1 ∧ (t.shard n.val i).closeOrder = (s.shard n.val i).closeOrder ++ [s.closeTick] ∧
        (t.con n.val).activity = .close ∧
        ∀ k, k < 4 * s.rN a → (a + 256 ≤ fld (BitVec.ofNat 64 (s.rGrad a c)) 47 0 + k ∨ fld (BitVec.ofNat 64 (s.rGrad a c)) 47 0 + k < a) →
          Memory.get t.mem (fld (BitVec.ofNat 64 (s.rGrad a c)) 47 0 + k) = nth 0 b k) ∧
    (∀ (i a : Nat), (s.con n.val).activity = .close → (s.con n.val).shardNow = i → s.recAt n.val i = a → s.rCloseState a = 2 →
      s.rSource a ≠ 1 → s.recGet a 383 320 + 4 * s.rN a ≤ a ∨ a + 256 ≤ s.recGet a 383 320 → completes (.closeZeroDone n) s fun t =>
        (t.con n.val).activity = .idle ∧ (∀ k, s.recGet a 383 320 ≤ k → k < s.recGet a 383 320 + 4 * s.rN a → Memory.get t.mem k = 0) ∧
        tells s t kSweep (s.con n.val).sweepNq.toNat ∧
        (s.rArrived a = 0 → (t.shard n.val i).state = (s.shard n.val i).state ∧ (t.con n.val).overruns = (s.con n.val).overruns) ∧
        (s.rArrived a ≠ 0 → (t.shard n.val i).state = .halted ∧ (t.con n.val).overruns = satInc (s.con n.val).overruns))

/-- A sweep: it starts on the shard whose gradient closed first, waits for the hold word, does its blocks and commits; a shard with a
value that is not finite is skipped or halted (R242, R245 to R247, R260, R261). A commit: VERSION rises, the other slot becomes current,
PREV_VALID is set, in one write of the record; a skip commits the state unchanged; writes to another device are awaited before the commit,
and before a staged set counts as installed (R246, R256, R260, R261). -/
def Obligations.SweepsAndCommits : Prop :=
  (∀ (s : State) (n : ConsNo),
     (∀ (i : Fin 64) (u : Rule), s.consIdle n.val = true → s.anyClose n.val = false → s.nextShard n.val = some i.val →
       s.readRule (s.recAt n.val i.val) = .ok u → ruleOk u = true → completes (.sweepStart n i) s fun t =>
         (t.con n.val).activity = .holdWait ∧ (t.con n.val).shardNow = i.val ∧ (t.con n.val).rule = u ∧ (t.con n.val).block = 0 ∧
         (t.con n.val).commits = (s.con n.val).commits ∧ t.mem = s.mem) ∧
     (∀ i a, (s.con n.val).activity = .holdWait → (s.con n.val).shardNow = i → s.recAt n.val i = a → (n.val, i) ∉ s.cur.ckptHolds →
       (s.num (holdAddr a ((s.rVersion a + 1) % 2)) 8 = 0 → completes (.sweepPassStart n) s fun t =>
         ((s.shard n.val i).discard = false → (t.con n.val).activity = .pass) ∧
         ((s.shard n.val i).discard = true → s.rFab a 0 = false → s.rFab a 2 = false → (t.con n.val).activity = .skipCopy) ∧
         ((s.shard n.val i).discard = true → (t.con n.val).activity = .skipCopy ∨ (t.con n.val).activity = .idle) ∧
         (t.shard n.val i).holdNoted = false ∧
         ((s.shard n.val i).discard = false ∨ (s.rFab a 0 = false ∧ s.rFab a 2 = false) →
           ∀ k, k < a ∨ a + 256 ≤ k → Memory.get t.mem k = Memory.get s.mem k)) ∧
       (s.num (holdAddr a ((s.rVersion a + 1) % 2)) 8 ≠ 0 → completes (.sweepPassStart n) s fun t =>
         (t.con n.val).activity = .holdWait ∧ t.mem = s.mem)) ∧
     (∀ i a b y, (s.con n.val).activity = .pass → (s.con n.val).shardNow = i → s.recAt n.val i = a → s.rSource a ≠ 2 →
       (s.rBlocks a)[(s.con n.val).block]? = some b → s.readBlock n.val i b = .ok y → completes (.sweepBlockDone n) s fun t =>
       let (m, v, dir, sat) := direction (s.con n.val).rule (s.rDone a + 1) b y
       let (w, k) := applyDelta (s.con n.val).rule (s.rComp a) y.w y.k dir
       ∀ t', finT (scaled (s.con n.val).rule y.g) = true → finT w = true → finT m = true → finT v = true → finT k = true → sat = false →
         s.writeBlock n.val i b w m v k = .ok t' → (t.con n.val).block = (t'.con n.val).block + 1 ∧
           (t.con n.val).activity = (t'.con n.val).activity ∧ t.mem = t'.mem ∧ t.cores = t'.cores) ∧
     (∀ i a b y, (s.con n.val).activity = .pass → (s.con n.val).shardNow = i → s.recAt n.val i = a →
       (s.rBlocks a)[(s.con n.val).block]? = some b → s.readBlock n.val i b = .ok y → finT (scaled (s.con n.val).rule y.g) = false →
       (uSkip (s.con n.val).rule = true → completes (.sweepBlockDone n) s fun t =>
         ((t.con n.val).activity = .skipCopy ∨ (t.con n.val).activity = .idle) ∧
         (s.rFab a 0 = false → s.rFab a 2 = false → (t.con n.val).activity = .skipCopy ∧ t.mem = s.mem)) ∧
       (uSkip (s.con n.val).rule = false → completes (.sweepBlockDone n) s fun t => (t.con n.val).activity = .idle ∧
         (t.shard n.val i).state = .halted ∧ (t.con n.val).halts = satInc (s.con n.val).halts ∧ tells s t kSweep 0))) ∧
  (∀ (s : State) (n : ConsNo) (i a : Nat), (s.con n.val).shardNow = i → s.recAt n.val i = a → s.recGet a 1334 1334 = 0 →
     ((s.con n.val).inReset = false → (s.con n.val).activity = .pass → (s.con n.val).awaited ≠ 0 →
       exec (.sweepCommit n) s = .next s) ∧
     ((s.con n.val).inReset = false → (s.con n.val).activity = .afterCommit → (s.con n.val).useStaged = true → (s.con n.val).sent = true →
       ((s.con n.val).awaited ≠ 0 → exec (.sweepCommit n) s = .next s) ∧
       ((s.con n.val).awaited = 0 → (s.con n.val).bad = false → completes (.sweepCommit n) s fun t => (t.con n.val).activity = .idle ∧
         t.recGet a 1184 1184 = 1 ∧ t.recGet a 1185 1185 = 0 ∧ (t.con n.val).commits = (s.con n.val).commits ∧
         tells s t kSweep (s.con n.val).sweepNq.toNat ∧ ∀ k, k < a ∨ a + 256 ≤ k → Memory.get t.mem k = Memory.get s.mem k)) ∧
     ((s.con n.val).inReset = false → (s.con n.val).activity = .pass → (s.con n.val).awaited = 0 →
       (s.rBlocks a).length ≤ (s.con n.val).block → (s.con n.val).useStaged = false → s.rSource a ≠ 2 →
       completes (.sweepCommit n) s fun t => t.num a 8 = (s.rVersion a + 1) % 2 ^ 32 + (1 - s.rSlot a) * 2 ^ 32 + 2 ^ 33 ∧
         (t.con n.val).activity = .idle ∧ (t.con n.val).commits = satInc (s.con n.val).commits ∧
         (t.shard n.val i).closeOrder = (s.shard n.val i).closeOrder.tail ∧ tells s t kSweep (s.con n.val).sweepNq.toNat ∧
         ∀ k, k < a ∨ a + 256 ≤ k → Memory.get t.mem k = Memory.get s.mem k) ∧
     (∀ w, (s.con n.val).activity = .skipCopy → (s.con n.val).sent = false → (s.con n.val).awaited = 0 → (s.con n.val).useStaged = false →
       s.readTiles (s.rFab a 0) (s.rSlotBase a (s.rSlot a)) (List.range (s.rN a / 4096)) = .ok w → completes (.skipCopyDone n) s fun t =>
       ∀ t0 t1 sat, s.consCopy n.val (s.rFab a 0) (s.rSlotBase a (s.rSlot a)) (s.rFab a 0) (s.rSlotBase a (1 - s.rSlot a))
           (4 * s.rN a * (1 + moments (uId (s.con n.val).rule) + bit (s.rComp a))) = .ok t0 →
         t0.writeWork n.val a ((t0.rVersion a + 1) % 2) t0.freeCtr ((List.range (s.rN a / 4096)).zip w) 0 = .ok (t1, sat) →
         t1.con n.val = s.con n.val → t1.recAt n.val i = a → t1.recGet a 1334 1334 = 0 →
         (t.con n.val).activity = .idle ∧ (t.con n.val).skips = satInc (s.con n.val).skips ∧
         (t.con n.val).commits = satInc (s.con n.val).commits ∧
         t.num a 8 = (t1.rVersion a + 1) % 2 ^ 32 + (1 - t1.rSlot a) * 2 ^ 32 + 2 ^ 33))

/-- Compares and refreshes, and the commands on shards: loaded into a free entry with a free window, resumed, unloaded, compared (R234,
R235, R253, R254, R259, R261). -/
def Obligations.ShardsAndCompares : Prop :=
  ∀ (s : State),
    (∀ (n : ConsNo) (i a : Nat) w b, (List.range 64).find? (fun i => (s.shard n.val i).compareQueued) = some i →
      s.consIdle n.val = true → s.anyClose n.val = false →
      s.recAt n.val i = a → s.readTiles (s.rFab a 0) (s.rSlotBase a (s.rSlot a)) (List.range (s.rN a / 4096)) = .ok w →
      s.consRead (s.rFab a 2) (s.rWork a (s.rVersion a % 2)) (s.rWorkBytes a) = .ok b → completes (.compareDone n) s fun t =>
        (t.shard n.val i).compareQueued = false ∧ (t.shard n.val i).state = (s.shard n.val i).state ∧
        tells s t kSweep (s.con n.val).sweepNq.toNat ∧ ∀ k, k < a ∨ a + 256 ≤ k → Memory.get t.mem k = Memory.get s.mem k) ∧
    (∀ (n : ConsNo) (i : Nat) u, (List.range 64).find? (fun i => (s.shard n.val i).foldDue) = some i → s.consIdle n.val = true →
      s.anyClose n.val = false →
      s.readRule (s.recAt n.val i) = .ok u → completes (.factorFoldDone n) s fun t => (t.shard n.val i).foldDue = false ∧
        (t.shard n.val i).state = (s.shard n.val i).state ∧ (t.con n.val).activity = (s.con n.val).activity ∧ t.cores = s.cores) ∧
    (∀ n : ConsNo, s.anyClose n.val = true → exec (.compareDone n) s = .next s ∧ exec (.factorFoldDone n) s = .next s) ∧
    (∀ (h : Hdr) (n : BitVec 32) (a : W64) x i t0, s.admits h 0x0230 → devAddr a = some x → s.shardLoad n.toNat x = .ok (i, t0) →
      answered (.shardLoad h n a) s h 0x0230 false [.index (BitVec.ofNat 32 i)] fun t => (s.shard n.toNat i).state = .empty ∧
        (t.shard n.toNat i).record = BitVec.ofNat 48 x ∧ (t.shard n.toNat i).state ≠ .empty ∧
        (∃ w < 4096, (Tab.get {} s.windows w : Window).used = false ∧ (Tab.get {} t.windows w : Window).used = true ∧
          (t.shard n.toNat i).window = BitVec.ofNat 12 w) ∧ t.mem = s.mem) ∧
    (∀ (h : Hdr) (n i : BitVec 32), s.shardNamed n i = .ok () →
      (s.admits h 0x0231 → (s.shard n.toNat i.toNat).state = .halted →
        answered (.shardResumeRetry h n i) s h 0x0231 false [] (fun t => (t.shard n.toNat i.toNat).state = .live ∧
          (t.shard n.toNat i.toNat).discard = false) ∧
        answered (.shardResumeDiscard h n i) s h 0x0231 false [] (fun t => (t.shard n.toNat i.toNat).state = .live ∧
          (t.shard n.toNat i.toNat).discard = true)) ∧
      (s.admits h 0x0232 → s.shardHeld n.toNat i.toNat = false → answered (.shardUnload h n i) s h 0x0232 false [] fun t =>
        (t.shard n.toNat i.toNat).state = .empty ∧ (Tab.get {} t.windows (s.shard n.toNat i.toNat).window.toNat : Window).used = false ∧
        t.mem = s.mem) ∧
      (s.admits h 0x0233 → answered (.shardCompare h n i) s h 0x0233 false [] fun t =>
        (t.shard n.toNat i.toNat).compareQueued = true ∧ t.mem = s.mem))

/-- Requests of a peer for memory: a put stores, a get reads, an atomic exchanges one word, an add rounds once; each is answered (R206,
R308, R321, R322). -/
def Obligations.PeerMemoryRequests : Prop :=
  ∀ (s : State) (r : MioReq) (a : Nat), s.takes r.assoc r.counter r.phase r.psn r.path →
    let w : Asker := .peer (s.assoc r.assoc).hostPeer
    (s.mioHeld 0x01 r = none → mioBad r 0x01 = false → s.mioPlace r permWrite r.data.length = .here a →
      s.writeStatus w a r.data.length = none → completes (.mioderPut r) s fun t => t.bytes a r.data.length = r.data ∧
        sameOutside s t a r.data.length ∧ respondedTo t r.assoc r.reqId .ok []) ∧
    (∀ b, s.mioHeld 0x02 r = none → mioBad r 0x02 = false → ((s.assoc r.assoc).hostPeer = false ∨ s.confined = false) →
      s.mioPlace r permRead r.length = .here a → s.serveGet w a r.length r.version = .ok b → completes (.mioderGet r) s fun t =>
        t.mem = s.mem ∧ respondedTo t r.assoc r.reqId .ok b) ∧
    (s.mioHeld 0x03 r = none → mioBad r 0x03 = false → s.mioPlace r permAtomic 8 = .here a → a % 8 = 0 → fld r.aux 2 0 ≤ 2 →
      r.data.length = 16 → s.readStatus w a 8 = none → s.writeStatus w a 8 = none → completes (.mioderAtomic r) s fun t =>
        t.bytes a 8 = leBytes 8 (atomicNew (fld r.aux 2 0) (BitVec.ofNat 64 (s.num a 8)) (BitVec.ofNat 64 (ofLe (r.data.take 8)))
          (BitVec.ofNat 64 (ofLe (r.data.drop 8)))).toNat ∧
        sameOutside s t a 8 ∧ respondedTo t r.assoc r.reqId .ok (leBytes 8 (s.num a 8))) ∧
    (s.mioHeld 0x04 r = none → mioBad r 0x04 = false → s.mioPlace r permAdd 4 = .here a → r.data.length = 4 →
      spanRegion a 4 = some .gallery → s.writeStatus w a 4 = none → (s.galleryPoison a 4).isEmpty = true →
        completes (.mioderAdd r) s fun t =>
        t.bytes a 4 = leBytes 4 (r32 ((f32 (s.num a 4)).add (f32 (ofLe r.data)))) ∧ sameOutside s t a 4 ∧
        respondedTo t r.assoc r.reqId .ok [])

/-- Messages, tokens, handles, descriptor reads and register operations of a peer (R21, R108, R179, R244, R308, R310, R318). -/
def Obligations.PeerUnitRequests : Prop :=
  ∀ (s : State) (r : MioReq), s.takes r.assoc r.counter r.phase r.psn r.path →
    let u : UnitName := BitVec.ofNat 48 (fld r.target 47 0)
    (∀ c : CoreNo, s.badMsg r = false → nameRef u = some (.core c.val) → s.mio.landing = [] → fld r.aux 22 20 = 0 →
      r.psn = (s.assoc r.assoc).rxCum → (s.assoc r.assoc).rxSeen = [] → (s.core c.val).inReset = false → (s.core c.val).dark = false →
      completes (.mioderMsg r) s fun t => t.mem = s.mem ∧ ∃ m, m.bytes = ringBytes (r.data.take 16) (r.data.drop 16) ∧
        Tab.get [] (t.core c.val).msg.waiting (fld r.aux 1 0) = Tab.get [] (s.core c.val).msg.waiting (fld r.aux 1 0) ++ [m]) ∧
    (∀ c : CoreNo, mioBad r 0x06 = false → s.isHere u = true → nameRef u = some (.core c.val) → (s.core c.val).open = true →
      (s.core c.val).heldIn = [] → (s.core c.val).logRoom 1 = true → completes (.mioderToken r) s fun t => t.mem = s.mem ∧
        (∀ j, (t.core c.val).token j = if j = fld r.aux 5 0 then min ((s.core c.val).token j + 1) 15 else (s.core c.val).token j) ∧
        respondedTo t r.assoc r.reqId .ok []) ∧
    (∀ c : CoreNo, mioBad r 0x07 = false → s.isHere u = true → coreName u = some c.val → r.data.length = 16 → (s.core c.val).open = true →
      ((s.core c.val).ep (fld r.aux 3 0)).state ≠ .off →
      ((s.core c.val).ep (fld r.aux 3 0)).waiting.length + ((s.core c.val).ep (fld r.aux 3 0)).held.length < 64 →
      (s.core c.val).heldIn = [] → (s.core c.val).logRoom 1 = true → (s.core c.val).str.queue = [] → completes (.mioderHandle r) s fun t =>
        ((t.core c.val).ep (fld r.aux 3 0)).waiting =
          ((s.core c.val).ep (fld r.aux 3 0)).waiting ++ [BitVec.ofNat 128 (ofLe r.data)] ∧ respondedTo t r.assoc r.reqId .ok []) ∧
    (∀ b, mioBad r 0x08 = false → s.isHere u = true → fld r.aux 3 0 = 1 → ((s.assoc r.assoc).hostPeer = false ∨ s.confined = false) →
      s.describeNow u = some (.ok, b) → completes (.mioderUnitDescribe r) s fun t => t.mem = s.mem ∧ t.cores = s.cores ∧
        respondedTo t r.assoc r.reqId .ok b) ∧
    (∀ a c off, s.activating = false → s.regHeld a = none → ((s.assoc r.assoc).hostPeer = false ∨ s.confined = false) →
      s.regRoute a = .ok (.core c, off) →
      (mioBad r 0x09 = false → s.mioPlace r permRead 8 = .here a → completes (.mioderRegRead r) s fun t =>
        respondedTo t r.assoc r.reqId .ok (leBytes 8 (BitVec.ofNat 64 (s.regWord (.core c) off)).toNat) ∧ t.mem = s.mem ∧
        t.core c = (s.core c).clear off) ∧
      (mioBad r 0x0A = false → s.mioPlace r permWrite 8 = .here a → off = 0x030 → r.data.length = 8 →
        completes (.mioderRegWrite r) s fun t =>
        respondedTo t r.assoc r.reqId .ok [] ∧ (t.core c).p.fillHold = BitVec.ofNat 16 (ofLe r.data) ∧
        ∀ k, k ≠ c → t.core k = s.core k))

/-- What comes back: a response completes its request, an ACK frees packets, a PROBE is acknowledged, a dropped packet is counted, a late
reply is discarded, an unanswered member is absent (R27, R307, R308, R311 to R314, R326, R433). -/
def Obligations.PeerAnswers : Prop :=
  ∀ (s : State),
    (∀ (x : MioResp) q c ep, s.takes x.assoc x.counter x.phase x.psn x.path →
      (s.assoc x.assoc).reqs.find? (fun r => r.reqId == x.reqId && r.out.status.isNone) = some q → q.purpose = .handle c ep →
      q.gen = (s.core c).resetGen → q.out.op ≠ 0x05 → ((s.core c).ep ep).releasing.isSome = true → completes (.mioderResponse x) s fun t =>
        ((t.core c).ep ep).answer = some x.status ∧ t.mem = s.mem ∧
        ∀ r ∈ (t.assoc x.assoc).reqs, r.out.status = none → r.reqId ≠ x.reqId) ∧
    (∀ k : MioAck, (s.mayEnter k.assoc k.counter k.phase).2 = true → completes (.mioderAck k) s fun t =>
      (t.assoc k.assoc).rekeying = false ∧ t.mio.ecnMarks = satInc s.mio.ecnMarks k.ce ∧ t.mem = s.mem ∧ t.cores = s.cores ∧
      ((s.assoc k.assoc).backlog = [] → ∀ p ∈ (t.assoc k.assoc).reqs, ackCovers k p.psn = true → p.acked = true)) ∧
    (∀ (a : AssocNo) path counter phase, (s.mayEnter a.val counter phase).2 = true →
      ∀ f : RxFrame, completes (.mioderProbe ⟨a, f⟩ path counter phase) s fun t =>
      (∃ via, t.out = s.out ++ [.ack a.val (s.assoc a.val).rxCum (s.assoc a.val).sack (bit f.ce) path via]) ∧ t.mem = s.mem ∧
      t.cores = s.cores) ∧
    (∀ (a : AssocNo) (f : RxFrame),
      (completes (.mioderPacketDropped ⟨a, f⟩ .authentication) s fun t => t.mio.authFails = satInc s.mio.authFails ∧
        t.mio.assocs = s.mio.assocs ∧ t.mem = s.mem ∧ (t.port f.port.val).rxFrames = (s.port f.port.val).rxFrames + 1) ∧
      ((s.assoc a.val).state ≠ .up → completes (.mioderPacketDropped ⟨a, f⟩ .notUp) s fun t => t.mio.authFails = satInc s.mio.authFails ∧
        t.mio.assocs = s.mio.assocs ∧ t.mem = s.mem) ∧
      (completes (.mioderPacketDropped ⟨a, f⟩ .replay) s fun t => t.mio.replayDrops = satInc s.mio.replayDrops ∧
        t.mio.assocs = s.mio.assocs ∧ t.mem = s.mem) ∧
      (∀ op r, s.takes a.val r.counter r.phase r.psn r.path → completes (.mioderPacketDropped ⟨a, f⟩ (.reservedOp op r)) s fun t =>
        respondedTo t a.val r.reqId .badParam [] ∧ t.mem = s.mem)) ∧
    (∀ (c : CoreNo) (r : LateReply), r.kind.val = 3 → nameRef r.peer = some (.core c.val) → (s.isHere r.peer = false ∨
      (s.core c.val).resetGen ≠ r.gen) →
      completes (.replyDiscarded c r) s fun t => tells s t kReset (s.core c.val).reportQueue.toNat ∧
        (t.stage (stageOfCore c.val)).discarded = satInc (s.stage (stageOfCore c.val)).discarded ∧
        (((s.core c.val).ep r.request).releasing.isSome = true → ((t.core c.val).ep r.request).answer = some .reset)) ∧
    (∀ (j : DescJob) u level k e, s.mio.descJobs = [j] → j.direct = false → j.slot = some k → j.waiting = [(u, level)] →
      s.isHere j.unit = true → nameRef j.unit = some (.ensemble e) →
        completes (.describeMemberTimeout j.id (BitVec.ofNat 16 (nameDevice u))) s fun t =>
        t.mio.descJobs = [] ∧ (t.slot k).ended = true ∧ (t.slot k).status = .ok ∧
        (t.slot k).fields = [.data (s.describeEnsemble e (j.agg.join (absent u level)))])

/-- Retransmission, probes and retries: a packet goes out again, its path is suspect and after three timeouts, of packets or of probes, is
replaced, a BUSY message is sent again under new numbers (R312, R313, R315, R317, R328). Sub-ports and associations: a sub-port goes down
and comes up, retrains, and after three failures tries once a second; an opening that nobody answers is given up; a silent association
goes DOWN (R300, R301, R316, R325, R328, R331, R436). -/
def Obligations.AssociationsOverTime : Prop :=
  (∀ (s : State) (a : AssocNo), (s.assoc a.val).state = .up →
     let x := s.assoc a.val
     (∀ psn r, x.reqs.find? (fun r => r.psn == psn && !r.acked && !r.queued) = some r → r.resend = true →
       completes (.retransmitTimeout a psn) s fun t => t.mio.retransmits = satInc s.mio.retransmits ∧ t.mem = s.mem ∧
         (∃ p, t.out = s.out ++ [wire a.val r p]) ∧
         ((Tab.get {} x.paths r.path : Path).timeouts + 1 < 3 → (Tab.get {} (t.assoc a.val).paths r.path : Path).suspect = true ∧
           t.mio.pathRetires = s.mio.pathRetires) ∧
         (3 ≤ (Tab.get {} x.paths r.path : Path).timeouts + 1 → (Tab.get {} (t.assoc a.val).paths r.path : Path).suspect = false ∧
           (Tab.get {} (t.assoc a.val).paths r.path : Path).timeouts = 0 ∧ t.mio.pathRetires = satInc s.mio.pathRetires ∧
             tells s t kLink 0)) ∧
     (∀ p, let y : Path := Tab.get {} x.paths p
       y.suspect = true → completes (.pathProbeTimer a p) s fun t => t.mem = s.mem ∧ t.cores = s.cores ∧
         (y.probing = false ∨ y.timeouts + 1 < 3 → t.out = s.out ++ [.probe a.val p 0] ∧
           (Tab.get {} (t.assoc a.val).paths p : Path).probing = true ∧
           (Tab.get {} (t.assoc a.val).paths p : Path).timeouts = y.timeouts + bit y.probing) ∧
         (y.probing = true → 3 ≤ y.timeouts + 1 → t.out = s.out ∧ (Tab.get {} (t.assoc a.val).paths p : Path).suspect = false ∧
           t.mio.pathRetires = satInc s.mio.pathRetires ∧ tells s t kLink 0)) ∧
     (∀ p, Tab.mem x.paths p = true → completes (.idleProbe a p) s fun t => t.out = s.out ++ [.probe a.val p 0] ∧ t.mem = s.mem ∧
       t.cores = s.cores) ∧
     (∀ id, (x.reqs.filter (fun r => r.reqId == id && r.busyWait)) ≠ [] → completes (.msgBusyRetry a id) s fun t => t.mem = s.mem ∧
       (∀ r ∈ (t.assoc a.val).reqs, r.reqId = id → r.busyWait = false) ∧
       ∀ r ∈ x.reqs, r.reqId = id → r.busyWait = true → ∃ q ∈ (t.assoc a.val).kept, q.reqId = id ∧ q.out = r.out) ∧
     (2 ^ 40 ≤ x.txCounter.toNat → completes (.counterRekey a) s fun t => (t.assoc a.val).txPhase = !x.txPhase ∧
       (t.assoc a.val).txCounter = 0 ∧ (t.assoc a.val).rekeying = true ∧ (t.assoc a.val).reqs = x.reqs ∧ t.mem = s.mem) ∧
     (x.rxOldValid = true → completes (.rxOldKeyExpire a) s fun t => (t.assoc a.val).rxOldValid = false ∧
       (t.assoc a.val).rxPhase = x.rxPhase ∧ (t.assoc a.val).rxTop = x.rxTop ∧ t.mem = s.mem)) ∧
  (∀ (s : State),
     (∀ (p : PortNo) (sub : Fin 8),
       let x := s.port p.val
       (bitOf x.linkUp.toNat sub.val = true → completes (.subPortDown p sub none) s fun t =>
         bitOf (t.port p.val).linkUp.toNat sub.val = false ∧ (t.port p.val).linkDowns = satInc x.linkDowns ∧
         bitOf (t.port p.val).training.toNat sub.val = true ∧ tells s t kLink 0 ∧ t.mem = s.mem) ∧
       (∀ k : Fin 8, bitOf x.linkUp.toNat sub.val = true → completes (.subPortDown p sub (some k)) s fun t =>
         bitOf (t.port p.val).linkUp.toNat sub.val = false ∧ bitOf (t.port p.val).laneBad.toNat k.val = true ∧ tells s t kLink 0) ∧
       (∀ inv order, bitOf x.linkUp.toNat sub.val = false → bitOf x.subOff.toNat sub.val = false → subLanes x.mode.toNat sub.val ≠ [] →
         completes (.subPortUp p sub inv order) s fun t => bitOf (t.port p.val).linkUp.toNat sub.val = true ∧
           bitOf (t.port p.val).training.toNat sub.val = false ∧ tells s t kLink 0 ∧ t.mem = s.mem) ∧
       (bitOf x.training.toNat sub.val = true →
         (completes (.subportRetrainEnd p sub true) s fun t => bitOf (t.port p.val).training.toNat sub.val = false ∧
           Tab.get 0 (t.port p.val).retrainFails sub.val = 0 ∧ t.mem = s.mem) ∧
         (completes (.subportRetrainEnd p sub false) s fun t =>
           Tab.get 0 (t.port p.val).retrainFails sub.val = Tab.get 0 x.retrainFails sub.val + 1 ∧
           bitOf (t.port p.val).training.toNat sub.val = decide (Tab.get 0 x.retrainFails sub.val + 1 < 3) ∧
           bitOf (t.port p.val).retrying.toNat sub.val = decide (3 ≤ Tab.get 0 x.retrainFails sub.val + 1) ∧ t.mem = s.mem)) ∧
       (bitOf x.retrying.toNat sub.val = true → completes (.subportRetryTimer p sub) s fun t =>
         bitOf (t.port p.val).training.toNat sub.val = true ∧ bitOf (t.port p.val).retrying.toNat sub.val = false ∧ t.mem = s.mem)) ∧
     (∀ a : AssocNo, (s.assoc a.val).state = .opening → completes (.assocOpenTimeout a) s fun t => (t.assoc a.val).state = .free ∧
       t.mem = s.mem ∧ ∀ k, (s.assoc a.val).slot = some k → (t.slot k).ended = true ∧ (t.slot k).status = .gone) ∧
     (∀ a : AssocNo, (s.assoc a.val).state = .up → (s.assoc a.val).kept = [] → s.coll.colls = [] → s.mio.migration = none →
       completes (.assocTimeout a) s fun t => (t.assoc a.val).state = .down ∧ tells s t kLink 0 ∧ t.mem = s.mem ∧ t.cores = s.cores ∧
         ∀ k, k ≠ a.val → t.assoc k = s.assoc k))

/-- A migration: a pass copies its granules, waits for the answers to copies to and from another device, and goes on, or holds new
requests; it ends with the entry on its new target, or failed on the old one (R323, R331, R372). The Accession table by command: an entry
is set, cleared, read, and moved by a migration (R320, R323, R329). -/
def Obligations.MigrationsAndAccession : Prop :=
  (∀ (s : State) (m : Migration), s.mio.migration = some m → m.held = [] → m.cmds = [] → s.mio.heldWrites = [] → s.coll.colls = [] →
     let e : AccEntry := Tab.get {} s.mio.accession m.entry
     (∀ m0, m.holding = false → (s.migRun m m.toCopy).mio.migration = some m0 →
       let t0 := s.migRun m m.toCopy
       (m0.failed = none → m0.awaiting ≠ 0 → completes (.migratePassDone none) s fun t => t = t0) ∧
       (∀ st, m0.failed = some st → completes (.migratePassDone none) s fun t => t.mio.migration = none ∧ t.mem = t0.mem ∧
         Tab.get {} t.mio.accession m0.entry = { (Tab.get {} t0.mio.accession m0.entry : AccEntry) with state := .live, newDev := 0, newAddr := 0 } ∧
         (t.slot m0.slot).ended = true ∧ tells t0 t kLink 0) ∧
       (m0.failed = none → m0.awaiting = 0 → completes (.migratePassDone none) s fun t => t.mem = t0.mem ∧
         ∃ k, t.mio.migration = some k ∧ k.copied = m0.copied + m0.toCopy.length ∧
           ((m0.dirty.length ≤ 16 ∨ 8 ≤ m0.pass) → k.holding = true ∧ k.dirty = m0.dirty) ∧
           (16 < m0.dirty.length → m0.pass < 8 → k.holding = false ∧ k.pass = m0.pass + 1 ∧ k.toCopy = m0.dirty ∧ k.dirty = []))) ∧
     (∀ st, m.holding = false → completes (.migratePassDone (some st)) s fun t => t.mio.migration = none ∧ t.mem = s.mem ∧
       Tab.get {} t.mio.accession m.entry = { e with state := .live, newDev := 0, newAddr := 0 } ∧ (t.slot m.slot).ended = true ∧
       tells s t kLink 0) ∧
     (m.holding = true → s.migInFlight e = true → completes (.migrateComplete none) s fun t => t = s) ∧
     (∀ m0, m.holding = true → s.migInFlight e = false → (s.migRun m m.dirty).mio.migration = some m0 → m0.held = [] → m0.cmds = [] →
       let t0 := s.migRun m m.dirty
       t0.mio.heldWrites = [] →
       (m0.failed = none → m0.awaiting ≠ 0 → completes (.migrateComplete none) s fun t => t = t0) ∧
       (m0.failed = none → m0.awaiting = 0 → completes (.migrateComplete none) s fun t =>
         t.mio.migration = none ∧ t.mem = t0.mem ∧ (t.slot m0.slot).ended = true ∧ (t.slot m0.slot).status = .ok ∧
         Tab.get {} t.mio.accession m0.entry =
           { e with targetDev := e.newDev, targetAddr := e.newAddr, state := .live, newDev := 0, newAddr := 0 })) ∧
     (∀ st, m.holding = true → s.migInFlight e = false → completes (.migrateComplete (some st)) s fun t => t.mio.migration = none ∧
       t.mem = s.mem ∧ Tab.get {} t.mio.accession m.entry = { e with state := .live, newDev := 0, newAddr := 0 } ∧
       (t.slot m.slot).ended = true)) ∧
  (∀ (s : State) (h : Hdr) (k : BitVec 32), k.toNat < 32768 →
     let e := s.acc k.toNat
     (∀ b f, s.admits h 0x0420 → e.state ≠ .migrating → AccEntry.of b = some f →
       (∀ p ∈ s.mio.accession, p.1 ≠ k.toNat → p.2.overlaps f = false) → answered (.accessionSet h k b) s h 0x0420 false [] fun t =>
         (t.acc k.toNat).state = f.state ∧ (f.state = .live → t.acc k.toNat = f) ∧ t.mem = s.mem ∧ ∀ j, j ≠ k.toNat → t.acc j = s.acc j) ∧
     (s.admits h 0x0421 → e.state ≠ .migrating → answered (.accessionClear h k) s h 0x0421 false [] fun t =>
       (t.acc k.toNat).state = .empty ∧ t.mem = s.mem ∧ ∀ j, j ≠ k.toNat → t.acc j = s.acc j) ∧
     (s.admits h 0x0423 → answered (.accessionRead h k) s h 0x0423 false [.data (leBytes 32 e.pack)] fun t => sameButReplies s t) ∧
     (∀ d a x nq n, s.admits h 0x0422 → asyncQueue nq → s.freeSlot = some n → devAddr a = some x →
       s.mio.migration = none → e.state = .live → (d = s.mio.deviceNumber ∨ (s.upAssoc d.toNat).isSome = true) →
       (e.targetDev = s.mio.deviceNumber ∨ (s.upAssoc e.targetDev.toNat).isSome = true) →
       answered (.segmentMigrate h k d a nq) s h 0x0422 true (slotFields s n) fun t => claimed s t n h 0x0422 nq .migrate ∧
         t.acc k.toNat = { e with state := .migrating, newDev := d, newAddr := BitVec.ofNat 48 x } ∧ t.mem = s.mem ∧
         (∃ m, t.mio.migration = some m ∧ m.entry = k.toNat ∧ m.slot = n ∧ m.holding = false ∧
           m.toCopy = List.range (2 ^ e.sizeLog.toNat / migGranule)) ∧ ∀ j, j ≠ k.toNat → t.acc j = s.acc j))

/-- Collectives and mappings by command: posted, started, ended early, released (R337, R338, R341, R346, R347, R353, R356). -/
def Obligations.CollectiveCommands : Prop :=
  ∀ (s : State) (h : Hdr) (k : BitVec 32),
    (∀ a x n t0, s.admits h 0x0250 → devAddr a = some x → s.collPost x = .ok (n, t0) →
      answered (.collectivePost h a) s h 0x0250 false [.index (BitVec.ofNat 32 n)] fun t => t.mem = s.mem ∧ (t.collOf n).posted = true ∧
        (t.collOf n).desc = BitVec.ofNat 2048 (s.num x 256) ∧ (t.collOf n).now = none ∧ (t.collOf n).run = 0 ∧ n < 256 ∧
        ∀ j, j ≠ n → t.collOf j = s.collOf j) ∧
    (k.toNat < 256 → (s.collOf k.toNat).posted = true →
      let x := s.collOf k.toNat
      (s.admits h 0x0251 → x.now.isSome = true → answered (.collectiveRun h k) s h 0x0251 false [] fun t => t.mem = s.mem ∧
        t.collOf k.toNat = { x with readyAgain := x.readyAgain + 1 }) ∧
      (s.admits h 0x0251 → x.now = none → s.transitionRuns x = false → answered (.collectiveRun h k) s h 0x0251 false [] fun t =>
        t.coll = ((s.subtract x.readyAddr x.expect).collStart k.toNat false).coll ∧
        t.mem = ((s.subtract x.readyAddr x.expect).collStart k.toNat false).mem) ∧
      (s.admits h 0x0252 → x.now.isSome = true → s.endsAlone k.toNat → answered (.collectiveCancel h k) s h 0x0252 false [] fun t =>
        (t.collOf k.toNat).now = none ∧ (t.collOf k.toNat).lastStatus = BitVec.ofNat 16 (statusCode .gone) ∧
        t.coll.fails = satInc s.coll.fails ∧ tells s t kCollective 0 ∧ tells s t kCollective x.nq) ∧
      (s.admits h 0x0252 → x.now = none → (s.mapping x.mapNo).stopped = false → answered (.collectiveCancel h k) s h 0x0252 false []
        fun t => t.coll = s.coll ∧ t.mem = s.mem) ∧
      (s.admits h 0x0252 → x.now = none → x.inMap = true → (s.mapping x.mapNo).transition = true → (s.mapping x.mapNo).stopped = true →
        (s.mapping x.mapNo).todo.head? = some (BitVec.ofNat 32 x.id) → answered (.collectiveCancel h k) s h 0x0252 false [] fun t =>
          t.mapping x.mapNo = { s.mapping x.mapNo with transition := false, stopped := false, todo := [] } ∧
          t.coll.colls = s.coll.colls ∧ t.mem = s.mem) ∧
      (s.admits h 0x0253 → x.now = none → x.kept = false → (∀ m ∈ s.coll.maps, m.2.valid = false) →
        answered (.collectiveRelease h k) s h 0x0253 false [] fun t => (t.collOf k.toNat).posted = false ∧ t.mem = s.mem ∧
          ∀ j, j ≠ k.toNat → t.collOf j = s.collOf j)) ∧
    (∀ a x t0, s.admits h 0x0254 → devAddr a = some x → s.mappingPostCmd k.toNat x = .ok t0 →
      answered (.mappingPost h k a) s h 0x0254 false [] fun t => (t.mapping k.toNat).valid = true ∧ (t.mapping k.toNat).phase = .forward ∧
        (t.mapping k.toNat).transition = false ∧ (t.mapping k.toNat).record = BitVec.ofNat 2048 (s.num x 256) ∧ t.mem = s.mem ∧
        t.coll.colls = s.coll.colls ∧ ∀ j, j ≠ k.toNat → t.mapping j = s.mapping j) ∧
    (s.admits h 0x0255 → k.toNat < 16 → (s.mapping k.toNat).valid = true → (s.mapping k.toNat).transition = false →
      answered (.mappingRelease h k) s h 0x0255 false [] fun t => (t.mapping k.toNat).valid = false ∧ t.mem = s.mem ∧
        t.coll.colls = s.coll.colls ∧ ∀ j, j ≠ k.toNat → t.mapping j = s.mapping j)

/-- A run of a collective on a device that holds no source: at order 1 EXPECT leaves the ready word and every other device is told; a
missing association or a digest that disagrees ends it there; with the last element it is counted and signalled; where the others are done
too it completes; past its time it fails (R337, R338, R341, R342, R353). -/
def Obligations.CollectiveRuns : Prop :=
  ∀ (s : State) (k : Fin 256), (s.collOf k.val).posted = true →
    let x := s.collOf k.val
    (x.now = none → s.transitionRuns x = false → x.readyAgain ≠ 0 ∨ x.expect ≤ s.num x.readyAddr 8 →
      s.writeStatus .unit x.readyAddr 8 = none → x.isVersioned = false →
      (x.mySrcs s.me = [] → x.op ≠ opAllReduce → x.disagrees = false → (∀ d ∈ s.collOthers k.val, (s.upAssoc d).isSome = true) →
        completes (.collRunStart k) s fun t => t.num x.readyAddr 8 = (s.num x.readyAddr 8 + 2 ^ 64 - x.expect) % 2 ^ 64 ∧
          sameOutside s t x.readyAddr 8 ∧ (t.collOf k.val).readyAgain = x.readyAgain - 1 ∧ (t.collOf k.val).run = x.run ∧
          (∃ r, (t.collOf k.val).now = some r ∧ r.ready = x.early.ready ∧ r.done = x.early.done ∧ r.localDone = x.early.localDone) ∧
          ∀ d ∈ s.collOthers k.val, ∃ q ∈ s.mio.assocs, q.2.state = .up ∧ q.2.peer.toNat = d ∧ ∃ p ∈ (t.assoc q.1).kept,
            p.purpose = .coll k.val ∧ p.out.op = 0x41 ∧ p.out.aux = BitVec.ofNat 48 (x.id + x.run.toNat % 65536 * 2 ^ 32)) ∧
      ((∃ d ∈ s.collOthers k.val, s.upAssoc d = none) → completes (.collRunStart k) s fun t => (t.collOf k.val).now = none ∧
        (t.collOf k.val).lastStatus = BitVec.ofNat 16 (statusCode .gone) ∧ t.coll.fails = satInc s.coll.fails ∧ tells s t kCollective 0) ∧
      ((∀ d ∈ s.collOthers k.val, (s.upAssoc d).isSome = true) → x.disagrees = true → completes (.collRunStart k) s fun t =>
        (t.collOf k.val).now = none ∧ (t.collOf k.val).lastStatus = BitVec.ofNat 16 (statusCode .badParam) ∧
        t.coll.fails = satInc s.coll.fails ∧ tells s t kCollective 0)) ∧
    (x.now.isSome = true ∨ s.transitionRuns x = true → completes (.collRunStart k) s fun t => t = s) ∧
    (∀ r, x.now = some r → s.deviceReady k.val = true → r.staged = [] →
      (x.inMap = true → (s.mapping x.mapNo).transition = false) → x.doneAddr ≠ 0 →
      s.writeStatus .unit x.doneAddr 8 = none → fld x.desc 20 20 = 0 → completes (.collDeviceDone k) s fun t =>
        t.num x.doneAddr 8 = (s.num x.doneAddr 8 + 1) % 2 ^ 64 ∧ sameOutside s t x.doneAddr 8 ∧ tells s t kCollective x.nq ∧
        (s.collOthers k.val = [] → (x.measures = true → r.gnsSent = true) → (t.collOf k.val).now = none ∧ (t.collOf k.val).run = x.run + 1 ∧
          t.coll.runs = satInc s.coll.runs) ∧
        (∀ d ∈ s.collOthers k.val, d ∉ r.done → (∃ y, (t.collOf k.val).now = some y ∧ y.localDone = true) ∧ (t.collOf k.val).run = x.run)) ∧
    (x.now.isSome = true ∨ x.early.ready ≠ [] → s.endsAlone k.val → completes (.collTimeout k) s fun t => (t.collOf k.val).now = none ∧
      (t.collOf k.val).early = {} ∧ (t.collOf k.val).lastStatus = BitVec.ofNat 16 (statusCode .deadlineMiss) ∧
      t.coll.fails = satInc s.coll.fails ∧ t.coll.timeouts = satInc s.coll.timeouts ∧ tells s t kCollective 0 ∧
      (x.myDsts s.me = [] → x.rs.any x.inPlace = false → t.mem = s.mem))

/-- Requests of the other devices of a collective: elements are stored or combined, READY, its digest and DONE are kept, before this
device's own order 1 too, an ABORT ends the run with its status, noise sums are added; a digest that disagrees ends the run; no data
without a run (R338, R340, R341, R344, R353, R355). -/
def Obligations.CollectiveRequests : Prop :=
  ∀ (s : State) (r : MioReq) (k : Nat), s.takes r.assoc r.counter r.phase r.psn r.path → r.version = 0 → r.data.length = r.length →
    (s.collNamed r = some k →
      let x := s.collOf k
      let d := s.peerOf r
      let free := ∀ q ∈ s.arrivalSpans r, s.collWaits q.1 q.2.1 q.2.2 = false
      (∀ y a, free → x.now = some y → y.keptRun = false → x.combines = false → x.chain = false → x.stagesAt s.me r.target = false →
        r.data.length % x.w = 0 → r.data ≠ [] → s.place true permWrite r.target r.data.length = .here a →
        s.writeStatus .unit a r.data.length = none → completes (.mioderCollData r) s fun t => t.bytes a r.data.length = r.data ∧
          sameOutside s t a r.data.length ∧ respondedTo t r.assoc r.reqId .ok [] ∧
          (t.collOf k).now = some { y with got := y.got + r.data.length / x.w, bytesIn := y.bytesIn + r.data.length }) ∧
      (∀ y e, free → x.now = some y → y.keptRun = false → x.op = opReduceScatter → x.element s.me r.target = some e → 0 < x.w →
        r.data.length = x.w → Tab.get 0 y.arrived e + 1 < x.nRanks → completes (.mioderCollData r) s fun t => t.mem = s.mem ∧
          respondedTo t r.assoc r.reqId .ok [] ∧ ∃ z, (t.collOf k).now = some z ∧ Tab.get 0 z.arrived e = Tab.get 0 y.arrived e + 1 ∧
            Tab.get 0 z.acc e = BitVec.ofNat 64 (x.combine (Tab.get (BitVec.ofNat 64 x.identity) y.acc e).toNat (x.widen (ofLe r.data)))) ∧
      (free → x.now = none → r.data.length % x.w = 0 → completes (.mioderCollData r) s fun t => respondedTo t r.assoc r.reqId .gone [] ∧
        t.mem = s.mem ∧ t.coll = s.coll) ∧
      (∀ y, r.target = 0 → x.now = some y → y.localDone = true → (∀ e ∈ s.collOthers k, e = d ∨ e ∈ y.done) → x.measures = false →
        x.inMap = false → completes (.mioderCollDone r) s fun t => (t.collOf k).now = none ∧ (t.collOf k).run = x.run + 1 ∧
          t.coll.runs = satInc s.coll.runs ∧ respondedTo t r.assoc r.reqId .ok []) ∧
      (∀ y e, r.target = 0 → x.now = some y → e ∈ s.collOthers k → e ≠ d → e ∉ y.done → completes (.mioderCollDone r) s fun t =>
        (t.collOf k).now = some { y with done := dedup (y.done ++ [d]) } ∧ (t.collOf k).run = x.run) ∧
      (r.target = 0 → x.now = none → completes (.mioderCollDone r) s fun t => respondedTo t r.assoc r.reqId .ok [] ∧ t.mem = s.mem ∧
        t.collOf k = { x with early := { x.early with done := dedup (x.early.done ++ [d]) } }) ∧
      (∀ st, r.target = 0 → r.data = leBytes 2 (statusCode st) → s.endsAlone k →
        completes (.mioderCollAbort r) s fun t => (t.collOf k).now = none ∧
        (t.collOf k).lastStatus = BitVec.ofNat 16 (statusCode st) ∧ tells s t kCollective 0 ∧ respondedTo t r.assoc r.reqId .ok []) ∧
      (∀ y a b, r.target = 0 → x.now = some y → y.localDone = false → r.data = leBytes 8 a ++ leBytes 8 b → a < 2 ^ 64 → b < 2 ^ 64 →
        completes (.mioderCollGns r) s fun t => respondedTo t r.assoc r.reqId .ok [] ∧ ∃ z, (t.collOf k).now = some z ∧
          z.gnsSmall = BitVec.ofNat 64 (dAdd y.gnsSmall.toNat a) ∧ z.gnsBig = BitVec.ofNat 64 (dAdd y.gnsBig.toNat b) ∧ d ∈ z.gnsFrom) ∧
      (∀ a b, r.target = 0 → x.now = none → r.data = leBytes 8 a ++ leBytes 8 b → a < 2 ^ 64 → b < 2 ^ 64 →
        completes (.mioderCollGns r) s fun t => respondedTo t r.assoc r.reqId .ok [] ∧ d ∈ (t.collOf k).early.gnsFrom ∧
          (t.collOf k).early.gnsSmall = BitVec.ofNat 64 (dAdd x.early.gnsSmall.toNat a) ∧
          (t.collOf k).early.gnsBig = BitVec.ofNat 64 (dAdd x.early.gnsBig.toNat b))) ∧
    (s.collNamed r = none → s.collNext r = some k → r.target = 0 →
      let x := s.collOf k
      (completes (.mioderCollDone r) s fun t => respondedTo t r.assoc r.reqId .ok [] ∧ t.mem = s.mem ∧ (t.collOf k).now = x.now ∧
        s.peerOf r ∈ (t.collOf k).early.done) ∧
      (∀ st, r.data = leBytes 2 (statusCode st) → completes (.mioderCollAbort r) s fun t => respondedTo t r.assoc r.reqId .ok [] ∧
        t.mem = s.mem ∧ (t.collOf k).now = x.now ∧ (t.collOf k).early.aborted = some st)) ∧
    (s.collNamed r = none → s.collNext r = none → r.target = 0 → completes (.mioderCollDone r) s fun t =>
      respondedTo t r.assoc r.reqId .gone [] ∧ t.coll = s.coll ∧ t.mem = s.mem) ∧
    (s.collById (fld r.aux 31 0) = some k →
      let x := s.collOf k
      (∀ digest, x.now = none → completes (.mioderCollReady ⟨r, digest⟩) s fun t => s.peerOf r ∈ (t.collOf k).early.ready ∧
        (∀ e ∈ x.early.ready, e ∈ (t.collOf k).early.ready) ∧ (digest ≠ [] → Tab.get [] (t.collOf k).digests (s.peerOf r) = digest) ∧
        t.mem = s.mem ∧ respondedTo t r.assoc r.reqId .ok []) ∧
      (∀ digest y, x.now = some y → x.run.toNat % 65536 = fld r.aux 47 32 → x.mySrcs s.me = [] → x.op ≠ opAllReduce → s.mapStays k →
        x.disagrees = false → digest = [] ∨ digest = x.digest →
        completes (.mioderCollReady ⟨r, digest⟩) s fun t => (∃ z, (t.collOf k).now = some z ∧ s.peerOf r ∈ z.ready) ∧ t.mem = s.mem ∧
          respondedTo t r.assoc r.reqId .ok []) ∧
      (∀ digest, x.now.isSome = true → x.run = 0 → digest ≠ [] → digest ≠ x.digest → s.endsAlone k →
        completes (.mioderCollReady ⟨r, digest⟩) s fun t => (t.collOf k).now = none ∧
          (t.collOf k).lastStatus = BitVec.ofNat 16 (statusCode .badParam) ∧ tells s t kCollective 0 ∧
          respondedTo t r.assoc r.reqId .ok []))

/-- Transitions and chains: the phase word loses EXPECT; the phase is entered once every run of the list is over, a run in progress is
waited for, and the next run begins at order 1. A chunk held reaches the other ranks here and the next device that is ready; it is
verified by its digest, fetched again once, and a second failure ends the run (R346, R347, R351 to R353). -/
def Obligations.TransitionsAndChains : Prop :=
  ∀ (s : State),
    (∀ m : Fin 16,
      let x := s.mapping m.val
      let a := fld x.record 127 64
      let n := fld x.record 159 128
      let todo : List (BitVec 32) := nth [] x.lists (phaseNo x.phase)
      let on : Mapping := { x with transition := true, stopped := false, todo := todo }
      (x.valid = true → x.transition = false → n ≤ s.num a 8 → s.writeStatus .unit a 8 = none →
        (todo = [] → completes (.phaseTransitionStart m) s fun t => (t.mapping m.val).phase = nextPhase x.phase ∧
          (t.mapping m.val).transition = false ∧ tells s t kCollective (fld x.record 165 160) ∧ t.num a 8 = s.num a 8 - n ∧
          sameOutside s t a 8) ∧
        (∀ id l, todo = id :: l →
          (∀ k, s.collById id.toNat = some k → (s.collOf k).now.isSome = true → completes (.phaseTransitionStart m) s fun t =>
            t.num a 8 = s.num a 8 - n ∧ sameOutside s t a 8 ∧ t.mapping m.val = on ∧ t.coll.colls = s.coll.colls) ∧
          (∀ k, s.collById id.toNat = some k → (s.collOf k).now = none → (s.collOf k).isVersioned = false →
            (s.collOf k).mySrcs s.me = [] → (s.collOf k).op ≠ opAllReduce → (s.collOf k).disagrees = false →
            (∀ d ∈ s.collOthers k, (s.upAssoc d).isSome = true) → completes (.phaseTransitionStart m) s fun t =>
              t.num a 8 = s.num a 8 - n ∧ sameOutside s t a 8 ∧ t.mapping m.val = on ∧
              (∃ r, (t.collOf k).now = some r ∧ r.byTransition = true ∧ r.ready = (s.collOf k).early.ready) ∧
              ∀ d ∈ s.collOthers k, ∃ q ∈ s.mio.assocs, q.2.state = .up ∧ q.2.peer.toNat = d ∧ ∃ p ∈ (t.assoc q.1).kept,
                p.purpose = .coll k ∧ p.out.op = 0x41) ∧
          (∀ k, s.collById id.toNat = some k → (s.collOf k).now = none → (∃ d ∈ s.collOthers k, s.upAssoc d = none) →
            (s.collOf k).mapNo = m.val → (s.collOf k).isVersioned = false → completes (.phaseTransitionStart m) s fun t =>
              (t.collOf k).now = none ∧ (t.collOf k).lastStatus = BitVec.ofNat 16 (statusCode .gone) ∧
              t.mapping m.val = { on with stopped := true }) ∧
          (s.collById id.toNat = none → completes (.phaseTransitionStart m) s fun t => t.num a 8 = s.num a 8 - n ∧ sameOutside s t a 8 ∧
            t.mapping m.val = { on with stopped := true } ∧ t.coll.colls = s.coll.colls))) ∧
      (x.valid = false ∨ x.transition = true ∨ s.num a 8 < n → completes (.phaseTransitionStart m) s fun t => t = s)) ∧
    (∀ (k : Fin 256) (r : CollRun) id,
      let x := s.collOf k.val
      let m := s.mapping x.mapNo
      x.now = some r → r.byTransition = true → s.deviceReady k.val = true → r.staged = [] → x.inMap = true → x.measures = false →
      m.transition = true → m.stopped = false → m.todo = [id] → s.collOthers k.val = [] → x.early.aborted = none → r.keptRun = false →
      x.keepable = false → completes (.collDeviceDone k) s fun t => (t.mapping x.mapNo).phase = nextPhase m.phase ∧
        (t.mapping x.mapNo).transition = false ∧ (t.collOf k.val).run = x.run + 1 ∧ tells s t kCollective (fld m.record 165 160)) ∧
    (∀ (k : Fin 256) (r : CollRun),
      let x := s.collOf k.val
      x.now = some r → x.chain = true →
      (let c := r.chunks.length
       let n := x.chunkLen c
       let source := if x.srcDev x.root = s.me then x.src x.root else x.firstDst s.me
       let here := (x.myDsts s.me).filter (fun q => x.dst q != source)
       x.op = opBroadcast → c < x.chunkCount → x.holds s.me c r = true →
       (∀ d, after s.me x.chainDevs = some d → d ≠ s.me ∧ d ∈ r.ready) → s.collWaits permRead (source + chunkAt c) n = false →
       (∀ q ∈ here, s.collWaits permWrite (x.dst q + chunkAt c) n = false) →
        (∀ b u, s.collRead x r.version (source + chunkAt c) n = .ok b →
          s.collWrites k.val (here.map (fun q => (x.dst q + chunkAt c, b))) = .ok u → completes (.chainChunkReceived k) s fun t =>
            (∃ y, (t.collOf k.val).now = some y ∧ y.chunks = r.chunks ++ [c]) ∧ t.mem = u.mem ∧ (here = [] → t.mem = s.mem) ∧
            (∀ q a, here = [q] → s.place true permWrite (x.dst q + chunkAt c) b.length = .here a → t.bytes a b.length = b ∧
              sameOutside s t a b.length) ∧
            ∀ d j, after s.me x.chainDevs = some d → s.upAssoc d = some j →
              ∀ p ∈ putPieces (b.length / (s.assoc j).limit + 2) (s.assoc j).limit (x.firstDst d + chunkAt c).toNat 0 b.length,
                ∃ w ∈ (t.assoc j).kept, w.purpose = .coll k.val ∧ w.out.op = 0x40 ∧
                  w.out.target = x.firstDst d + chunkAt c + BitVec.ofNat 64 p.1 ∧ w.out.data = (b.drop p.1).take p.2) ∧
        (∀ e, s.collRead x r.version (source + chunkAt c) n = .error e → s.endsAlone k.val → completes (.chainChunkReceived k) s fun t =>
          (t.collOf k.val).now = none ∧ (t.collOf k.val).lastStatus = BitVec.ofNat 16 (statusCode e) ∧ tells s t kCollective 0)) ∧
      (x.holds s.me r.chunks.length r = false ∨ (∃ d, after s.me x.chainDevs = some d ∧ d ∉ r.ready) →
        completes (.chainChunkReceived k) s fun t => t = s) ∧
      (∀ (c : Nat) b, x.verify = true → x.srcDev x.root ≠ s.me → c ∈ r.chunks → c ∉ r.verified → s.refetching k.val c = false →
        s.collWaits permRead (x.firstDst s.me + chunkAt c) (x.chunkLen c) = false →
        s.collRead { x with desc := 0 } 0 (x.firstDst s.me + chunkAt c) (x.chunkLen c) = .ok b →
        let good := Config.sha3 b = s.bytes (fld x.desc 831 768 + 640 + 64 * c) 64
        (good → completes (.chunkVerified k c) s fun t => (t.collOf k.val).now = some { r with verified := r.verified ++ [c] } ∧
          t.mem = s.mem) ∧
        (∀ j, ¬good → c ∉ r.refetched → s.upAssoc (x.srcDev x.root) = some j → completes (.chunkVerified k c) s fun t =>
          (t.collOf k.val).now = some { r with refetched := r.refetched ++ [c] } ∧ t.mem = s.mem ∧
          ∀ p ∈ putPieces (x.chunkLen c / (s.assoc j).limit + 2) (s.assoc j).limit (x.src x.root + chunkAt c).toNat 0 (x.chunkLen c),
            ∃ w ∈ (t.assoc j).kept, w.purpose = .chunk k.val c ∧ w.out.op = 0x02 ∧
              w.out.target = x.src x.root + chunkAt c + BitVec.ofNat 64 p.1 ∧ w.out.length = p.2) ∧
        (¬good → c ∈ r.refetched → s.endsAlone k.val → completes (.chunkVerified k c) s fun t => (t.collOf k.val).now = none ∧
          (t.collOf k.val).lastStatus = BitVec.ofNat 16 (statusCode .integrity) ∧ tells s t kCollective 0)) ∧
      (∀ c : Nat, x.verify = false ∨ c ∈ r.verified ∨ c ∉ r.chunks → completes (.chunkVerified k c) s fun t => t = s))

/-- The device number, ports and associations by command: set while nothing is open, configured and retrained, opened as OPENING with a
slot, closed, given new keys (R300, R303, R313, R324 to R327, R329). -/
def Obligations.FabricAndAssociationCommands : Prop :=
  ∀ (s : State) (h : Hdr) (k : BitVec 32),
    (∀ d, s.admits h 0x0401 → s.noAssoc = true → answered (.fabricSetId h d) s h 0x0401 false [] fun t =>
      t.mio.deviceNumber = d ∧ t.mio.devSet = true ∧ t.mem = s.mem ∧ t.cores = s.cores ∧ t.mio.ports = s.mio.ports) ∧
    (∀ v, s.admits h 0x0402 → k.toNat < 4 → (s.port k.toNat).takes v = true → answered (.portConfigure h k v) s h 0x0402 false [] fun t =>
      let off := subsOff (fld v 1 0) (s.port k.toNat).laneBad
      (t.port k.toNat).mode = BitVec.ofNat 2 (fld v 1 0) ∧ (t.port k.toNat).linkUp = 0 ∧ (t.port k.toNat).subOff = off ∧
      (t.port k.toNat).training = subsOf (fld v 1 0) &&& ~~~off ∧ (t.port k.toNat).laneBad = (s.port k.toNat).laneBad ∧ t.mem = s.mem ∧
      ∀ j, j ≠ k.toNat → t.port j = s.port j) ∧
    (∀ ip, s.admits h 0x0403 → ip ≠ [] → ip.length ≤ 2 →
      (k.toNat < 32 → answered (.portAddress h k ip) s h 0x0403 false [] fun t =>
        Tab.get [] (t.port (k.toNat / 8)).addrs (k.toNat % 8) = ip ∧ ∀ j, j ≠ k.toNat / 8 → t.port j = s.port j) ∧
      (k.toNat = 32 → answered (.portAddress h k ip) s h 0x0403 false [] fun t => t.mio.mgmtAddrs = ip ∧ t.mio.ports = s.mio.ports)) ∧
    (∀ (d : BitVec 16) ip (kc : W64) nq j n, s.admits h 0x0410 → asyncQueue nq → s.freeSlot = some n →
      s.mio.devSet = true → ip ≠ [] → ip.length ≤ 8 → kc.toNat ≤ 0xFFFF → d ≠ s.mio.deviceNumber → s.openIndex d = .ok j →
      answered (.assocOpen h d ip kc nq) s h 0x0410 true (slotFields s n) fun t => claimed s t n h 0x0410 nq (.assoc j) ∧
        (t.assoc j).state = .opening ∧ (t.assoc j).peer = d ∧ (t.assoc j).addrs = ip ∧ (t.assoc j).keyClass = kc.setWidth 16 ∧
        (t.assoc j).slot = some n ∧ (t.assoc j).hsSent = decide (s.upSubs ≠ [] ∧ s.me < d.toNat) ∧ t.mem = s.mem ∧
        (∀ p ∈ (t.assoc j).paths, Out.probe j p.1 4096 ∈ t.out) ∧
        ∀ i, i ≠ j → t.assoc i = s.assoc i) ∧
    (k.toNat < 16384 →
      let a := s.assoc k.toNat
      (s.admits h 0x0411 → a.state = .opening → answered (.assocClose h k) s h 0x0411 false [] fun t => (t.assoc k.toNat).state = .free ∧
        t.mem = s.mem ∧ ∀ n, a.slot = some n → (t.slot n).ended = true ∧ (t.slot n).status = .reset) ∧
      (s.admits h 0x0411 → a.state = .up → a.kept = [] → s.coll.colls = [] → s.mio.migration = none →
        answered (.assocClose h k) s h 0x0411 false [] fun t => (t.assoc k.toNat).state = .free ∧ t.mem = s.mem ∧ t.cores = s.cores ∧
          ∀ i, i ≠ k.toNat → t.assoc i = s.assoc i) ∧
      (s.admits h 0x0411 → a.state = .down → answered (.assocClose h k) s h 0x0411 false [] fun t => (t.assoc k.toNat).state = .free ∧
        t.mem = s.mem ∧ ∀ i, i ≠ k.toNat → t.assoc i = s.assoc i) ∧
      (s.admits h 0x0412 → a.state = .up → a.rekeying = false → answered (.assocRekey h k) s h 0x0412 false [] fun t =>
        (t.assoc k.toNat).rekeying = true ∧ (t.assoc k.toNat).txPhase = !a.txPhase ∧ (t.assoc k.toNat).txCounter = 0 ∧
        (t.assoc k.toNat).rxKey = a.rxKey ∧ ∀ i, i ≠ k.toNat → t.assoc i = s.assoc i) ∧
      (s.admits h 0x0413 → answered (.assocDescribe h k) s h 0x0413 false [.data a.describe] fun t => sameButReplies s t))

/-- The exchange of an association: an INIT that holds is answered with RESP; a RESP and a FINISH whose signatures hold bring it UP under
the keys of the transcript; what fails ends the open with DENIED, is counted and reported (R393, R397, R399, R417). -/
def Obligations.AssociationHandshake : Prop :=
  ∀ (s : State) (k : AssocNo) (src : BitVec 14) (id : BitVec 32) (reduced : Bool), (s.assoc k.val).state = .opening →
    let a := s.assoc k.val
    let failed (t : State) : Prop := (t.assoc k.val).state = .free ∧ t.sec.handshakeFails = satInc s.sec.handshakeFails ∧
      tells s t kSecurity 0 ∧ t.mem = s.mem ∧ t.out = s.out ++ [Out.handshake k.val (.abort id .denied)] ∧
      ∀ n, a.slot = some n → (t.slot n).ended = true ∧ (t.slot n).status = .denied
    let up (t : State) (tx rx : List Byte) : Prop := (t.assoc k.val).state = .up ∧ (t.assoc k.val).txKey = tx ∧ (t.assoc k.val).rxKey = rx ∧
      (t.assoc k.val).mtu1k = reduced ∧ (reduced = true → ∀ p ∈ a.paths, Out.probe k.val p.1 1024 ∈ t.out) ∧ tells s t kLink 0 ∧
        t.mem = s.mem ∧ (∀ j, j ≠ k.val → t.assoc j = s.assoc j) ∧
      ∀ n, a.slot = some n → (t.slot n).ended = true ∧ (t.slot n).status = .ok
    (∀ c i, a.peer.toNat < s.me → HsInit.of c = some i → i.mode = 0 → i.device = a.peer.toNat → i.bare = false → i.key.isSome = true →
      s.namedHost a.peer = false → completes (.assocHandshake k (.init src id c) reduced) s fun t => (t.assoc k.val).state = .opening ∧
        (t.assoc k.val).hsInit = c ∧ (t.assoc k.val).hsId = id ∧ (t.assoc k.val).peerAssoc = src ∧
        t.out = s.out ++ [Out.handshake k.val (.resp (BitVec.ofNat 14 k.val) id (t.assoc k.val).hsResp)] ∧ t.mem = s.mem) ∧
    (∀ c, a.peer.toNat < s.me → HsInit.of c = none → completes (.assocHandshake k (.init src id c) reduced) s failed) ∧
    (∀ c r key host ss x, a.hsSent = true → a.hsId = id → HsResp.of c = some r → s.respKey r.cred = some (key, host) →
      Config.kemDecap a.hsSecret r.ct = some ss → s.hsBind a.peer a.conf = some x →
      let good := Config.dsaVerify key (hsRDigest a.hsInit r.body) r.sig
      let keys := assocKeys ss (transcript a.hsInit c) x
      (good = true → completes (.assocHandshake k (.resp src id c) reduced) s fun t => up t (keys.take 36) (keys.drop 36) ∧
        (t.assoc k.val).hostPeer = host ∧ (t.assoc k.val).peerAssoc = src ∧
        ∃ l, t.out = s.out ++ Out.handshake k.val (.finish (BitVec.ofNat 14 k.val) id (devSigned (hsIDigest a.hsInit c))) :: l ∧
          (reduced = false → l = [])) ∧
      (good = false → completes (.assocHandshake k (.resp src id c) reduced) s failed)) ∧
    (∀ sig i key x, a.hsResp ≠ [] → a.hsId = id → HsInit.of a.hsInit = some i → i.key = some key → s.hsBind a.peer a.conf = some x →
      let good := Config.dsaVerify key (hsIDigest a.hsInit a.hsResp) sig
      let keys := assocKeys a.hsSecret (transcript a.hsInit a.hsResp) x
      (good = true → completes (.assocHandshake k (.finish src id sig) reduced) s fun t => up t (keys.drop 36) (keys.take 36)) ∧
      (good = false → completes (.assocHandshake k (.finish src id sig) reduced) s failed)) ∧
    (∀ st, a.hsInit ≠ [] → a.hsId = id → completes (.assocHandshake k (.abort id st) reduced) s fun t => (t.assoc k.val).state = .free ∧
      t.mem = s.mem ∧ t.sec.handshakeFails = s.sec.handshakeFails ∧
      ∀ n, a.slot = some n → (t.slot n).ended = true ∧ (t.slot n).status = st)

/-- Productions by command: a load claims its slot, RUN starts and STOP stops the Cores that can be, an unload takes out what was loaded
and raises MEAS_GEN, a list names them; a load that fails a check changes nothing but its slot (R379 to R381, R403). The end of a load:
the index and PID and a new measurement generation; a bad header, an unknown publisher or a bad signature end it with BAD_PARAM or DENIED
and change nothing but the slot (R372, R379, R380, R403). -/
def Obligations.Productions : Prop :=
  (∀ (s : State) (h : Hdr) (k : BitVec 32),
     (∀ a x (n : W64) nq j, s.admits h 0x0200 → asyncQueue nq → s.freeSlot = some j → devAddr a = some x → n ≠ 0 →
       (∃ r, spanRegion x n.toNat = some r ∧ r ≠ .registers) → answered (.productionLoad h a n nq) s h 0x0200 true (slotFields s j) fun t =>
         claimed s t j h 0x0200 nq (.production 0 x n.toNat) ∧ t.cores = s.cores ∧ t.mem = s.mem ∧ t.sec = s.sec) ∧
     (∀ p u cs, s.prod k = some p → s.prodUnit p u = .ok cs →
       (s.admits h 0x0201 → answered (.productionRun h k u) s h 0x0201 false
         [.count (BitVec.ofNat 32 (cs.filter (fun c => (s.core c).startable)).length)] fun t => t.mem = s.mem ∧
           ∀ c, t.core c = if c ∈ cs ∧ (s.core c).startable = true then (s.core c).runStart else s.core c) ∧
       (s.admits h 0x0202 → answered (.productionStop h k u) s h 0x0202 false [] fun t => t.mem = s.mem ∧
         ∀ c, t.core c = if c ∈ cs ∧ (s.core c).running = true ∧ (s.core c).open = true then (s.core c).runStop else s.core c)) ∧
     (∀ p, s.admits h 0x0203 → s.prod k = some p → s.prodBusy p = false → p.shards = [] →
       answered (.productionUnload h k) s h 0x0203 false []
       fun t => t.prod k = none ∧ t.sec.measGen = s.sec.measGen + 1 ∧ t.mem = s.mem ∧ (∀ c ∈ p.cores, (t.core c).p.cues = []) ∧
         (∀ c, c ∉ p.cores → t.core c = s.core c) ∧ (∀ e, (t.ensemble e).defined = ((s.ensemble e).defined && !p.ensembles.contains e)) ∧
         ∀ j, (t.collOf j).posted = ((s.collOf j).posted && !p.colls.contains j)) ∧
     (s.admits h 0x0204 → answered (.productionList h) s h 0x0204 false
       [.data ((s.cur.prods.map (fun p => leBytes 4 p.1 ++ leBytes 8 p.2.pid.toNat ++ p.2.digest)).flatten)] fun t => sameButReplies s t)) ∧
  (∀ (s : State) (k : Fin 1024) (a n : Nat) (b : List Byte), (s.slot k.val).state = .pending → (s.slot k.val).work = .production 0 a n →
     s.readMem .unit a n = .ok b → s.loadHeld b = false →
     (∀ i pid t0, s.prodLoad b = .ok (i, pid, t0) → (t0.slot k.val).state = .pending → completes (.asyncCommandEnd k .internal) s fun t =>
       (t.slot k.val).state = .ready ∧ (t.slot k.val).status = .ok ∧ (t.slot k.val).fields = [.index (BitVec.ofNat 32 i), .value pid] ∧
       t.cores = t0.cores ∧ t.mem = t0.mem ∧ t.sec = t0.sec ∧ t.cur.prods = t0.cur.prods ∧ ∃ p, t.prod (BitVec.ofNat 32 i) = some p ∧
         p.pid = pid) ∧
     (ProdImage.of b = none → completes (.asyncCommandEnd k .internal) s fun t => readied s t k.val .badParam [] ∧ t.cores = s.cores ∧
       t.mem = s.mem ∧ t.sec = s.sec ∧ t.cur.prods = s.cur.prods) ∧
     (∀ i, ProdImage.of b = some i → s.prodSigned i = false → completes (.asyncCommandEnd k .internal) s fun t =>
       readied s t k.val .denied [] ∧ t.cores = s.cores ∧ t.mem = s.mem ∧ t.sec = s.sec ∧ t.cur.prods = s.cur.prods))

/-- Storage by command: an attachment, a read, a write, a Folio and a checkpoint each claim a slot and ask the storage; a detachment or a
lost connection ends what used it (R372, R382 to R384). -/
def Obligations.StorageCommands : Prop :=
  ∀ (s : State) (h : Hdr) (k nsid : BitVec 32) (lba a : W64) (nq : Option QueueNo) (j : Nat), asyncQueue nq → s.freeSlot = some j →
    (∀ ip l4 nqn (action : BitVec 8), s.admits h 0x0600 → action.toNat ≤ 1 → nqn ≠ [] → nqn.length ≤ 223 →
      s.cur.attach.length < attachments →
      answered (.storeAttach h ip l4 nqn action nq) s h 0x0600 true (slotFields s j) fun t =>
        claimed s t j h 0x0600 nq (.storeAttach ip (l4.getD 4420) nqn (action == 1)) ∧ t.mem = s.mem ∧ t.cur.attach = s.cur.attach) ∧
    (∀ x, s.attachOf k = some x →
      (s.admits h 0x0601 → s.slotsOn k.toNat = [] → answered (.storeDetach h k) s h 0x0601 false [] fun t => t.attachOf k = none ∧
        t.mem = s.mem ∧ t.cur.slots = s.cur.slots) ∧
      (∀ (blocks : BitVec 32) v, s.admits h 0x0602 → vaultSpan a (blocks.toNat * x.block nsid) = some v → blocks ≠ 0 →
        answered (.storeRead h k nsid lba blocks a nq) s h 0x0602 true (slotFields s j) fun t =>
          claimed s t j h 0x0602 nq (.storeRead k.toNat v (blocks.toNat * x.block nsid)) ∧ t.mem = s.mem ∧
          .storage k.toNat false nsid lba blocks.toNat [] ∈ t.out) ∧
      (∀ (n : W64) v b, s.admits h 0x0603 → vaultSpan a n.toNat = some v → n ≠ 0 → n.toNat % x.block nsid = 0 →
        s.readMem .command v n.toNat = .ok b → answered (.storeWrite h k nsid lba a n nq) s h 0x0603 true (slotFields s j) fun t =>
          claimed s t j h 0x0603 nq (.storeWrite k.toNat) ∧ t.mem = s.mem ∧
          .storage k.toNat true nsid lba (n.toNat / x.block nsid) b ∈ t.out) ∧
      (∀ (options : BitVec 32) v, s.admits h 0x0610 → options.toNat ≤ 1 → vaultSpan a 0 = some v → s.freeFolio.isSome = true →
        answered (.folioLoad h k nsid lba a options nq) s h 0x0610 true (slotFields s j) fun t =>
          claimed s t j h 0x0610 nq (.folioLoad k.toNat v (options == 1)) ∧ t.mem = s.mem ∧ t.sec = s.sec) ∧
      (∀ v l t0 w, s.admits h 0x0620 → s.ckptDoor a = none → vaultSpan a 4 = some v → s.ckptList v = .ok l →
        firstFail (l.map s.ckptFault) = none →
        s.ckptWrite k nsid x lba l = (t0, w) → answered (.checkpointWrite h k nsid lba a nq) s h 0x0620 true (slotFields s j) fun t =>
          claimed s t j h 0x0620 nq w ∧ t.mem = s.mem ∧ t.cur.ckptHolds = t0.cur.ckptHolds ∧ (∀ p, p ∈ t0.out → p ∈ t.out)) ∧
      (s.admits h 0x0621 → answered (.checkpointRestore h k nsid lba nq) s h 0x0621 true (slotFields s j) fun t =>
        claimed s t j h 0x0621 nq (.checkpointRestore k.toNat) ∧ t.mem = s.mem)) ∧
    (∀ (i : Fin 16), s.slotsOn i.val = [] → completes (.storeConnectionLost i) s fun t => t.attachOf (BitVec.ofNat 32 i.val) = none ∧
      t.mem = s.mem ∧ t.cores = s.cores ∧ ∀ p ∈ s.cur.attach, p.1 ≠ i.val → p ∈ t.cur.attach) ∧
    (∀ (i : Fin 16) (n : Nat), s.slotsOn i.val = [n] → (s.slot n).state = .pending → completes (.storeConnectionLost i) s fun t =>
      readied s t n .gone [] ∧ t.attachOf (BitVec.ofNat 32 i.val) = none ∧ t.mem = s.mem)

/-- The ends of asynchronous commands: a fill writes its pattern, a transfer that succeeded writes its bytes or makes its attachment, one
that failed ends with its status, a Folio is registered, a checkpoint reports its digest, other work ends with what it left (R372, R382 to
R384, R403). -/
def Obligations.AsyncCommandEnds : Prop :=
  ∀ (s : State) (k : Fin 1024), (s.slot k.val).state = .pending →
    let x := s.slot k.val
    (∀ a n v, x.work = .memFill a n v → s.heldBy a n = none → s.writeStatus .command a n = none →
      completes (.asyncCommandEnd k .internal) s fun t => readied s t k.val .ok [] ∧ t.bytes a n = patternBytes v n ∧ sameOutside s t a n) ∧
    (∀ i a n b, x.work = .storeRead i a n → b.length = n → s.writeStatus .command a n = none →
      completes (.asyncCommandEnd k (.storage .ok b)) s
      fun t => readied s t k.val .ok [] ∧ t.bytes a n = b ∧ sameOutside s t a n) ∧
    (∀ i b, x.work = .storeWrite i → completes (.asyncCommandEnd k (.storage .ok b)) s fun t => readied s t k.val .ok [] ∧ t.mem = s.mem) ∧
    (∀ st b, workStores x.work = true → st ≠ .ok → completes (.asyncCommandEnd k (.storage st b)) s fun t => readied s t k.val st [] ∧
      t.mem = s.mem ∧ t.sec = s.sec ∧ t.cur.attach = s.cur.attach) ∧
    (∀ ip l4 nqn roce b i, x.work = .storeAttach ip l4 nqn roce → freeEntry (s.cur.attach.map (fun p => p.1)) attachments = some i →
      completes (.asyncCommandEnd k (.storage .ok b)) s fun t => readied s t k.val .ok [.index (BitVec.ofNat 32 i)] ∧
        t.attachOf (BitVec.ofNat 32 i) = some { used := true, ip := ip, l4 := l4, nqn := nqn, roce := roce } ∧ t.mem = s.mem) ∧
    (∀ i a only b m f, x.work = .folioLoad i a only → FolioManifest.of b = some m → s.freeFolio = some f → s.folioSigned m = true →
      (vaultSpan (BitVec.ofNat 64 a) m.bytes).isSome = true → only = true → completes (.asyncCommandEnd k (.storage .ok b)) s fun t =>
        readied s t k.val .ok [.index (BitVec.ofNat 32 f), .count (BitVec.ofNat 32 m.chunks.length), .digest m.digest] ∧ t.mem = s.mem ∧
        t.folio f = some { addr := a, bytes := m.bytes, manifest := m.whole, digest := m.digest, manifestOnly := true } ∧
        t.sec.measGen = s.sec.measGen + 1) ∧
    (∀ i a b m f c, x.work = .folioLoad i a false → FolioManifest.of b = some m → s.freeFolio = some f → s.folioSigned m = true →
      (vaultSpan (BitVec.ofNat 64 a) m.bytes).isSome = true → m.verified = some c → s.writeStatus .command a c.length = none →
      completes (.asyncCommandEnd k (.storage .ok b)) s fun t => (t.slot k.val).state = .ready ∧ (t.slot k.val).status = .ok ∧
        t.bytes a c.length = c ∧ sameOutside s t a c.length ∧ t.sec.measGen = s.sec.measGen + 1) ∧
    (∀ i d n l b, x.work = .checkpointWrite i d n l → completes (.asyncCommandEnd k (.storage .ok b)) s fun t =>
      readied s t k.val .ok [.digest d, .bytes (BitVec.ofNat 64 n)] ∧ t.cur.ckptHolds = withoutOnce s.cur.ckptHolds l ∧ t.mem = s.mem) ∧
    (∀ i b t0 n st d, x.work = .checkpointRestore i → s.ckptTake k.val b = some (t0, n, st, d) →
      completes (.asyncCommandEnd k (.storage .ok b)) s fun t => t.mem = t0.mem ∧
        (n = 0 → (t.slot k.val).state = .ready ∧ (t.slot k.val).status = st ∧
          (t.slot k.val).fields = if st = .ok then [.digest d] else []) ∧
        (n ≠ 0 → t.slot k.val = { t0.slot k.val with work := .restoring n st d })) ∧
    (∀ i b, x.work = .checkpointRestore i →
      Config.dsaVerify idPublic (Config.sha3 (CkptManifest.of b).2.1) (CkptManifest.of b).2.2.1 = false →
      completes (.asyncCommandEnd k (.storage .ok b)) s fun t => readied s t k.val .denied [] ∧ t.mem = s.mem) ∧
    (x.ended = true → workStores x.work = false → (∀ i a n, x.work ≠ .production i a n) → (∀ a n v, x.work ≠ .memFill a n v) →
      (∀ st, x.work ≠ .failed st) → completes (.asyncCommandEnd k .internal) s fun t => readied s t k.val x.status x.fields ∧
        t.mem = s.mem) ∧
    (∀ st, x.work = .failed st → completes (.asyncCommandEnd k .internal) s fun t => readied s t k.val st [] ∧ t.mem = s.mem)

/-- Sessions: INIT is answered and held, a FINISH that verifies opens a session of its key's role (a CLAIM writes the OWNER's entry
first), a handshake expires, a session closes with its slots (R363, R366, R374, R394, R395, R398). -/
def Obligations.SessionsOpenAndClose : Prop :=
  ∀ (s : State) (h : Hdr) (id : BitVec 32),
    (∀ b c i, s.admits h 0x0501 → hsInitMessage b = some (id, c) → HsInit.of c = some i → s.cur.sessions.length < 64 →
      (s.sec.handshakes.filter (fun x => x.id != id)).length < 16 → s.modeDenied i.mode h.lane = false →
      answered (.sessionOpenInit h b) s h 0x0501 false [.data (hsHeader 2 id (s.hsRespond i c).1 ++ (s.hsRespond i c).1)] fun t =>
        { id := id, mode := i.mode, lane := h.lane, init := c, resp := (s.hsRespond i c).1, secret := (s.hsRespond i c).2 } ∈ t.sec.handshakes ∧
        t.mem = s.mem ∧ t.sec.measGen = s.sec.measGen ∧ t.cores = s.cores) ∧
    (∀ (x : Hs) key sig role, s.admits h 0x0501 → s.sec.handshakes.find? (fun x => x.id == id) = some x → s.cur.sessions.length < 64 →
      (HsInit.of x.init).bind HsInit.key = some key → s.modeDenied x.mode x.lane = false →
      Config.dsaVerify key (hsIDigest x.init x.resp) sig = true → s.roleOf x.mode (Config.sha3 key) = some role →
      completes (.sessionOpenFinish h id sig) s fun t =>
        let n := s.sessionNumber 66 s.cur.nextSession
        (∃ y ∈ t.cur.sessions, y.number = n ∧ y.role = role ∧ y.isSealed = decide (x.mode ≠ 1) ∧
          y.keys = kdf x.secret (transcript x.init x.resp) lSess 72) ∧ (∀ y ∈ t.sec.handshakes, y.id ≠ id) ∧
        (∃ r, t.out = s.out ++ [.reply h.lane r] ∧ r.status = .ok ∧ r.session = n ∧ r.tag = h.tag) ∧ t.mem = s.mem ∧
        (x.mode = 3 → t.cred 0 = { kind := 1, digest := Config.sha3 key, key := key } ∧ t.sec.measGen = s.sec.measGen + 1 ∧
          tells s t kSecurity 0) ∧
        (x.mode ≠ 3 → t.sec.creds = s.sec.creds ∧ t.sec.measGen = s.sec.measGen)) ∧
    (completes (.handshakeExpire id) s fun t => (∀ y ∈ t.sec.handshakes, y.id ≠ id) ∧ (∀ y ∈ s.sec.handshakes, y.id ≠ id →
      y ∈ t.sec.handshakes) ∧
      t.cur = s.cur ∧ t.mem = s.mem) ∧
    (s.sec.hostConf = false →
      let closed (t : State) (n : BitVec 32) : Prop := t.session n = none ∧ t.mem = s.mem ∧
        (∀ p ∈ t.cur.slots, p.2.session = n → p.2.state = .abandoned ∨ p.2.state = .free) ∧
        (∀ p ∈ s.cur.slots, p.2.session ≠ n → p ∈ t.cur.slots)
      (s.admits h 0x0502 → h.session ≠ 0 → answered (.sessionClose h) s h 0x0502 false [] fun t => closed t h.session) ∧
      (∀ n, (s.session n).isSome = true → (completes (.sessionIdleTimeout n) s fun t => closed t n ∧
          ∀ y ∈ s.cur.sessions, y.number ≠ n → y ∈ t.cur.sessions) ∧
        (completes (.sessionCounterClose n) s fun t => closed t n ∧ ∀ y ∈ s.cur.sessions, y.number ≠ n → y ∈ t.cur.sessions)))

/-- Reports, content keys and Folios: a report is answered and kept, at most 200 in a second; a key is released only where every check of
R410 holds, a denial is counted and reported; decryption opens the Folio, its removal zeroes its region (R401, R403, R405, R406, R410,
R411, R417). -/
def Obligations.ReportsAndFolios : Prop :=
  ∀ (s : State) (h : Hdr),
    (∀ nonce (options : BitVec 32), s.admits h 0x0500 → 32 ≤ nonce.length → nonce.length ≤ 64 → options.toNat ≤ 1 → s.attestsNow < 200 →
      let p := Config.cbor (s.claims nonce (options == 1))
      answered (.attest h nonce options) s h 0x0500 false [.data (Config.cose idSeed p), .value s.sec.measGen] fun t =>
        { nonce := nonce, digest := Config.sha3 p, measGen := s.sec.measGen } ∈ t.sec.reports ∧ t.sec.reports.length ≤ 64 ∧
        t.sec.attestCount = s.attestsNow + 1 ∧ t.mem = s.mem ∧ t.sec.measGen = s.sec.measGen) ∧
    (∀ (k : BitVec 32) b r, s.admits h 0x0510 → WrapRec.of b = some r →
      (∀ f key, s.release k.toNat r = .ok (f, key) → answered (.folioKey h k b) s h 0x0510 false [] fun t =>
        t.folio k.toNat = some { f with state := .decrypting, key := some key } ∧ tells s t kSecurity 0 ∧ t.mem = s.mem ∧
        t.sec.keyDenials = s.sec.keyDenials) ∧
      (∀ e, s.release k.toNat r = .error e → completes (.folioKey h k b) s fun t => t.sec.folios = s.sec.folios ∧
        t.sec.keyDenials = satInc s.sec.keyDenials ∧ tells s t kSecurity 0 ∧ t.mem = s.mem ∧
        ∃ p, t.out = s.out ++ [.reply h.lane p] ∧ p.status = e ∧ p.tag = h.tag)) ∧
    (∀ (k : Fin 32) f key, s.folio k.val = some f → f.state = .decrypting → f.key = some key → completes (.folioDecryptDone k) s fun t =>
      t.folio k.val = some { f with state := .opened, key := none } ∧ tells s t kSecurity 0 ∧ sameOutside s t f.addr f.bytes ∧
      t.mem = (s.poke f.addr (ctrBlocks key 0 (chunksOf (f.bytes + 1) 16 (s.bytes f.addr f.bytes)))).mem) ∧
    (∀ (k : BitVec 32) f, s.admits h 0x0611 → s.folio k.toNat = some f → answered (.folioUnload h k) s h 0x0611 false [] fun t =>
      t.folio k.toNat = none ∧ t.sec.measGen = s.sec.measGen + 1 ∧ (∀ a, f.addr ≤ a → a < f.addr + f.bytes → Memory.get t.mem a = 0) ∧
      sameOutside s t f.addr f.bytes ∧ (f.state ≠ .registered → tells s t kSecurity 0))

/-- A reset of a hardware unit of this device closes the doors of its Cores; one that a reset of its scope or a wider one holds already is
answered and has no effect; a peer's request does the same (R308, R430, R431, R435). A reset goes on to its end: quiesced, its engines'
jobs over and its wipe begun; wiped, its spans zero; its doors open on idle Cores with their generations as they were (R53, R294, R430,
R434, R435). -/
def Obligations.ResetDoors : Prop :=
  (∀ (s : State) (u : UnitName) (r : URef), nameRef u = some r → s.isHere u = true → (∀ e, r ≠ .ensemble e) →
     (∀ c ∈ r.leaves, (s.core c).quiet) →
     (∀ h (options : BitVec 32), s.admits h 0x0900 → options.toNat ≤ 1 →
       (s.resetCovers r = false → answered (.reset h u options) s h 0x0900 false [] fun t => doorsClose s t r (options == 1)) ∧
       (s.resetCovers r = true → answered (.reset h u options) s h 0x0900 false [] fun t => sameButReplies s t)) ∧
     (∀ q : MioReq, s.takes q.assoc q.counter q.phase q.psn q.path → BitVec.ofNat 48 (fld q.target 47 0) = u → mioBad q 0x08 = false →
       fld q.aux 3 0 = 0 → s.cur.phase = .ready → s.resetCovers r = false → completes (.mioderUnitReset q) s fun t =>
         doorsClose s t r false ∧ respondedTo t q.assoc q.reqId .ok [])) ∧
  (∀ (s : State) (k : Nat) (r : ResetOp), s.cur.resets[k]? = some r →
     (r.quiesced = false → (∀ t ∈ r.troupes, (s.engine t).jobs = []) → completes (.resetQuiesced k) s fun t =>
       t.cur.resets[k]? = some { r with quiesced := true } ∧ t.mem = s.mem ∧ t.cores = s.cores ∧
       (∀ e ∈ r.troupes, (t.engine e).running = none ∧ (t.engine e).slots = []) ∧
       (r.wipe = true → r.wiped = false → ∀ c ∈ r.cores, stageOfCore c < 4 → (t.stage (stageOfCore c)).wiping = true)) ∧
     (r.quiesced = true → r.wipe = true → r.wiped = false → s.coll.colls = [] → completes (.wipeEnd k) s fun t =>
       t.cur.resets[k]? = some { r with wiped := true } ∧ t.cores = s.cores ∧
       (∀ x ∈ r.spans, ∀ a, x.1 ≤ a → a < x.1 + x.2 → Memory.get t.mem a = 0) ∧
       (∀ a, (∀ x ∈ r.spans, a < x.1 ∨ x.1 + x.2 ≤ a) → Memory.get t.mem a = Memory.get s.mem a)) ∧
     (r.quiesced = true → (r.wipe = true → r.wiped = true) → s.cur.resets.any r.under = false → completes (.doorOpen k) s fun t =>
       t.cur.resets = s.cur.resets.eraseIdx k ∧ t.mem = s.mem ∧ tells s t kReset (s.queueOf r.ref) ∧
       (∀ c ∈ r.cores, (∀ q ∈ s.cur.resets.eraseIdx k, q.coversCore c = false) → (t.core c).inReset = false ∧
         (t.core c).resetGen = (s.core c).resetGen ∧ ((s.core c).dark = false → (t.core c).p.state = .idle)) ∧
       (∀ c, c ∉ r.cores → t.core c = s.core c) ∧ t.sec.measGen = s.sec.measGen))

/-- Power and pins: what ends operation and with which cause, what a trip latches, how a cold start begins, and what only marks a fault;
flash and fuses outlast each (R420, R445, R447, R448, R453, R455, R458, R465). -/
def Obligations.PowerAndPins : Prop :=
  ∀ (s : State),
    let kept (t : State) : Prop := t.flash.fuseCat = s.flash.fuseCat ∧ t.flash.moduleCat = s.flash.moduleCat ∧
      t.flash.runtimeCat = s.flash.runtimeCat ∧ t.flash.calPage = s.flash.calPage ∧ t.sec.creds = s.sec.creds ∧
      t.sec.secVersion = s.sec.secVersion
    let off (t : State) (cause : Nat) : Prop := t.mod.power = .off ∧ t.flash.lastOffCause = BitVec.ofNat 8 cause ∧ kept t ∧
      t.cur.sessions = [] ∧ t.cores = [] ∧ t.cur.slots = []
    let begun (t : State) (straps : BitVec 6) : Prop := t.mod.power = .on ∧ t.cur.phase = .curator ∧ t.mod.slotId = straps ∧
      t.flash.coldStarts = satInc s.flash.coldStarts ∧ kept t ∧ t.cur.sessions = []
    (s.mod.power ≠ .off → completes .modEnLow s fun t => off t 0 ∧ t.mod.modEn = false ∧ t.mod.tripped = false) ∧
    (s.mod.power = .off → completes .modEnLow s fun t => t = { s with mod := { s.mod with modEn := false, tripped := false } }) ∧
    (s.mod.power = .on → completes .modRstNLow s fun t => t.mod.power = .held ∧ t.mod.modRstN = false ∧ t.mod.pwrOk = s.mod.pwrOk ∧
      t.flash.lastOffCause = 5 ∧ kept t ∧ t.cur.sessions = []) ∧
    (s.mod.power = .off → completes .modRstNLow s fun t => t = { s with mod := { s.mod with modRstN := false } }) ∧
    (∀ high, s.mod.power ≠ .off → completes (.inputOutOfRange high) s fun t => off t (if high then 2 else 1)) ∧
    (∀ straps, s.mod.power = .off → s.mod.modEn = true → s.mod.tripped = false →
      (s.mod.modRstN = true → completes (.inputRecovered straps) s fun t => begun t straps) ∧
      (s.mod.modRstN = false → completes (.inputRecovered straps) s fun t => t = { s with mod := { s.mod with power := .held, pwrOk := true } })) ∧
    (∀ straps, s.mod.power = .held ∨ (s.mod.power = .off ∧ s.mod.modEn = false ∧ s.mod.tripped = false) →
      completes (.coldStart straps) s fun t => begun t straps ∧ t.mod.modEn = true ∧ t.mod.modRstN = true) ∧
    (s.mod.power = .on → s.mod.flow.toNat < 1000 → completes .flowShutdown s fun t => off t 4 ∧ t.mod.tripped = true) ∧
    (s.mod.power ≠ .off → completes .thermalTrip s fun t => off t 3 ∧ t.mod.tripped = true ∧
      t.flash.thermalTrips = satInc s.flash.thermalTrips) ∧
    (s.mod.power = .on → s.mod.bladeFault = false → completes .bladeLost s fun t => t.mod = { s.mod with bladeFault := true } ∧
      t.mem = s.mem ∧ t.cores = s.cores ∧ t.cur = s.cur) ∧
    (∀ rail : Fin 6, (s.mod.power = .on → completes (.remoteSenseOpen rail) s fun t => bitOf t.mod.senseFallback.toNat rail.val = true ∧
        t.mem = s.mem ∧ t.cores = s.cores ∧
        ∀ j : Fin 6, j ≠ rail → bitOf t.mod.senseFallback.toNat j.val = bitOf s.mod.senseFallback.toNat j.val) ∧
      (completes (.remoteSenseRestored rail) s fun t => bitOf t.mod.senseFallback.toNat rail.val = false ∧ t.mem = s.mem ∧
        ∀ j : Fin 6, j ≠ rail → bitOf t.mod.senseFallback.toNat j.val = bitOf s.mod.senseFallback.toNat j.val)) ∧
    (∀ k : Fin 16, (s.mod.power = .on → completes (.sensorOpen k) s fun t => bitOf t.mod.sensorOpen.toNat k.val = true ∧ t.mem = s.mem ∧
        t.mod.junction k.val = 1050 ∧ ∀ j : Fin 16, j ≠ k → t.mod.junction j.val = s.mod.junction j.val) ∧
      (completes (.sensorRestored k) s fun t => bitOf t.mod.sensorOpen.toNat k.val = false ∧ t.mem = s.mem ∧
        t.mod.junction k.val = nth 0 s.mod.tj k.val ∧ ∀ j : Fin 16, j ≠ k → t.mod.junction j.val = s.mod.junction j.val))

/-- The governor: a sample moves every rail by one step inside its limits, down while the cap in force is passed, a junction is too hot or
its sensor is open; the sensors' offsets are added, the model's choice of log entry 65, and zero where the page failed; the limited states
follow; low flow lowers the cap; telemetry is written at its period (R385, R386, R448, R455, R457, R458). The module by command: cap and
rail limits inside their bounds, telemetry read and streamed, the Calibration page read and written whole after its checks, the Condition
report captured and read (R385, R386, R403, R461 to R464, R466, R467). -/
def Obligations.GovernorAndModuleCommands : Prop :=
  (∀ (s : State), s.mod.power = .on →
     (∀ g : PowerSample, completes (.governorSample g) s fun t => t.mod.pinW = g.pinW ∧ t.mod.tj = s.junctions g.tj ∧
       (s.mod.calValid = false → t.mod.tj = g.tj) ∧ t.mod.vinMv = g.vinMv ∧
       (∀ st, st < 4 → (t.stage st).railMv.toNat = (s.stage st).railNext t.mod st ∧ (t.stage st).railMax = (s.stage st).railMax ∧
         ((s.stage st).railMin.toNat ≤ (s.stage st).railMax.toNat →
           (s.stage st).railMin.toNat ≤ (t.stage st).railMv.toNat ∧ (t.stage st).railMv.toNat ≤ (s.stage st).railMax.toNat) ∧
         (t.mod.openOn st = true → (s.stage st).railMin.toNat ≤ (s.stage st).railMax.toNat →
           (t.stage st).railMv.toNat = (s.stage st).railMin.toNat)) ∧
       (t.mod.capLimited = true ↔ t.mod.cap ≤ g.pinW.toNat ∧ ∃ st, st < 4 ∧ (t.stage st).railMv.toNat < (t.stage st).railMax.toNat) ∧
       (t.mod.thermalLimited = true ↔ ∃ st, st < 4 ∧ t.mod.hot st = true ∧ (t.stage st).railMv.toNat < (t.stage st).railMax.toNat) ∧
       t.mem = s.mem ∧ t.cores = s.cores) ∧
     (∀ v : BitVec 16, completes (.flowRead v) s fun t => t.mod.flow = v ∧ (t.mod.flowLow = true ↔ v.toNat < 3600) ∧ t.mem = s.mem ∧
       t.cores = s.cores ∧ (v.toNat < 3600 → t.mod.cap ≤ 650 * v.toNat / 1000)) ∧
     (∀ a, s.mod.telemetryUs ≠ 0 → s.activating = false → s.place true permWrite s.mod.telemetryAddr s.telemetry.length = .here a →
       s.writeStatus .unit a s.telemetry.length = none → s.heldBy a s.telemetry.length = none → completes .telemetryPeriod s fun t =>
         t.bytes a s.telemetry.length = s.telemetry ∧ sameOutside s t a s.telemetry.length ∧ t.cores = s.cores) ∧
     (s.mod.telemetryUs ≠ 0 → s.activating = false → s.writeHeld s.mod.telemetryAddr s.telemetry.length = true → completes .telemetryPeriod s
       fun t => t = { s with mio := { s.mio with heldWrites := s.mio.heldWrites ++ [(s.mod.telemetryAddr, s.telemetry)] } })) ∧
  (∀ (s : State) (h : Hdr),
     (∀ v : W64, s.admits h 0x0800 → 1200 ≤ v.toNat → v.toNat ≤ 2400 → answered (.powerCapSet h v) s h 0x0800 false [] fun t =>
       t.mod = { s.mod with powerCapW := v.setWidth 12 } ∧ t.mem = s.mem) ∧
     (∀ (st : BitVec 32) (v : W64), s.admits h 0x0801 → st.toNat < 4 → 600 ≤ fld v 15 0 → fld v 31 16 ≤ 850 → fld v 15 0 ≤ fld v 31 16 →
       fld v 63 32 = 0 → answered (.railLimits h st v) s h 0x0801 false [] fun t => (t.stage st.toNat).railMin.toNat = fld v 15 0 ∧
         (t.stage st.toNat).railMax.toNat = fld v 31 16 ∧ (t.stage st.toNat).railMv = (s.stage st.toNat).railMv ∧
         ∀ j, j ≠ st.toNat → t.stage j = s.stage j) ∧
     (s.admits h 0x0802 → answered (.telemetryRead h) s h 0x0802 false [.data s.telemetry] fun t => sameButReplies s t) ∧
     (∀ a v : W64, s.admits h 0x0803 → (v = 0 ∨ (1000 ≤ v.toNat ∧ v.toNat ≤ 10000000)) →
       answered (.telemetryStream h a v) s h 0x0803 false []
       fun t => t.mod = { s.mod with telemetryAddr := a, telemetryUs := v.toNat } ∧ t.mem = s.mem) ∧
     (∀ (offset bytes : Option W64), s.admits h 0x0A00 → (bytes.getD 8192).toNat ≤ 8192 → answered (.calRead h offset bytes) s h 0x0A00 false
       [.data ((s.flash.calPage.drop (offset.getD 0).toNat).take (bytes.getD 8192).toNat)] fun t => sameButReplies s t) ∧
     (∀ data, s.admits h 0x0A01 → s.flash.pageOk data = true → calReservedZero data = true → answered (.calWrite h data) s h 0x0A01 false []
       fun t => t.flash.calPage = calStored s.flash.calPage data ∧ t.sec.measGen = s.sec.measGen + 1 ∧ t.mod = s.mod ∧ t.mem = s.mem) ∧
     (s.admits h 0x0F10 → answered (.conditionCapture h) s h 0x0F10 false [] fun t => t.flash.condition.isSome = true ∧ t.mem = s.mem ∧
       t.flash.calPage = s.flash.calPage ∧ t.cores = s.cores) ∧
     (∀ (offset bytes : W64) r, s.admits h 0x0F11 → bytes.toNat ≤ 16384 → s.flash.condition = some r →
       answered (.conditionRead h offset bytes) s h 0x0F11 false [.data ((r.drop offset.toNat).take bytes.toNat)] fun t => sameButReplies s t))

/-- The phases of bring-up: each ends as it should or stops with its number and status; MEMORY leaves the Vault zero and the ports in mode
1, or in mode 3 where a lane is bad; READY needs every wave (R299, R300, R420, R422, R426, R442, R443). -/
def Obligations.BringupPhases : Prop :=
  ∀ (s : State) (e : PhaseEnd), s.mod.power = .on →
    let b := s.flash.bank
    let failed (t : State) (k : Nat) (st : Status) : Prop := t.cur.phase = .failed ∧ t.cur.failPhase = BitVec.ofNat 4 k ∧
      t.cur.failStatus = BitVec.ofNat 16 (statusCode st) ∧ t.mem = s.mem ∧ t.cores = s.cores
    let stamped (t : State) (k : Nat) : Prop := Tab.get 0 t.cur.phaseEnd (k - 1) = BitVec.ofNat 48 s.now
    (s.cur.phase = .curator →
      (s.bankPasses b = false → s.bankPasses (!b) = false → completes (.bringupPhaseEnd e) s fun t => failed t 1 .integrity ∧
        t.raised = s.raised) ∧
      (s.bankPasses b = true ∨ s.bankPasses (!b) = true →
        (e.fatal = none → completes (.bringupPhaseEnd e) s fun t => t.cur.phase = .clocks ∧ stamped t 1 ∧ t.mod.pwrOk = true ∧
          t.flash.bank = (if s.bankPasses b then b else !b) ∧ t.mod.calValid = s.flash.pageOk s.flash.calPage ∧ t.mem = s.mem ∧
          (s.flash.runtimeValid = false → t.cur.catRejected = true ∧ tells s t kFault 0)) ∧
        (∀ st, e.fatal = some st → completes (.bringupPhaseEnd e) s fun t => failed t 1 st ∧ tells s t kFault 0))) ∧
    (∀ k next, (k = 2 ∧ s.cur.phase = .clocks ∧ next = .network) ∨ (k = 3 ∧ s.cur.phase = .network ∧ next = BPhase.memory) →
      (e.fatal = none → completes (.bringupPhaseEnd e) s fun t => t.cur.phase = next ∧ stamped t k ∧ t.mem = s.mem ∧ t.cores = s.cores) ∧
      (∀ st, e.fatal = some st → completes (.bringupPhaseEnd e) s fun t => failed t k st ∧ tells s t kFault 0)) ∧
    (s.cur.phase = .memory → completes (.bringupPhaseEnd e) s fun t => t.cur.phase = .links ∧ stamped t 4 ∧
      (∀ g p, ((t.group g).page p).stale = false ∧ ((t.group g).page p).epochSel = false) ∧ (∀ a, a < vaultEnd →
        Memory.get t.mem a = 0) ∧ (∀ a, vaultEnd ≤ a → Memory.get t.mem a = Memory.get s.mem a) ∧
      (e.galleryFails = [] → ∀ p, p < 4 → (t.port p).mode = (if (t.port p).laneBad = 0 then 1 else 3) ∧ (t.port p).linkUp = 0 ∧
        ∀ k, k < 8 → bitOf (t.port p).laneBad.toNat k = (s.catOf catLane).contains (8 * p + k))) ∧
    (s.cur.phase = .links →
      (e.trained = false ∨ s.allUp = true → completes (.bringupPhaseEnd e) s fun t => t.cur.phase = .compute ∧ stamped t 5 ∧
        t.mem = s.mem) ∧
      (e.trained = true → s.allUp = false → completes (.bringupPhaseEnd e) s fun t => t = s)) ∧
    (s.cur.phase = .compute →
      (s.cur.wavesDone = 8 → completes (.bringupPhaseEnd e) s fun t => t.cur.phase = .ready ∧ stamped t 6 ∧ t.mem = s.mem ∧
        t.cores = s.cores) ∧
      (s.cur.wavesDone ≠ 8 → completes (.bringupPhaseEnd e) s fun t => t = s))

/-- A wave starts one Troupe of each Stage: the first 16 physical Cores that are good serve in order, the next two are its Understudies, a
logical Core left without one is dark (R35, R36, R125, R201, R423, R426). -/
def Obligations.WavesStartTroupes : Prop :=
  ∀ (s : State) (w : Fin 8) (failed : List Nat), s.mod.power = .on → s.cur.phase = .compute → s.cur.wavesDone = w.val →
    completes (.troupeWaveStart w failed) s fun t => t.cur.wavesDone = w.val + 1 ∧ t.mem = s.mem ∧
      (∀ u, u < 32 → u % 8 = w.val → (t.troupe u).started = true ∧ (t.troupe u).entropyOk = true ∧ (t.troupe u).timerStart = s.now) ∧
      (∀ u, u < 32 → u % 8 = w.val →
        let good := (List.range 18).filter (fun k => !s.physBad (physOf u k) && !failed.contains (physOf u k))
        (t.troupe u).presentA = decide (16 < good.length) ∧ (t.troupe u).presentB = decide (17 < good.length) ∧
        ∀ k, k < 16 →
          (k < good.length → (t.core (16 * u + k)).phys = BitVec.ofNat 10 (physOf u (nth 0x1F good k)) ∧
            (t.core (16 * u + k)).dark = (s.core (16 * u + k)).dark ∧
            ∀ j : Fin 32, standardSlot j.val = true → (t.core (16 * u + k)).tslot j.val = firmwareSlot j.val) ∧
          (good.length ≤ k → (t.core (16 * u + k)).dark = true ∧ (t.core (16 * u + k)).phys = 0x3FF)) ∧
      (failed = [] → t.flash = s.flash) ∧
      ∀ c, c / 16 % 8 ≠ w.val → t.core c = s.core c

/-- Bring-up and Catalogues read by command; firmware staged, activated, running or fallen back: the bank in use, SEC_VERSION and MEAS_GEN
(R403, R405, R427, R440 to R443). -/
def Obligations.FirmwareAndCatalogues : Prop :=
  ∀ (s : State) (h : Hdr),
    (s.admits h 0x0901 → answered (.bringupStatus h) s h 0x0901 false [.value (BitVec.ofNat 64 (s.curatorWord 0x100)),
      .data ((List.range 9).map (fun k => leBytes 8 (s.curatorWord (0x108 + 8 * k)))).flatten] fun t => sameButReplies s t) ∧
    (∀ (index : BitVec 32) (first : Option W64) l, s.admits h 0x0910 → s.catalogue index.toNat = some l →
      answered (.catalogueRead h index first) s h 0x0910 false
        [.value (BitVec.ofNat 64 l.length), .data (catBytes ((l.drop (first.getD 0).toNat).take 4095))] fun t => sameButReplies s t) ∧
    (∀ a n x b version digest sig, s.admits h 0x0920 → vaultSpan a (BitVec.toNat (w := 64) n) = some x →
      s.readMem .unit x n.toNat = .ok b → Config.firmwareImage b = some (version, digest, sig) →
      Config.dsaVerify Config.firmwareKey digest sig = true → s.sec.secVersion.toNat ≤ version.toNat →
      answered (.firmwareStage h a n) s h 0x0920 false [] fun t => t.cur.updateState = .staged ∧ t.cur.stagedVersion = version ∧
        t.flash.bank = s.flash.bank ∧ t.flash.bankVersion (!s.flash.bank) = version ∧ t.flash.bankValid (!s.flash.bank) = true ∧
        t.flash.bankVersion s.flash.bank = s.flash.bankVersion s.flash.bank ∧ t.sec.measGen = s.sec.measGen + 1 ∧
        t.sec.secVersion = s.sec.secVersion ∧ t.mem = s.mem) ∧
    (s.admits h 0x0921 → s.cur.updateState = .staged → answered (.firmwareActivate h) s h 0x0921 false [] fun t =>
      t.cur.updateState = .activating ∧ t.flash = s.flash ∧ (∀ k f, t.folio k = some f → f.state = .registered) ∧
      ∀ k f, s.folio k = some f → f.state ≠ .registered → ∀ a, f.addr ≤ a → a < f.addr + f.bytes → Memory.get t.mem a = 0) ∧
    (s.activating = true →
      (completes .firmwareRunning s fun t => t.flash.bank = !s.flash.bank ∧ t.cur.updateState = .none ∧
        t.sec.secVersion.toNat = max s.sec.secVersion.toNat s.cur.stagedVersion.toNat ∧ t.sec.measGen = s.sec.measGen + 1 ∧
        t.released = s.released ++ s.cur.fwQueue ∧ t.cur.fwQueue = [] ∧ t.mem = s.mem ∧ t.cores = s.cores) ∧
      (completes .fwFallback s fun t => t.flash.bank = s.flash.bank ∧ t.flash.bankValid (!s.flash.bank) = false ∧
        t.cur.updateState = .none ∧ t.sec.secVersion = s.sec.secVersion ∧ t.released = s.released ++ s.cur.fwQueue ∧ tells s t kFault 0 ∧
        t.mem = s.mem ∧ t.cores = s.cores))

/-- A failed Core: an Understudy takes its place where it has a marker and one is free, else it goes dark; the shadow loads into empty
Wings, and the Core issues again from its marker (R40, R41, R104, R427 to R429, R439). Other single faults: a free Understudy lost, a
plane, a core of the Curator, a phase of a rail: each is marked, carried by what is left, and reported (R427, R429, R437 to R439, R449).
-/
def Obligations.CoreAndOtherFaults : Prop :=
  (∀ (s : State) (c : CoreNo),
     let x := s.core c.val
     let u := troupeOfCore c.val
     (∀ f, x.dark = false → x.inReset = false → (s.troupe u).started = true → (f = .suspect → x.p.state = .suspect) →
       let left := (s.troupe u).failed (slotOfPhys x.phys.toNat)
       (∀ slot y, x.marker.isSome = true → left.engage (c.val % 16) = some (slot, y) → completes (.coreFaultDetected c f) s fun t =>
         t.troupe u = y ∧ (t.core c.val).phys = BitVec.ofNat 10 (physOf u slot) ∧ (t.core c.val).onUnderstudy = true ∧
         (∃ k, (t.core c.val).takeover = some k ∧ k.failed = x.phys.toNat) ∧ t.mem = s.mem ∧ ∀ j, j ≠ c.val → t.core j = s.core j) ∧
       (x.marker = none ∨ left.engage (c.val % 16) = none → x.msg.unaccepted = [] → x.heldIn = [] → s.doorIdle c.val →
         completes (.coreFaultDetected c f) s
         fun t => (t.core c.val).dark = true ∧ t.troupe u = left ∧ t.cur.coresDarkened = satInc s.cur.coresDarkened ∧ tells s t kFault 0 ∧
           t.mem = s.mem ∧ ∀ j, j ≠ c.val → t.core j = s.core j)) ∧
     (∀ k m, x.takeover = some k → x.marker = some m → x.shadowLoaded = false →
       (x.log = [] → completes (.takeoverShadowLoaded c false) s fun t => (t.core c.val).shadowLoaded = true ∧
         (t.core c.val).p.state = .running ∧ (t.core c.val).p.cp = m.cp ∧ (t.core c.val).p.vl = m.vl ∧ (t.core c.val).p.tokens = m.tokens ∧
         (t.core c.val).str.descs = m.descs ∧ (∀ a, wingsOf c.val ≤ a → a < wingsOf c.val + 0x400000 → Memory.get t.mem a = 0) ∧
         sameOutside s t (wingsOf c.val) 0x400000 ∧ ∀ j, j ≠ c.val → t.core j = s.core j) ∧
       (x.msg.unaccepted = [] → x.heldIn = [] → s.doorIdle c.val →
         completes (.takeoverShadowLoaded c true) s fun t => (t.core c.val).dark = true ∧
         (t.core c.val).takeover = none ∧ tells s t kFault 0 ∧ t.mem = s.mem)) ∧
     (∀ k ns, x.takeover = some k → x.shadowLoaded = true → x.heldIn = [] → s.doorIdle c.val → completes (.takeover c ns) s fun t =>
       (t.core c.val).takeover = none ∧ (t.core c.val).shadowLoaded = false ∧ t.cur.takeovers = satInc s.cur.takeovers ∧
       tells s t kFault 0 ∧ t.released = s.released ++ (s.held.filter (fun p => p.1 == c.val)).map (·.2) ∧ t.mem = s.mem ∧
       ∀ j, j ≠ c.val → t.core j = s.core j)) ∧
  (∀ (s : State),
     (∀ t : TroupeNo, (s.troupe t.val).presentA = true → (s.troupe t.val).engagedA = false → completes (.understudyLost t false) s fun r =>
       (r.troupe t.val).presentA = false ∧ bitOf (r.troupe t.val).badMask.toNat (s.troupe t.val).slotA.toNat =
         decide ((s.troupe t.val).slotA.toNat < 18) ∧ tells s r kFault 0 ∧ r.cores = s.cores ∧ r.mem = s.mem) ∧
     (∀ t : TroupeNo, (s.troupe t.val).presentB = true → (s.troupe t.val).engagedB = false → completes (.understudyLost t true) s fun r =>
       (r.troupe t.val).presentB = false ∧ tells s r kFault 0 ∧ r.cores = s.cores ∧ r.mem = s.mem) ∧
     (∀ (st : StageNo) ns, 2 ≤ (s.stage st.val).planes → completes (.planeFailover st ns) s fun r => (r.stage st.val).planes = 1 ∧
       tells s r kFault 0 ∧ r.cores = s.cores ∧ r.mem = s.mem ∧ ∀ j, j ≠ st.val → r.stage j = s.stage j) ∧
     (∀ (k : Fin 8) ns, bitOf s.cur.cores.toNat k.val = true → s.cur.cores.toNat ≠ 2 ^ k.val → s.curatorUp = true →
       completes (.curatorFailover k ns) s fun r => bitOf r.cur.cores.toNat k.val = false ∧
         (∀ j : Fin 8, j ≠ k → bitOf r.cur.cores.toNat j.val = bitOf s.cur.cores.toNat j.val) ∧ tells s r kFault 0 ∧ r.mem = s.mem) ∧
     (∀ (rail : Fin 6) (p : Fin 32), p.val < phasesOf rail.val → (rail.val, p.val) ∉ s.mod.phasesLost → s.curatorUp = true →
       completes (.phaseLost rail p) s fun r => r.mod.phasesLost = s.mod.phasesLost ++ [(rail.val, p.val)] ∧ tells s r kFault 0 ∧
         r.mem = s.mem ∧ r.cores = s.cores))

/-- While no OWNER entry exists, a CLAIM is accepted on the management lane, its key becomes the OWNER in entry 0 and OWNER_CLAIMED is
raised; on a main port, or on an owned module, it is refused with DENIED (R395). -/
def Obligations.ClaimsOfOwnership : Prop :=
  ∀ (s : State) (h : Hdr), s.admits h 0x0501 → s.cur.sessions.length < 64 →
    (∀ b id c i, hsInitMessage b = some (id, c) → HsInit.of c = some i → i.mode = 3 →
      (s.sec.handshakes.filter (fun x => x.id != id)).length < 16 →
      (h.lane = .management → s.owned = false → completes (.sessionOpenInit h b) s fun t =>
        (∃ x ∈ t.sec.handshakes, x.id = id ∧ x.mode = 3 ∧ x.init = c) ∧
        ∃ r, t.out = s.out ++ [.reply h.lane r] ∧ r.status = .ok ∧ r.tag = h.tag) ∧
      (h.lane = .main ∨ s.owned = true → completes (.sessionOpenInit h b) s fun t => t.sec = s.sec ∧
        ∃ r, t.out = s.out ++ [.reply h.lane r] ∧ r.status = .denied ∧ r.tag = h.tag)) ∧
    (∀ id sig (x : Hs) key, s.sec.handshakes.find? (fun x => x.id == id) = some x → x.mode = 3 → x.lane = .management →
      (HsInit.of x.init).bind HsInit.key = some key →
      (s.owned = false → Config.dsaVerify key (hsIDigest x.init x.resp) sig = true → completes (.sessionOpenFinish h id sig) s fun t =>
          t.cred 0 = { kind := 1, digest := Config.sha3 key, key := key } ∧ (∃ y ∈ t.cur.sessions, y.role = .owner) ∧
          (∃ l n, t.raised = s.raised ++ l ∧ n ∈ l ∧ n.queue = 0 ∧ n.kind = BitVec.ofNat 16 kSecurity ∧ n.payload.head? = some 0x09) ∧
          ∃ r, t.out = s.out ++ [.reply h.lane r] ∧ r.status = .ok ∧ r.tag = h.tag) ∧
      (s.owned = true → completes (.sessionOpenFinish h id sig) s fun t => t.sec.creds = s.sec.creds ∧
        ∃ r, t.out = s.out ++ [.reply h.lane r] ∧ r.status = .denied ∧ r.tag = h.tag))

/-- An OBSERVER session may issue only the opcodes marked O and those that need no session; any other is refused with DENIED and changes
nothing; an OPERATOR session may issue every opcode (R365). -/
def Obligations.ObserversAndOperators : Prop :=
  ∀ (s : State) (h : Hdr) (op : Nat) (mk : Hdr → Instr) (x : Session), CommandRow op mk → h.session ≠ 0 → s.session h.session = some x →
    (∀ k ∈ x.kept, k.reply.tag ≠ h.tag) → s.waitsAt h.session = none → s.curatorUp = true → s.activating = false →
    (h.lane = .main → s.phaseEnded 5 = true) →
    let open_ := op ∈ [0x0100, 0x0101, 0x0108, 0x0204, 0x0300, 0x0310, 0x0413, 0x0423, 0x0500, 0x0501, 0x0502, 0x0701, 0x0702, 0x0710, 0x0711,
      0x0802, 0x0901, 0x0910, 0x0A00, 0x0F11]
    (x.role = .observer → ¬open_ → completes (mk h) s fun t => sameButReplies s t ∧
      ∃ r, t.out = s.out ++ [.reply h.lane r] ∧ r.status = .denied ∧ r.tag = h.tag) ∧
    (x.role = .operator ∨ (x.role = .observer ∧ open_) → s.phaseEnded (opPhase op) = true → s.admits h op)

/-- A step on a queue runs the command at its front on the state with the queue's rest. -/
def Obligations.StepRunsFront : Prop :=
  ∀ (s : State) (c : Instr), step { s with pending := c :: s.pending } = exec c s

/-- On an empty queue the block brings in the requests that were released, or counts one tick of its timer: nothing else changes (the
model's choice: DESIGN CHOICE, log entry 1). -/
def Obligations.EmptyQueueTicks : Prop :=
  ∀ (s : State), s.pending = [] →
    (s.released = [] → step s = .next { s with now := s.now + 1 }) ∧
    (s.released ≠ [] → ∃ t, step s = .next t ∧ t.pending = s.released ∧ t.released = [] ∧ t.now = s.now ∧ t.mem = s.mem ∧
      t.cores = s.cores ∧ t.cur = s.cur)

/-- Right after reset: phase CURATOR, nothing waits, no session, every queue disabled, every association FREE, every Ensemble EMPTY, the
values the spec gives; and the invariant holds (R185, R325, R357, R385, R388, R420, R443). -/
def Obligations.ResetState : Prop :=
  let s := State.reset
  s.pending = [] ∧ s.out = [] ∧ s.raised = [] ∧ s.cur.phase = .curator ∧ s.cur.sessions = [] ∧ s.cur.slots = [] ∧ s.cur.rehearsal = false ∧
    s.cur.updateState = .none ∧ s.mod.powerCapW = 2400 ∧ s.coll.gnsBeta = 0x3F666666 ∧ (∀ q, (s.nq q).enable = false) ∧
    (∀ a, (s.assoc a).state = .free) ∧ (∀ e, (s.ensemble e).defined = false) ∧ s.Inv

/-- Every command is answered, held or ignored, as the spec says: none faults, none is refused by the model, and the queue is left to the
step. -/
def Obligations.EveryCommandCompletes : Prop :=
  ∀ (i : Instr) (s : State), ∃ t, exec i s = .next t ∧ t.pending = s.pending

/-- Every step keeps the invariant. -/
def Obligations.InvariantKept : Prop :=
  ∀ (s t : State), s.Inv → step s = .next t → t.Inv

/-- No step rewrites what is written once: the fuse and module Catalogues and the serial number stand, a runtime Catalogue that is valid
only grows at its end, SEC_VERSION never falls, what has left the block has left it (R390, R425, R427, R441). -/
def Obligations.NothingWrittenOnceChanges : Prop :=
  ∀ (s t : State), step s = .next t →
    t.flash.fuseCat = s.flash.fuseCat ∧ t.flash.moduleCat = s.flash.moduleCat ∧ t.flash.serial = s.flash.serial ∧
    (s.flash.runtimeValid = true → t.flash.runtimeValid = true ∧ s.flash.runtimeCat <+: t.flash.runtimeCat) ∧
    s.sec.secVersion.toNat ≤ t.sec.secVersion.toNat ∧ s.out <+: t.out

/-- Every queue drains: as many steps as commands wait lead to an empty queue, first in first out, with the invariant kept on the way. -/
def Obligations.QueuesDrain : Prop :=
  ∀ (s : State), ∃ t, Runs s.pending.length s t ∧ t.pending = [] ∧ (s.Inv → t.Inv) ∧ s.out <+: t.out ∧
    ∀ c l, s.pending = c :: l → ∃ u, exec c { s with pending := l } = .next u ∧ u.pending = l ∧ Runs l.length u t
end

