-- ==== Sys2Proof/Laws/Tab.lean ====
section
/-! SUPPORT. Tables and memory: reading after writing, and the canonical form. -/

namespace Sys2Proof.Machine

theorem Tab.get_set_same {α : Type} (d : α) (t : Tab α) (k : Nat) (v : α) : Tab.get d (Tab.set t k v) k = v := by
  induction t with
  | nil => simp [Tab.set, Tab.get]
  | cons p t ih =>
    obtain ⟨k', v'⟩ := p
    simp only [Tab.set]
    split
    · simp [Tab.get]
    · split
      · simp [Tab.get]
      · simp [Tab.get, *]

theorem Tab.get_set_other {α : Type} (d : α) (t : Tab α) (k j : Nat) (v : α) (h : j ≠ k) :
    Tab.get d (Tab.set t k v) j = Tab.get d t j := by
  induction t with
  | nil => simp [Tab.set, Tab.get, h]
  | cons p t ih =>
    obtain ⟨k', v'⟩ := p
    simp only [Tab.set]
    split
    · simp [Tab.get, h]
    · split
      · rename_i e
        subst e
        simp [Tab.get, h]
      · simp [Tab.get, ih]

theorem Tab.get_set {α : Type} (d : α) (t : Tab α) (k j : Nat) (v : α) :
    Tab.get d (Tab.set t k v) j = if j = k then v else Tab.get d t j := by
  split
  · rename_i e; subst e; exact Tab.get_set_same d t j v
  · rename_i h; exact Tab.get_set_other d t k j v h

/-- Keys of an ascending table lie above its first. -/
theorem Tab.ascending_head {α : Type} {p : Nat × α} {t : Tab α} (h : Tab.ascending (p :: t) = true) :
    Tab.ascending t = true ∧ ∀ q ∈ t, p.1 < q.1 := by
  induction t generalizing p with
  | nil => simp [Tab.ascending]
  | cons q t ih =>
    obtain ⟨k, v⟩ := p
    obtain ⟨k', v'⟩ := q
    simp only [Tab.ascending, Bool.and_eq_true, decide_eq_true_eq] at h
    refine ⟨h.2, fun r hr => ?_⟩
    rcases List.mem_cons.mp hr with e | hr
    · subst e; exact h.1
    · exact Nat.lt_trans h.1 ((ih h.2).2 r hr)

theorem Tab.ascending_cons {α : Type} {p : Nat × α} {t : Tab α} (h : Tab.ascending t = true) (k : ∀ q ∈ t, p.1 < q.1) :
    Tab.ascending (p :: t) = true := by
  cases t with
  | nil => obtain ⟨_, _⟩ := p; rfl
  | cons q t =>
    obtain ⟨_, _⟩ := p; obtain ⟨_, _⟩ := q
    simp only [Tab.ascending, Bool.and_eq_true, decide_eq_true_eq]
    exact ⟨k _ (List.mem_cons_self ..), h⟩

theorem Tab.mem_set {α : Type} {t : Tab α} {k : Nat} {v : α} {q : Nat × α} (h : q ∈ Tab.set t k v) : q = (k, v) ∨ q ∈ t := by
  induction t with
  | nil => simpa [Tab.set] using h
  | cons p t ih =>
    obtain ⟨k', v'⟩ := p
    simp only [Tab.set] at h
    split at h
    · rcases List.mem_cons.mp h with e | h
      · exact .inl e
      · exact .inr h
    · split at h
      · rcases List.mem_cons.mp h with e | h
        · exact .inl e
        · exact .inr (List.mem_cons_of_mem _ h)
      · rcases List.mem_cons.mp h with e | h
        · exact .inr (e ▸ List.mem_cons_self ..)
        · rcases ih h with e | h
          · exact .inl e
          · exact .inr (List.mem_cons_of_mem _ h)

theorem Tab.set_ascending {α : Type} {t : Tab α} (k : Nat) (v : α) (h : Tab.ascending t = true) : Tab.ascending (Tab.set t k v) = true := by
  induction t with
  | nil => rfl
  | cons p t ih =>
    obtain ⟨ht, hk⟩ := Tab.ascending_head h
    obtain ⟨k', v'⟩ := p
    simp only [Tab.set]
    split
    · rename_i lt
      refine Tab.ascending_cons h (fun q hq => ?_)
      rcases List.mem_cons.mp hq with e | hq
      · subst e; exact lt
      · exact Nat.lt_trans lt (hk q hq)
    · split
      · rename_i e; subst e
        exact Tab.ascending_cons ht hk
      · refine Tab.ascending_cons (ih ht) (fun q hq => ?_)
        rcases Tab.mem_set hq with e | hq
        · subst e; show k' < k; omega
        · exact hk q hq

theorem Tab.mem_erase {α : Type} {t : Tab α} {k : Nat} {q : Nat × α} (h : q ∈ Tab.erase t k) : q ∈ t := by
  induction t with
  | nil => simp [Tab.erase] at h
  | cons p t ih =>
    obtain ⟨k', v'⟩ := p
    simp only [Tab.erase] at h
    split at h
    · exact List.mem_cons_of_mem _ (ih h)
    · rcases List.mem_cons.mp h with e | h
      · exact e ▸ List.mem_cons_self ..
      · exact List.mem_cons_of_mem _ (ih h)

theorem Tab.erase_ascending {α : Type} {t : Tab α} (k : Nat) (h : Tab.ascending t = true) : Tab.ascending (Tab.erase t k) = true := by
  induction t with
  | nil => rfl
  | cons p t ih =>
    obtain ⟨ht, hk⟩ := Tab.ascending_head h
    obtain ⟨k', v'⟩ := p
    simp only [Tab.erase]
    split
    · exact ih ht
    · exact Tab.ascending_cons (ih ht) (fun q hq => hk q (Tab.mem_erase hq))

theorem Tab.mem_drop {α : Type} {p : Nat → Bool} {t : Tab α} {q : Nat × α} (h : q ∈ Tab.drop p t) : q ∈ t := by
  induction t with
  | nil => simp [Tab.drop] at h
  | cons r t ih =>
    obtain ⟨k', v'⟩ := r
    simp only [Tab.drop] at h
    split at h
    · exact List.mem_cons_of_mem _ (ih h)
    · rcases List.mem_cons.mp h with e | h
      · exact e ▸ List.mem_cons_self ..
      · exact List.mem_cons_of_mem _ (ih h)

theorem Tab.drop_ascending {α : Type} (p : Nat → Bool) {t : Tab α} (h : Tab.ascending t = true) : Tab.ascending (Tab.drop p t) = true := by
  induction t with
  | nil => rfl
  | cons r t ih =>
    obtain ⟨ht, hk⟩ := Tab.ascending_head h
    obtain ⟨k', v'⟩ := r
    simp only [Tab.drop]
    split
    · exact ih ht
    · exact Tab.ascending_cons (ih ht) (fun q hq => hk q (Tab.mem_drop hq))

/-- An erased key reads as the default. -/
theorem Tab.get_erase_same {α : Type} (d : α) (t : Tab α) (k : Nat) : Tab.get d (Tab.erase t k) k = d := by
  induction t with
  | nil => rfl
  | cons p t ih =>
    obtain ⟨k', v'⟩ := p
    simp only [Tab.erase]
    split
    · exact ih
    · rename_i ne; simpa only [Tab.get, if_neg ne] using ih

theorem Tab.get_erase_other {α : Type} (d : α) (t : Tab α) (k j : Nat) (h : j ≠ k) : Tab.get d (Tab.erase t k) j = Tab.get d t j := by
  induction t with
  | nil => rfl
  | cons p t ih =>
    obtain ⟨k', v'⟩ := p
    simp only [Tab.erase]
    split
    · rename_i e; subst e; simp [Tab.get, h, ih]
    · simp [Tab.get, ih]

/-! ## Memory -/

theorem Memory.wf_iff {m : List Host.Cell} : Memory.wf m = true ↔ Tab.ascending m = true ∧ ∀ c ∈ m, c.2 ≠ 0 := by
  simp [Memory.wf, List.all_eq_true]

/-- Writing a byte keeps the canonical form. -/
theorem Memory.put_wf {m : List Host.Cell} (a : Nat) (b : Byte) (h : Memory.wf m = true) : Memory.wf (Memory.put m a b) = true := by
  obtain ⟨h1, h2⟩ := Memory.wf_iff.mp h
  rw [Memory.wf_iff, Memory.put]
  split
  · exact ⟨Tab.erase_ascending a h1, fun c hc => h2 c (Tab.mem_erase hc)⟩
  · rename_i nz
    refine ⟨Tab.set_ascending a b h1, fun c hc => ?_⟩
    rcases Tab.mem_set hc with e | hc
    · subst e; exact nz
    · exact h2 c hc

/-- Writing bytes keeps the canonical form. -/
theorem Memory.write_wf {m : List Host.Cell} (a : Nat) (l : List Byte) (h : Memory.wf m = true) : Memory.wf (Memory.write m a l) = true := by
  induction l generalizing m a with
  | nil => exact h
  | cons b t ih => exact ih (a + 1) (Memory.put_wf a b h)

/-- Erasing a span keeps the canonical form. -/
theorem Memory.zero_wf {m : List Host.Cell} (a n : Nat) (h : Memory.wf m = true) : Memory.wf (Memory.zero m a n) = true := by
  obtain ⟨h1, h2⟩ := Memory.wf_iff.mp h
  rw [Memory.wf_iff, Memory.zero]
  exact ⟨Tab.drop_ascending _ h1, fun c hc => h2 c (Tab.mem_drop hc)⟩

theorem Memory.get_put_other (m : List Host.Cell) (a j : Nat) (b : Byte) (h : j ≠ a) : Memory.get (Memory.put m a b) j = Memory.get m j := by
  unfold Memory.put Memory.get
  split
  · exact Tab.get_erase_other _ _ _ _ h
  · exact Tab.get_set_other _ _ _ _ _ h

theorem Memory.get_put_same (m : List Host.Cell) (a : Nat) (b : Byte) : Memory.get (Memory.put m a b) a = b := by
  unfold Memory.put Memory.get
  split
  · rename_i e; rw [Tab.get_erase_same, e]
  · exact Tab.get_set_same _ _ _ _

/-- A byte outside the span written reads as before. -/
theorem Memory.get_write_other (m : List Host.Cell) (a : Nat) (l : List Byte) (j : Nat) (h : j < a ∨ a + l.length ≤ j) :
    Memory.get (Memory.write m a l) j = Memory.get m j := by
  induction l generalizing m a with
  | nil => rfl
  | cons b t ih =>
    simp only [Memory.write, List.length_cons] at h ⊢
    rw [ih (Memory.put m a b) (a + 1) (by omega), Memory.get_put_other m a j b (by omega)]

/-- A byte inside the span written reads as written. -/
theorem Memory.get_write_inside (m : List Host.Cell) (a : Nat) (l : List Byte) (i : Nat) (hi : i < l.length) :
    Memory.get (Memory.write m a l) (a + i) = l[i] := by
  induction l generalizing m a i with
  | nil => simp at hi
  | cons b t ih =>
    cases i with
    | zero =>
      simp only [Memory.write, Nat.add_zero]
      rw [Memory.get_write_other _ _ _ _ (by omega), Memory.get_put_same]
      rfl
    | succ i =>
      simp only [Memory.write]
      rw [show a + (i + 1) = (a + 1) + i by omega]
      exact ih (Memory.put m a b) (a + 1) i (by simpa using hi)

/-- An erased byte reads as zero, another as before. -/
theorem Memory.get_zero (m : List Host.Cell) (a n j : Nat) :
    Memory.get (Memory.zero m a n) j = if a ≤ j ∧ j < a + n then 0 else Memory.get m j := by
  unfold Memory.zero Memory.get
  induction m with
  | nil => simp [Tab.drop, Tab.get]
  | cons p t ih =>
    obtain ⟨k, v⟩ := p
    simp only [Tab.drop, decide_eq_true_eq]
    by_cases hk : a ≤ k ∧ k < a + n
    · simp only [hk, and_self, if_true, ih, Tab.get]
      by_cases e : j = k
      · subst e; simp [hk]
      · simp [e]
    · simp only [hk, if_false, Tab.get, ih]
      by_cases e : j = k
      · subst e; simp [hk]
      · simp [e]

end Sys2Proof.Machine
end

