-- ==== Sys2Proof/Laws/State.lean ====
section
/-! SUPPORT. What each update of State changes and what it leaves, field by field, all by rfl: `simp` reads them and no proof unfolds a
record update. -/

namespace Sys2Proof.Machine

@[simp] theorem State.setCore_rest (s : State) (c j : Nat) (x : Core) :
    (s.setCore c x).pending = s.pending ∧
    (s.setCore c x).released = s.released ∧
    (s.setCore c x).held = s.held ∧
    (s.setCore c x).heldSessions = s.heldSessions ∧
    (s.setCore c x).now = s.now ∧
    (s.setCore c x).freeCtr = s.freeCtr ∧
    (s.setCore c x).out = s.out ∧
    (s.setCore c x).raised = s.raised ∧
    (s.setCore c x).mem = s.mem ∧
    (s.setCore c x).troupes = s.troupes ∧
    (s.setCore c x).engines = s.engines ∧
    (s.setCore c x).stages = s.stages ∧
    (s.setCore c x).dies = s.dies ∧
    (s.setCore c x).vault = s.vault ∧
    (s.setCore c x).cons = s.cons ∧
    (s.setCore c x).windows = s.windows ∧
    (s.setCore c x).jobSeq = s.jobSeq ∧
    (s.setCore c x).closeTick = s.closeTick ∧
    (s.setCore c x).nqs = s.nqs ∧
    (s.setCore c x).ensembles = s.ensembles ∧
    (s.setCore c x).mio = s.mio ∧
    (s.setCore c x).coll = s.coll ∧
    (s.setCore c x).cur = s.cur ∧
    (s.setCore c x).sec = s.sec ∧
    (s.setCore c x).mod = s.mod ∧
    (s.setCore c x).flash = s.flash ∧
    (s.setCore c x).troupe j = s.troupe j ∧
    (s.setCore c x).engine j = s.engine j ∧
    (s.setCore c x).stage j = s.stage j ∧
    (s.setCore c x).die j = s.die j ∧
    (s.setCore c x).con j = s.con j ∧
    (s.setCore c x).nq j = s.nq j ∧
    (s.setCore c x).ensemble j = s.ensemble j ∧
    (s.setCore c x).group j = s.group j ∧
    (s.setCore c x).assoc j = s.assoc j ∧
    (s.setCore c x).port j = s.port j ∧
    (s.setCore c x).slot j = s.slot j ∧
    (s.setCore c x).collOf j = s.collOf j ∧
    (s.setCore c x).mapping j = s.mapping j :=
  ⟨rfl, rfl, rfl, rfl, rfl, rfl, rfl, rfl, rfl, rfl, rfl, rfl, rfl, rfl, rfl, rfl, rfl, rfl, rfl, rfl, rfl, rfl, rfl, rfl, rfl, rfl, rfl, rfl, rfl, rfl, rfl, rfl, rfl, rfl, rfl, rfl, rfl, rfl, rfl⟩

@[simp] theorem State.setCore_core (s : State) (c j : Nat) (x : Core) : (s.setCore c x).core j = if j = c then x else s.core j :=
  Tab.get_set _ _ _ _ _

@[simp] theorem State.modCore_set (s : State) (c : Nat) (f : Core → Core) : s.modCore c f = s.setCore c (f (s.core c)) := rfl

@[simp] theorem State.setTroupe_rest (s : State) (t j : Nat) (x : Troupe) :
    (s.setTroupe t x).pending = s.pending ∧
    (s.setTroupe t x).released = s.released ∧
    (s.setTroupe t x).held = s.held ∧
    (s.setTroupe t x).heldSessions = s.heldSessions ∧
    (s.setTroupe t x).now = s.now ∧
    (s.setTroupe t x).freeCtr = s.freeCtr ∧
    (s.setTroupe t x).out = s.out ∧
    (s.setTroupe t x).raised = s.raised ∧
    (s.setTroupe t x).mem = s.mem ∧
    (s.setTroupe t x).cores = s.cores ∧
    (s.setTroupe t x).engines = s.engines ∧
    (s.setTroupe t x).stages = s.stages ∧
    (s.setTroupe t x).dies = s.dies ∧
    (s.setTroupe t x).vault = s.vault ∧
    (s.setTroupe t x).cons = s.cons ∧
    (s.setTroupe t x).windows = s.windows ∧
    (s.setTroupe t x).jobSeq = s.jobSeq ∧
    (s.setTroupe t x).closeTick = s.closeTick ∧
    (s.setTroupe t x).nqs = s.nqs ∧
    (s.setTroupe t x).ensembles = s.ensembles ∧
    (s.setTroupe t x).mio = s.mio ∧
    (s.setTroupe t x).coll = s.coll ∧
    (s.setTroupe t x).cur = s.cur ∧
    (s.setTroupe t x).sec = s.sec ∧
    (s.setTroupe t x).mod = s.mod ∧
    (s.setTroupe t x).flash = s.flash ∧
    (s.setTroupe t x).core j = s.core j ∧
    (s.setTroupe t x).engine j = s.engine j ∧
    (s.setTroupe t x).stage j = s.stage j ∧
    (s.setTroupe t x).die j = s.die j ∧
    (s.setTroupe t x).con j = s.con j ∧
    (s.setTroupe t x).nq j = s.nq j ∧
    (s.setTroupe t x).ensemble j = s.ensemble j ∧
    (s.setTroupe t x).group j = s.group j ∧
    (s.setTroupe t x).assoc j = s.assoc j ∧
    (s.setTroupe t x).port j = s.port j ∧
    (s.setTroupe t x).slot j = s.slot j ∧
    (s.setTroupe t x).collOf j = s.collOf j ∧
    (s.setTroupe t x).mapping j = s.mapping j :=
  ⟨rfl, rfl, rfl, rfl, rfl, rfl, rfl, rfl, rfl, rfl, rfl, rfl, rfl, rfl, rfl, rfl, rfl, rfl, rfl, rfl, rfl, rfl, rfl, rfl, rfl, rfl, rfl, rfl, rfl, rfl, rfl, rfl, rfl, rfl, rfl, rfl, rfl, rfl, rfl⟩

@[simp] theorem State.setTroupe_troupe (s : State) (t j : Nat) (x : Troupe) : (s.setTroupe t x).troupe j = if j = t then x else s.troupe j :=
  Tab.get_set _ _ _ _ _

@[simp] theorem State.modTroupe_set (s : State) (t : Nat) (f : Troupe → Troupe) : s.modTroupe t f = s.setTroupe t (f (s.troupe t)) := rfl

@[simp] theorem State.setEngine_rest (s : State) (t j : Nat) (x : RootEng) :
    (s.setEngine t x).pending = s.pending ∧
    (s.setEngine t x).released = s.released ∧
    (s.setEngine t x).held = s.held ∧
    (s.setEngine t x).heldSessions = s.heldSessions ∧
    (s.setEngine t x).now = s.now ∧
    (s.setEngine t x).freeCtr = s.freeCtr ∧
    (s.setEngine t x).out = s.out ∧
    (s.setEngine t x).raised = s.raised ∧
    (s.setEngine t x).mem = s.mem ∧
    (s.setEngine t x).cores = s.cores ∧
    (s.setEngine t x).troupes = s.troupes ∧
    (s.setEngine t x).stages = s.stages ∧
    (s.setEngine t x).dies = s.dies ∧
    (s.setEngine t x).vault = s.vault ∧
    (s.setEngine t x).cons = s.cons ∧
    (s.setEngine t x).windows = s.windows ∧
    (s.setEngine t x).jobSeq = s.jobSeq ∧
    (s.setEngine t x).closeTick = s.closeTick ∧
    (s.setEngine t x).nqs = s.nqs ∧
    (s.setEngine t x).ensembles = s.ensembles ∧
    (s.setEngine t x).mio = s.mio ∧
    (s.setEngine t x).coll = s.coll ∧
    (s.setEngine t x).cur = s.cur ∧
    (s.setEngine t x).sec = s.sec ∧
    (s.setEngine t x).mod = s.mod ∧
    (s.setEngine t x).flash = s.flash ∧
    (s.setEngine t x).core j = s.core j ∧
    (s.setEngine t x).troupe j = s.troupe j ∧
    (s.setEngine t x).stage j = s.stage j ∧
    (s.setEngine t x).die j = s.die j ∧
    (s.setEngine t x).con j = s.con j ∧
    (s.setEngine t x).nq j = s.nq j ∧
    (s.setEngine t x).ensemble j = s.ensemble j ∧
    (s.setEngine t x).group j = s.group j ∧
    (s.setEngine t x).assoc j = s.assoc j ∧
    (s.setEngine t x).port j = s.port j ∧
    (s.setEngine t x).slot j = s.slot j ∧
    (s.setEngine t x).collOf j = s.collOf j ∧
    (s.setEngine t x).mapping j = s.mapping j :=
  ⟨rfl, rfl, rfl, rfl, rfl, rfl, rfl, rfl, rfl, rfl, rfl, rfl, rfl, rfl, rfl, rfl, rfl, rfl, rfl, rfl, rfl, rfl, rfl, rfl, rfl, rfl, rfl, rfl, rfl, rfl, rfl, rfl, rfl, rfl, rfl, rfl, rfl, rfl, rfl⟩

@[simp] theorem State.setEngine_engine (s : State) (t j : Nat) (x : RootEng) : (s.setEngine t x).engine j = if j = t then x else s.engine j :=
  Tab.get_set _ _ _ _ _

@[simp] theorem State.modEngine_set (s : State) (t : Nat) (f : RootEng → RootEng) : s.modEngine t f = s.setEngine t (f (s.engine t)) := rfl

@[simp] theorem State.setStage_rest (s : State) (t j : Nat) (x : Stage) :
    (s.setStage t x).pending = s.pending ∧
    (s.setStage t x).released = s.released ∧
    (s.setStage t x).held = s.held ∧
    (s.setStage t x).heldSessions = s.heldSessions ∧
    (s.setStage t x).now = s.now ∧
    (s.setStage t x).freeCtr = s.freeCtr ∧
    (s.setStage t x).out = s.out ∧
    (s.setStage t x).raised = s.raised ∧
    (s.setStage t x).mem = s.mem ∧
    (s.setStage t x).cores = s.cores ∧
    (s.setStage t x).troupes = s.troupes ∧
    (s.setStage t x).engines = s.engines ∧
    (s.setStage t x).dies = s.dies ∧
    (s.setStage t x).vault = s.vault ∧
    (s.setStage t x).cons = s.cons ∧
    (s.setStage t x).windows = s.windows ∧
    (s.setStage t x).jobSeq = s.jobSeq ∧
    (s.setStage t x).closeTick = s.closeTick ∧
    (s.setStage t x).nqs = s.nqs ∧
    (s.setStage t x).ensembles = s.ensembles ∧
    (s.setStage t x).mio = s.mio ∧
    (s.setStage t x).coll = s.coll ∧
    (s.setStage t x).cur = s.cur ∧
    (s.setStage t x).sec = s.sec ∧
    (s.setStage t x).mod = s.mod ∧
    (s.setStage t x).flash = s.flash ∧
    (s.setStage t x).core j = s.core j ∧
    (s.setStage t x).troupe j = s.troupe j ∧
    (s.setStage t x).engine j = s.engine j ∧
    (s.setStage t x).die j = s.die j ∧
    (s.setStage t x).con j = s.con j ∧
    (s.setStage t x).nq j = s.nq j ∧
    (s.setStage t x).ensemble j = s.ensemble j ∧
    (s.setStage t x).group j = s.group j ∧
    (s.setStage t x).assoc j = s.assoc j ∧
    (s.setStage t x).port j = s.port j ∧
    (s.setStage t x).slot j = s.slot j ∧
    (s.setStage t x).collOf j = s.collOf j ∧
    (s.setStage t x).mapping j = s.mapping j :=
  ⟨rfl, rfl, rfl, rfl, rfl, rfl, rfl, rfl, rfl, rfl, rfl, rfl, rfl, rfl, rfl, rfl, rfl, rfl, rfl, rfl, rfl, rfl, rfl, rfl, rfl, rfl, rfl, rfl, rfl, rfl, rfl, rfl, rfl, rfl, rfl, rfl, rfl, rfl, rfl⟩

@[simp] theorem State.setStage_stage (s : State) (t j : Nat) (x : Stage) : (s.setStage t x).stage j = if j = t then x else s.stage j :=
  Tab.get_set _ _ _ _ _

@[simp] theorem State.modStage_set (s : State) (t : Nat) (f : Stage → Stage) : s.modStage t f = s.setStage t (f (s.stage t)) := rfl

@[simp] theorem State.setDie_rest (s : State) (d j : Nat) (x : GalDie) :
    (s.setDie d x).pending = s.pending ∧
    (s.setDie d x).released = s.released ∧
    (s.setDie d x).held = s.held ∧
    (s.setDie d x).heldSessions = s.heldSessions ∧
    (s.setDie d x).now = s.now ∧
    (s.setDie d x).freeCtr = s.freeCtr ∧
    (s.setDie d x).out = s.out ∧
    (s.setDie d x).raised = s.raised ∧
    (s.setDie d x).mem = s.mem ∧
    (s.setDie d x).cores = s.cores ∧
    (s.setDie d x).troupes = s.troupes ∧
    (s.setDie d x).engines = s.engines ∧
    (s.setDie d x).stages = s.stages ∧
    (s.setDie d x).vault = s.vault ∧
    (s.setDie d x).cons = s.cons ∧
    (s.setDie d x).windows = s.windows ∧
    (s.setDie d x).jobSeq = s.jobSeq ∧
    (s.setDie d x).closeTick = s.closeTick ∧
    (s.setDie d x).nqs = s.nqs ∧
    (s.setDie d x).ensembles = s.ensembles ∧
    (s.setDie d x).mio = s.mio ∧
    (s.setDie d x).coll = s.coll ∧
    (s.setDie d x).cur = s.cur ∧
    (s.setDie d x).sec = s.sec ∧
    (s.setDie d x).mod = s.mod ∧
    (s.setDie d x).flash = s.flash ∧
    (s.setDie d x).core j = s.core j ∧
    (s.setDie d x).troupe j = s.troupe j ∧
    (s.setDie d x).engine j = s.engine j ∧
    (s.setDie d x).stage j = s.stage j ∧
    (s.setDie d x).con j = s.con j ∧
    (s.setDie d x).nq j = s.nq j ∧
    (s.setDie d x).ensemble j = s.ensemble j ∧
    (s.setDie d x).group j = s.group j ∧
    (s.setDie d x).assoc j = s.assoc j ∧
    (s.setDie d x).port j = s.port j ∧
    (s.setDie d x).slot j = s.slot j ∧
    (s.setDie d x).collOf j = s.collOf j ∧
    (s.setDie d x).mapping j = s.mapping j :=
  ⟨rfl, rfl, rfl, rfl, rfl, rfl, rfl, rfl, rfl, rfl, rfl, rfl, rfl, rfl, rfl, rfl, rfl, rfl, rfl, rfl, rfl, rfl, rfl, rfl, rfl, rfl, rfl, rfl, rfl, rfl, rfl, rfl, rfl, rfl, rfl, rfl, rfl, rfl, rfl⟩

@[simp] theorem State.setDie_die (s : State) (d j : Nat) (x : GalDie) : (s.setDie d x).die j = if j = d then x else s.die j :=
  Tab.get_set _ _ _ _ _

@[simp] theorem State.modDie_set (s : State) (d : Nat) (f : GalDie → GalDie) : s.modDie d f = s.setDie d (f (s.die d)) := rfl

@[simp] theorem State.setCon_rest (s : State) (n j : Nat) (x : Cons) :
    (s.setCon n x).pending = s.pending ∧
    (s.setCon n x).released = s.released ∧
    (s.setCon n x).held = s.held ∧
    (s.setCon n x).heldSessions = s.heldSessions ∧
    (s.setCon n x).now = s.now ∧
    (s.setCon n x).freeCtr = s.freeCtr ∧
    (s.setCon n x).out = s.out ∧
    (s.setCon n x).raised = s.raised ∧
    (s.setCon n x).mem = s.mem ∧
    (s.setCon n x).cores = s.cores ∧
    (s.setCon n x).troupes = s.troupes ∧
    (s.setCon n x).engines = s.engines ∧
    (s.setCon n x).stages = s.stages ∧
    (s.setCon n x).dies = s.dies ∧
    (s.setCon n x).vault = s.vault ∧
    (s.setCon n x).windows = s.windows ∧
    (s.setCon n x).jobSeq = s.jobSeq ∧
    (s.setCon n x).closeTick = s.closeTick ∧
    (s.setCon n x).nqs = s.nqs ∧
    (s.setCon n x).ensembles = s.ensembles ∧
    (s.setCon n x).mio = s.mio ∧
    (s.setCon n x).coll = s.coll ∧
    (s.setCon n x).cur = s.cur ∧
    (s.setCon n x).sec = s.sec ∧
    (s.setCon n x).mod = s.mod ∧
    (s.setCon n x).flash = s.flash ∧
    (s.setCon n x).core j = s.core j ∧
    (s.setCon n x).troupe j = s.troupe j ∧
    (s.setCon n x).engine j = s.engine j ∧
    (s.setCon n x).stage j = s.stage j ∧
    (s.setCon n x).die j = s.die j ∧
    (s.setCon n x).nq j = s.nq j ∧
    (s.setCon n x).ensemble j = s.ensemble j ∧
    (s.setCon n x).group j = s.group j ∧
    (s.setCon n x).assoc j = s.assoc j ∧
    (s.setCon n x).port j = s.port j ∧
    (s.setCon n x).slot j = s.slot j ∧
    (s.setCon n x).collOf j = s.collOf j ∧
    (s.setCon n x).mapping j = s.mapping j :=
  ⟨rfl, rfl, rfl, rfl, rfl, rfl, rfl, rfl, rfl, rfl, rfl, rfl, rfl, rfl, rfl, rfl, rfl, rfl, rfl, rfl, rfl, rfl, rfl, rfl, rfl, rfl, rfl, rfl, rfl, rfl, rfl, rfl, rfl, rfl, rfl, rfl, rfl, rfl, rfl⟩

@[simp] theorem State.setCon_con (s : State) (n j : Nat) (x : Cons) : (s.setCon n x).con j = if j = n then x else s.con j :=
  Tab.get_set _ _ _ _ _

@[simp] theorem State.modCon_set (s : State) (n : Nat) (f : Cons → Cons) : s.modCon n f = s.setCon n (f (s.con n)) := rfl

@[simp] theorem State.setNq_rest (s : State) (q j : Nat) (x : NQ) :
    (s.setNq q x).pending = s.pending ∧
    (s.setNq q x).released = s.released ∧
    (s.setNq q x).held = s.held ∧
    (s.setNq q x).heldSessions = s.heldSessions ∧
    (s.setNq q x).now = s.now ∧
    (s.setNq q x).freeCtr = s.freeCtr ∧
    (s.setNq q x).out = s.out ∧
    (s.setNq q x).raised = s.raised ∧
    (s.setNq q x).mem = s.mem ∧
    (s.setNq q x).cores = s.cores ∧
    (s.setNq q x).troupes = s.troupes ∧
    (s.setNq q x).engines = s.engines ∧
    (s.setNq q x).stages = s.stages ∧
    (s.setNq q x).dies = s.dies ∧
    (s.setNq q x).vault = s.vault ∧
    (s.setNq q x).cons = s.cons ∧
    (s.setNq q x).windows = s.windows ∧
    (s.setNq q x).jobSeq = s.jobSeq ∧
    (s.setNq q x).closeTick = s.closeTick ∧
    (s.setNq q x).ensembles = s.ensembles ∧
    (s.setNq q x).mio = s.mio ∧
    (s.setNq q x).coll = s.coll ∧
    (s.setNq q x).cur = s.cur ∧
    (s.setNq q x).sec = s.sec ∧
    (s.setNq q x).mod = s.mod ∧
    (s.setNq q x).flash = s.flash ∧
    (s.setNq q x).core j = s.core j ∧
    (s.setNq q x).troupe j = s.troupe j ∧
    (s.setNq q x).engine j = s.engine j ∧
    (s.setNq q x).stage j = s.stage j ∧
    (s.setNq q x).die j = s.die j ∧
    (s.setNq q x).con j = s.con j ∧
    (s.setNq q x).ensemble j = s.ensemble j ∧
    (s.setNq q x).group j = s.group j ∧
    (s.setNq q x).assoc j = s.assoc j ∧
    (s.setNq q x).port j = s.port j ∧
    (s.setNq q x).slot j = s.slot j ∧
    (s.setNq q x).collOf j = s.collOf j ∧
    (s.setNq q x).mapping j = s.mapping j :=
  ⟨rfl, rfl, rfl, rfl, rfl, rfl, rfl, rfl, rfl, rfl, rfl, rfl, rfl, rfl, rfl, rfl, rfl, rfl, rfl, rfl, rfl, rfl, rfl, rfl, rfl, rfl, rfl, rfl, rfl, rfl, rfl, rfl, rfl, rfl, rfl, rfl, rfl, rfl, rfl⟩

@[simp] theorem State.setNq_nq (s : State) (q j : Nat) (x : NQ) : (s.setNq q x).nq j = if j = q then x else s.nq j :=
  Tab.get_set _ _ _ _ _

@[simp] theorem State.modNq_set (s : State) (q : Nat) (f : NQ → NQ) : s.modNq q f = s.setNq q (f (s.nq q)) := rfl

@[simp] theorem State.setEnsemble_rest (s : State) (e j : Nat) (x : Ensemble) :
    (s.setEnsemble e x).pending = s.pending ∧
    (s.setEnsemble e x).released = s.released ∧
    (s.setEnsemble e x).held = s.held ∧
    (s.setEnsemble e x).heldSessions = s.heldSessions ∧
    (s.setEnsemble e x).now = s.now ∧
    (s.setEnsemble e x).freeCtr = s.freeCtr ∧
    (s.setEnsemble e x).out = s.out ∧
    (s.setEnsemble e x).raised = s.raised ∧
    (s.setEnsemble e x).mem = s.mem ∧
    (s.setEnsemble e x).cores = s.cores ∧
    (s.setEnsemble e x).troupes = s.troupes ∧
    (s.setEnsemble e x).engines = s.engines ∧
    (s.setEnsemble e x).stages = s.stages ∧
    (s.setEnsemble e x).dies = s.dies ∧
    (s.setEnsemble e x).vault = s.vault ∧
    (s.setEnsemble e x).cons = s.cons ∧
    (s.setEnsemble e x).windows = s.windows ∧
    (s.setEnsemble e x).jobSeq = s.jobSeq ∧
    (s.setEnsemble e x).closeTick = s.closeTick ∧
    (s.setEnsemble e x).nqs = s.nqs ∧
    (s.setEnsemble e x).mio = s.mio ∧
    (s.setEnsemble e x).coll = s.coll ∧
    (s.setEnsemble e x).cur = s.cur ∧
    (s.setEnsemble e x).sec = s.sec ∧
    (s.setEnsemble e x).mod = s.mod ∧
    (s.setEnsemble e x).flash = s.flash ∧
    (s.setEnsemble e x).core j = s.core j ∧
    (s.setEnsemble e x).troupe j = s.troupe j ∧
    (s.setEnsemble e x).engine j = s.engine j ∧
    (s.setEnsemble e x).stage j = s.stage j ∧
    (s.setEnsemble e x).die j = s.die j ∧
    (s.setEnsemble e x).con j = s.con j ∧
    (s.setEnsemble e x).nq j = s.nq j ∧
    (s.setEnsemble e x).group j = s.group j ∧
    (s.setEnsemble e x).assoc j = s.assoc j ∧
    (s.setEnsemble e x).port j = s.port j ∧
    (s.setEnsemble e x).slot j = s.slot j ∧
    (s.setEnsemble e x).collOf j = s.collOf j ∧
    (s.setEnsemble e x).mapping j = s.mapping j :=
  ⟨rfl, rfl, rfl, rfl, rfl, rfl, rfl, rfl, rfl, rfl, rfl, rfl, rfl, rfl, rfl, rfl, rfl, rfl, rfl, rfl, rfl, rfl, rfl, rfl, rfl, rfl, rfl, rfl, rfl, rfl, rfl, rfl, rfl, rfl, rfl, rfl, rfl, rfl, rfl⟩

@[simp] theorem State.setEnsemble_ensemble (s : State) (e j : Nat) (x : Ensemble) : (s.setEnsemble e x).ensemble j = if j = e then x else s.ensemble j :=
  Tab.get_set _ _ _ _ _

@[simp] theorem State.setGroup_rest (s : State) (g j : Nat) (x : VGroup) :
    (s.setGroup g x).pending = s.pending ∧
    (s.setGroup g x).released = s.released ∧
    (s.setGroup g x).held = s.held ∧
    (s.setGroup g x).heldSessions = s.heldSessions ∧
    (s.setGroup g x).now = s.now ∧
    (s.setGroup g x).freeCtr = s.freeCtr ∧
    (s.setGroup g x).out = s.out ∧
    (s.setGroup g x).raised = s.raised ∧
    (s.setGroup g x).mem = s.mem ∧
    (s.setGroup g x).cores = s.cores ∧
    (s.setGroup g x).troupes = s.troupes ∧
    (s.setGroup g x).engines = s.engines ∧
    (s.setGroup g x).stages = s.stages ∧
    (s.setGroup g x).dies = s.dies ∧
    (s.setGroup g x).cons = s.cons ∧
    (s.setGroup g x).windows = s.windows ∧
    (s.setGroup g x).jobSeq = s.jobSeq ∧
    (s.setGroup g x).closeTick = s.closeTick ∧
    (s.setGroup g x).nqs = s.nqs ∧
    (s.setGroup g x).ensembles = s.ensembles ∧
    (s.setGroup g x).mio = s.mio ∧
    (s.setGroup g x).coll = s.coll ∧
    (s.setGroup g x).cur = s.cur ∧
    (s.setGroup g x).sec = s.sec ∧
    (s.setGroup g x).mod = s.mod ∧
    (s.setGroup g x).flash = s.flash ∧
    (s.setGroup g x).vault.keyLive = s.vault.keyLive ∧
    (s.setGroup g x).vault.keyEpoch0 = s.vault.keyEpoch0 ∧
    (s.setGroup g x).vault.keyEpoch1 = s.vault.keyEpoch1 ∧
    (s.setGroup g x).vault.sweepActive = s.vault.sweepActive ∧
    (s.setGroup g x).vault.zeroFilled = s.vault.zeroFilled ∧
    (s.setGroup g x).vault.vaultNq = s.vault.vaultNq ∧
    (s.setGroup g x).vault.chErrLimit = s.vault.chErrLimit ∧
    (s.setGroup g x).vault.errWindowUs = s.vault.errWindowUs ∧
    (s.setGroup g x).core j = s.core j ∧
    (s.setGroup g x).troupe j = s.troupe j ∧
    (s.setGroup g x).engine j = s.engine j ∧
    (s.setGroup g x).stage j = s.stage j ∧
    (s.setGroup g x).die j = s.die j ∧
    (s.setGroup g x).con j = s.con j ∧
    (s.setGroup g x).nq j = s.nq j ∧
    (s.setGroup g x).ensemble j = s.ensemble j ∧
    (s.setGroup g x).assoc j = s.assoc j ∧
    (s.setGroup g x).port j = s.port j ∧
    (s.setGroup g x).slot j = s.slot j ∧
    (s.setGroup g x).collOf j = s.collOf j ∧
    (s.setGroup g x).mapping j = s.mapping j :=
  ⟨rfl, rfl, rfl, rfl, rfl, rfl, rfl, rfl, rfl, rfl, rfl, rfl, rfl, rfl, rfl, rfl, rfl, rfl, rfl, rfl, rfl, rfl, rfl, rfl, rfl, rfl, rfl, rfl, rfl, rfl, rfl, rfl, rfl, rfl, rfl, rfl, rfl, rfl, rfl, rfl, rfl, rfl, rfl, rfl, rfl, rfl, rfl⟩

@[simp] theorem State.setGroup_group (s : State) (g j : Nat) (x : VGroup) : (s.setGroup g x).group j = if j = g then x else s.group j :=
  Tab.get_set _ _ _ _ _

@[simp] theorem State.modGroup_set (s : State) (g : Nat) (f : VGroup → VGroup) : s.modGroup g f = s.setGroup g (f (s.group g)) := rfl

@[simp] theorem State.setAssoc_rest (s : State) (a j : Nat) (x : Assoc) :
    (s.setAssoc a x).pending = s.pending ∧
    (s.setAssoc a x).released = s.released ∧
    (s.setAssoc a x).held = s.held ∧
    (s.setAssoc a x).heldSessions = s.heldSessions ∧
    (s.setAssoc a x).now = s.now ∧
    (s.setAssoc a x).freeCtr = s.freeCtr ∧
    (s.setAssoc a x).out = s.out ∧
    (s.setAssoc a x).raised = s.raised ∧
    (s.setAssoc a x).mem = s.mem ∧
    (s.setAssoc a x).cores = s.cores ∧
    (s.setAssoc a x).troupes = s.troupes ∧
    (s.setAssoc a x).engines = s.engines ∧
    (s.setAssoc a x).stages = s.stages ∧
    (s.setAssoc a x).dies = s.dies ∧
    (s.setAssoc a x).vault = s.vault ∧
    (s.setAssoc a x).cons = s.cons ∧
    (s.setAssoc a x).windows = s.windows ∧
    (s.setAssoc a x).jobSeq = s.jobSeq ∧
    (s.setAssoc a x).closeTick = s.closeTick ∧
    (s.setAssoc a x).nqs = s.nqs ∧
    (s.setAssoc a x).ensembles = s.ensembles ∧
    (s.setAssoc a x).coll = s.coll ∧
    (s.setAssoc a x).cur = s.cur ∧
    (s.setAssoc a x).sec = s.sec ∧
    (s.setAssoc a x).mod = s.mod ∧
    (s.setAssoc a x).flash = s.flash ∧
    (s.setAssoc a x).mio.deviceNumber = s.mio.deviceNumber ∧
    (s.setAssoc a x).mio.devSet = s.mio.devSet ∧
    (s.setAssoc a x).mio.udpPort = s.mio.udpPort ∧
    (s.setAssoc a x).mio.linkNq = s.mio.linkNq ∧
    (s.setAssoc a x).mio.ecnEn = s.mio.ecnEn ∧
    (s.setAssoc a x).mio.targetQueueNs = s.mio.targetQueueNs ∧
    (s.setAssoc a x).mio.rtoMinUs = s.mio.rtoMinUs ∧
    (s.setAssoc a x).mio.reorderUs = s.mio.reorderUs ∧
    (s.setAssoc a x).mio.assocTimeoutMs = s.mio.assocTimeoutMs ∧
    (s.setAssoc a x).mio.probeUs = s.mio.probeUs ∧
    (s.setAssoc a x).mio.retransmits = s.mio.retransmits ∧
    (s.setAssoc a x).mio.authFails = s.mio.authFails ∧
    (s.setAssoc a x).mio.replayDrops = s.mio.replayDrops ∧
    (s.setAssoc a x).mio.ecnMarks = s.mio.ecnMarks ∧
    (s.setAssoc a x).mio.pathRetires = s.mio.pathRetires ∧
    (s.setAssoc a x).mio.landingBusy = s.mio.landingBusy ∧
    (s.setAssoc a x).mio.ports = s.mio.ports ∧
    (s.setAssoc a x).mio.mgmtAddrs = s.mio.mgmtAddrs ∧
    (s.setAssoc a x).mio.accession = s.mio.accession ∧
    (s.setAssoc a x).mio.migration = s.mio.migration ∧
    (s.setAssoc a x).mio.landing = s.mio.landing ∧
    (s.setAssoc a x).mio.descJobs = s.mio.descJobs ∧
    (s.setAssoc a x).core j = s.core j ∧
    (s.setAssoc a x).troupe j = s.troupe j ∧
    (s.setAssoc a x).engine j = s.engine j ∧
    (s.setAssoc a x).stage j = s.stage j ∧
    (s.setAssoc a x).die j = s.die j ∧
    (s.setAssoc a x).con j = s.con j ∧
    (s.setAssoc a x).nq j = s.nq j ∧
    (s.setAssoc a x).ensemble j = s.ensemble j ∧
    (s.setAssoc a x).group j = s.group j ∧
    (s.setAssoc a x).port j = s.port j ∧
    (s.setAssoc a x).slot j = s.slot j ∧
    (s.setAssoc a x).collOf j = s.collOf j ∧
    (s.setAssoc a x).mapping j = s.mapping j :=
  ⟨rfl, rfl, rfl, rfl, rfl, rfl, rfl, rfl, rfl, rfl, rfl, rfl, rfl, rfl, rfl, rfl, rfl, rfl, rfl, rfl, rfl, rfl, rfl, rfl, rfl, rfl, rfl, rfl, rfl, rfl, rfl, rfl, rfl, rfl, rfl, rfl, rfl, rfl, rfl, rfl, rfl, rfl, rfl, rfl, rfl, rfl, rfl, rfl, rfl, rfl, rfl, rfl, rfl, rfl, rfl, rfl, rfl, rfl, rfl, rfl, rfl⟩

@[simp] theorem State.setAssoc_assoc (s : State) (a j : Nat) (x : Assoc) : (s.setAssoc a x).assoc j = if j = a then x else s.assoc j :=
  Tab.get_set _ _ _ _ _

@[simp] theorem State.modAssoc_set (s : State) (a : Nat) (f : Assoc → Assoc) : s.modAssoc a f = s.setAssoc a (f (s.assoc a)) := rfl

@[simp] theorem State.setPort_rest (s : State) (p j : Nat) (x : Port) :
    (s.setPort p x).pending = s.pending ∧
    (s.setPort p x).released = s.released ∧
    (s.setPort p x).held = s.held ∧
    (s.setPort p x).heldSessions = s.heldSessions ∧
    (s.setPort p x).now = s.now ∧
    (s.setPort p x).freeCtr = s.freeCtr ∧
    (s.setPort p x).out = s.out ∧
    (s.setPort p x).raised = s.raised ∧
    (s.setPort p x).mem = s.mem ∧
    (s.setPort p x).cores = s.cores ∧
    (s.setPort p x).troupes = s.troupes ∧
    (s.setPort p x).engines = s.engines ∧
    (s.setPort p x).stages = s.stages ∧
    (s.setPort p x).dies = s.dies ∧
    (s.setPort p x).vault = s.vault ∧
    (s.setPort p x).cons = s.cons ∧
    (s.setPort p x).windows = s.windows ∧
    (s.setPort p x).jobSeq = s.jobSeq ∧
    (s.setPort p x).closeTick = s.closeTick ∧
    (s.setPort p x).nqs = s.nqs ∧
    (s.setPort p x).ensembles = s.ensembles ∧
    (s.setPort p x).coll = s.coll ∧
    (s.setPort p x).cur = s.cur ∧
    (s.setPort p x).sec = s.sec ∧
    (s.setPort p x).mod = s.mod ∧
    (s.setPort p x).flash = s.flash ∧
    (s.setPort p x).mio.deviceNumber = s.mio.deviceNumber ∧
    (s.setPort p x).mio.devSet = s.mio.devSet ∧
    (s.setPort p x).mio.udpPort = s.mio.udpPort ∧
    (s.setPort p x).mio.linkNq = s.mio.linkNq ∧
    (s.setPort p x).mio.ecnEn = s.mio.ecnEn ∧
    (s.setPort p x).mio.targetQueueNs = s.mio.targetQueueNs ∧
    (s.setPort p x).mio.rtoMinUs = s.mio.rtoMinUs ∧
    (s.setPort p x).mio.reorderUs = s.mio.reorderUs ∧
    (s.setPort p x).mio.assocTimeoutMs = s.mio.assocTimeoutMs ∧
    (s.setPort p x).mio.probeUs = s.mio.probeUs ∧
    (s.setPort p x).mio.retransmits = s.mio.retransmits ∧
    (s.setPort p x).mio.authFails = s.mio.authFails ∧
    (s.setPort p x).mio.replayDrops = s.mio.replayDrops ∧
    (s.setPort p x).mio.ecnMarks = s.mio.ecnMarks ∧
    (s.setPort p x).mio.pathRetires = s.mio.pathRetires ∧
    (s.setPort p x).mio.landingBusy = s.mio.landingBusy ∧
    (s.setPort p x).mio.mgmtAddrs = s.mio.mgmtAddrs ∧
    (s.setPort p x).mio.assocs = s.mio.assocs ∧
    (s.setPort p x).mio.accession = s.mio.accession ∧
    (s.setPort p x).mio.migration = s.mio.migration ∧
    (s.setPort p x).mio.landing = s.mio.landing ∧
    (s.setPort p x).mio.descJobs = s.mio.descJobs ∧
    (s.setPort p x).core j = s.core j ∧
    (s.setPort p x).troupe j = s.troupe j ∧
    (s.setPort p x).engine j = s.engine j ∧
    (s.setPort p x).stage j = s.stage j ∧
    (s.setPort p x).die j = s.die j ∧
    (s.setPort p x).con j = s.con j ∧
    (s.setPort p x).nq j = s.nq j ∧
    (s.setPort p x).ensemble j = s.ensemble j ∧
    (s.setPort p x).group j = s.group j ∧
    (s.setPort p x).assoc j = s.assoc j ∧
    (s.setPort p x).slot j = s.slot j ∧
    (s.setPort p x).collOf j = s.collOf j ∧
    (s.setPort p x).mapping j = s.mapping j :=
  ⟨rfl, rfl, rfl, rfl, rfl, rfl, rfl, rfl, rfl, rfl, rfl, rfl, rfl, rfl, rfl, rfl, rfl, rfl, rfl, rfl, rfl, rfl, rfl, rfl, rfl, rfl, rfl, rfl, rfl, rfl, rfl, rfl, rfl, rfl, rfl, rfl, rfl, rfl, rfl, rfl, rfl, rfl, rfl, rfl, rfl, rfl, rfl, rfl, rfl, rfl, rfl, rfl, rfl, rfl, rfl, rfl, rfl, rfl, rfl, rfl, rfl⟩

@[simp] theorem State.setPort_port (s : State) (p j : Nat) (x : Port) : (s.setPort p x).port j = if j = p then x else s.port j :=
  Tab.get_set _ _ _ _ _

@[simp] theorem State.modPort_set (s : State) (p : Nat) (f : Port → Port) : s.modPort p f = s.setPort p (f (s.port p)) := rfl

@[simp] theorem State.setSlot_rest (s : State) (k j : Nat) (x : Slot) :
    (s.setSlot k x).pending = s.pending ∧
    (s.setSlot k x).released = s.released ∧
    (s.setSlot k x).held = s.held ∧
    (s.setSlot k x).heldSessions = s.heldSessions ∧
    (s.setSlot k x).now = s.now ∧
    (s.setSlot k x).freeCtr = s.freeCtr ∧
    (s.setSlot k x).out = s.out ∧
    (s.setSlot k x).raised = s.raised ∧
    (s.setSlot k x).mem = s.mem ∧
    (s.setSlot k x).cores = s.cores ∧
    (s.setSlot k x).troupes = s.troupes ∧
    (s.setSlot k x).engines = s.engines ∧
    (s.setSlot k x).stages = s.stages ∧
    (s.setSlot k x).dies = s.dies ∧
    (s.setSlot k x).vault = s.vault ∧
    (s.setSlot k x).cons = s.cons ∧
    (s.setSlot k x).windows = s.windows ∧
    (s.setSlot k x).jobSeq = s.jobSeq ∧
    (s.setSlot k x).closeTick = s.closeTick ∧
    (s.setSlot k x).nqs = s.nqs ∧
    (s.setSlot k x).ensembles = s.ensembles ∧
    (s.setSlot k x).mio = s.mio ∧
    (s.setSlot k x).coll = s.coll ∧
    (s.setSlot k x).sec = s.sec ∧
    (s.setSlot k x).mod = s.mod ∧
    (s.setSlot k x).flash = s.flash ∧
    (s.setSlot k x).cur.sessions = s.cur.sessions ∧
    (s.setSlot k x).cur.nextSession = s.cur.nextSession ∧
    (s.setSlot k x).cur.slotSeq = s.cur.slotSeq ∧
    (s.setSlot k x).cur.rehearsal = s.cur.rehearsal ∧
    (s.setSlot k x).cur.cmdDrops = s.cur.cmdDrops ∧
    (s.setSlot k x).cur.slotExpired = s.cur.slotExpired ∧
    (s.setSlot k x).cur.prods = s.cur.prods ∧
    (s.setSlot k x).cur.attach = s.cur.attach ∧
    (s.setSlot k x).cur.ckptHolds = s.cur.ckptHolds ∧
    (s.setSlot k x).cur.phase = s.cur.phase ∧
    (s.setSlot k x).cur.failPhase = s.cur.failPhase ∧
    (s.setSlot k x).cur.failStatus = s.cur.failStatus ∧
    (s.setSlot k x).cur.catRejected = s.cur.catRejected ∧
    (s.setSlot k x).cur.catFull = s.cur.catFull ∧
    (s.setSlot k x).cur.catApplied = s.cur.catApplied ∧
    (s.setSlot k x).cur.deviceGen = s.cur.deviceGen ∧
    (s.setSlot k x).cur.deviceQueue = s.cur.deviceQueue ∧
    (s.setSlot k x).cur.deviceTag = s.cur.deviceTag ∧
    (s.setSlot k x).cur.deviceInReset = s.cur.deviceInReset ∧
    (s.setSlot k x).cur.updateState = s.cur.updateState ∧
    (s.setSlot k x).cur.stagedDigest = s.cur.stagedDigest ∧
    (s.setSlot k x).cur.stagedVersion = s.cur.stagedVersion ∧
    (s.setSlot k x).cur.fwQueue = s.cur.fwQueue ∧
    (s.setSlot k x).cur.cores = s.cur.cores ∧
    (s.setSlot k x).cur.takeovers = s.cur.takeovers ∧
    (s.setSlot k x).cur.coresDarkened = s.cur.coresDarkened ∧
    (s.setSlot k x).cur.phaseEnd = s.cur.phaseEnd ∧
    (s.setSlot k x).cur.resets = s.cur.resets ∧
    (s.setSlot k x).cur.wavesDone = s.cur.wavesDone ∧
    (s.setSlot k x).core j = s.core j ∧
    (s.setSlot k x).troupe j = s.troupe j ∧
    (s.setSlot k x).engine j = s.engine j ∧
    (s.setSlot k x).stage j = s.stage j ∧
    (s.setSlot k x).die j = s.die j ∧
    (s.setSlot k x).con j = s.con j ∧
    (s.setSlot k x).nq j = s.nq j ∧
    (s.setSlot k x).ensemble j = s.ensemble j ∧
    (s.setSlot k x).group j = s.group j ∧
    (s.setSlot k x).assoc j = s.assoc j ∧
    (s.setSlot k x).port j = s.port j ∧
    (s.setSlot k x).collOf j = s.collOf j ∧
    (s.setSlot k x).mapping j = s.mapping j :=
  ⟨rfl, rfl, rfl, rfl, rfl, rfl, rfl, rfl, rfl, rfl, rfl, rfl, rfl, rfl, rfl, rfl, rfl, rfl, rfl, rfl, rfl, rfl, rfl, rfl, rfl, rfl, rfl, rfl, rfl, rfl, rfl, rfl, rfl, rfl, rfl, rfl, rfl, rfl, rfl, rfl, rfl, rfl, rfl, rfl, rfl, rfl, rfl, rfl, rfl, rfl, rfl, rfl, rfl, rfl, rfl, rfl, rfl, rfl, rfl, rfl, rfl, rfl, rfl, rfl, rfl, rfl, rfl, rfl⟩

@[simp] theorem State.setSlot_slot (s : State) (k j : Nat) (x : Slot) : (s.setSlot k x).slot j = if j = k then x else s.slot j :=
  Tab.get_set _ _ _ _ _

@[simp] theorem State.setColl_rest (s : State) (k j : Nat) (x : Coll) :
    (s.setColl k x).pending = s.pending ∧
    (s.setColl k x).released = s.released ∧
    (s.setColl k x).held = s.held ∧
    (s.setColl k x).heldSessions = s.heldSessions ∧
    (s.setColl k x).now = s.now ∧
    (s.setColl k x).freeCtr = s.freeCtr ∧
    (s.setColl k x).out = s.out ∧
    (s.setColl k x).raised = s.raised ∧
    (s.setColl k x).mem = s.mem ∧
    (s.setColl k x).cores = s.cores ∧
    (s.setColl k x).troupes = s.troupes ∧
    (s.setColl k x).engines = s.engines ∧
    (s.setColl k x).stages = s.stages ∧
    (s.setColl k x).dies = s.dies ∧
    (s.setColl k x).vault = s.vault ∧
    (s.setColl k x).cons = s.cons ∧
    (s.setColl k x).windows = s.windows ∧
    (s.setColl k x).jobSeq = s.jobSeq ∧
    (s.setColl k x).closeTick = s.closeTick ∧
    (s.setColl k x).nqs = s.nqs ∧
    (s.setColl k x).ensembles = s.ensembles ∧
    (s.setColl k x).mio = s.mio ∧
    (s.setColl k x).cur = s.cur ∧
    (s.setColl k x).sec = s.sec ∧
    (s.setColl k x).mod = s.mod ∧
    (s.setColl k x).flash = s.flash ∧
    (s.setColl k x).coll.maps = s.coll.maps ∧
    (s.setColl k x).coll.runs = s.coll.runs ∧
    (s.setColl k x).coll.fails = s.coll.fails ∧
    (s.setColl k x).coll.timeouts = s.coll.timeouts ∧
    (s.setColl k x).coll.gnsBeta = s.coll.gnsBeta ∧
    (s.setColl k x).coll.gnsNq = s.coll.gnsNq ∧
    (s.setColl k x).coll.gnsDropped = s.coll.gnsDropped ∧
    (s.setColl k x).coll.gns = s.coll.gns ∧
    (s.setColl k x).core j = s.core j ∧
    (s.setColl k x).troupe j = s.troupe j ∧
    (s.setColl k x).engine j = s.engine j ∧
    (s.setColl k x).stage j = s.stage j ∧
    (s.setColl k x).die j = s.die j ∧
    (s.setColl k x).con j = s.con j ∧
    (s.setColl k x).nq j = s.nq j ∧
    (s.setColl k x).ensemble j = s.ensemble j ∧
    (s.setColl k x).group j = s.group j ∧
    (s.setColl k x).assoc j = s.assoc j ∧
    (s.setColl k x).port j = s.port j ∧
    (s.setColl k x).slot j = s.slot j ∧
    (s.setColl k x).mapping j = s.mapping j :=
  ⟨rfl, rfl, rfl, rfl, rfl, rfl, rfl, rfl, rfl, rfl, rfl, rfl, rfl, rfl, rfl, rfl, rfl, rfl, rfl, rfl, rfl, rfl, rfl, rfl, rfl, rfl, rfl, rfl, rfl, rfl, rfl, rfl, rfl, rfl, rfl, rfl, rfl, rfl, rfl, rfl, rfl, rfl, rfl, rfl, rfl, rfl, rfl⟩

@[simp] theorem State.setColl_collOf (s : State) (k j : Nat) (x : Coll) : (s.setColl k x).collOf j = if j = k then x else s.collOf j :=
  Tab.get_set _ _ _ _ _

@[simp] theorem State.setMapping_rest (s : State) (k j : Nat) (x : Mapping) :
    (s.setMapping k x).pending = s.pending ∧
    (s.setMapping k x).released = s.released ∧
    (s.setMapping k x).held = s.held ∧
    (s.setMapping k x).heldSessions = s.heldSessions ∧
    (s.setMapping k x).now = s.now ∧
    (s.setMapping k x).freeCtr = s.freeCtr ∧
    (s.setMapping k x).out = s.out ∧
    (s.setMapping k x).raised = s.raised ∧
    (s.setMapping k x).mem = s.mem ∧
    (s.setMapping k x).cores = s.cores ∧
    (s.setMapping k x).troupes = s.troupes ∧
    (s.setMapping k x).engines = s.engines ∧
    (s.setMapping k x).stages = s.stages ∧
    (s.setMapping k x).dies = s.dies ∧
    (s.setMapping k x).vault = s.vault ∧
    (s.setMapping k x).cons = s.cons ∧
    (s.setMapping k x).windows = s.windows ∧
    (s.setMapping k x).jobSeq = s.jobSeq ∧
    (s.setMapping k x).closeTick = s.closeTick ∧
    (s.setMapping k x).nqs = s.nqs ∧
    (s.setMapping k x).ensembles = s.ensembles ∧
    (s.setMapping k x).mio = s.mio ∧
    (s.setMapping k x).cur = s.cur ∧
    (s.setMapping k x).sec = s.sec ∧
    (s.setMapping k x).mod = s.mod ∧
    (s.setMapping k x).flash = s.flash ∧
    (s.setMapping k x).coll.colls = s.coll.colls ∧
    (s.setMapping k x).coll.runs = s.coll.runs ∧
    (s.setMapping k x).coll.fails = s.coll.fails ∧
    (s.setMapping k x).coll.timeouts = s.coll.timeouts ∧
    (s.setMapping k x).coll.gnsBeta = s.coll.gnsBeta ∧
    (s.setMapping k x).coll.gnsNq = s.coll.gnsNq ∧
    (s.setMapping k x).coll.gnsDropped = s.coll.gnsDropped ∧
    (s.setMapping k x).coll.gns = s.coll.gns ∧
    (s.setMapping k x).core j = s.core j ∧
    (s.setMapping k x).troupe j = s.troupe j ∧
    (s.setMapping k x).engine j = s.engine j ∧
    (s.setMapping k x).stage j = s.stage j ∧
    (s.setMapping k x).die j = s.die j ∧
    (s.setMapping k x).con j = s.con j ∧
    (s.setMapping k x).nq j = s.nq j ∧
    (s.setMapping k x).ensemble j = s.ensemble j ∧
    (s.setMapping k x).group j = s.group j ∧
    (s.setMapping k x).assoc j = s.assoc j ∧
    (s.setMapping k x).port j = s.port j ∧
    (s.setMapping k x).slot j = s.slot j ∧
    (s.setMapping k x).collOf j = s.collOf j :=
  ⟨rfl, rfl, rfl, rfl, rfl, rfl, rfl, rfl, rfl, rfl, rfl, rfl, rfl, rfl, rfl, rfl, rfl, rfl, rfl, rfl, rfl, rfl, rfl, rfl, rfl, rfl, rfl, rfl, rfl, rfl, rfl, rfl, rfl, rfl, rfl, rfl, rfl, rfl, rfl, rfl, rfl, rfl, rfl, rfl, rfl, rfl, rfl⟩

@[simp] theorem State.setMapping_mapping (s : State) (k j : Nat) (x : Mapping) : (s.setMapping k x).mapping j = if j = k then x else s.mapping j :=
  Tab.get_set _ _ _ _ _

@[simp] theorem State.modColl_set (s : State) (k : Nat) (f : Coll → Coll) : s.modColl k f = s.setColl k (f (s.collOf k)) := rfl

@[simp] theorem State.modRun_set (s : State) (k : Nat) (f : CollRun → CollRun) :
    s.modRun k f = s.setColl k { s.collOf k with now := (s.collOf k).now.map f } := rfl

@[simp] theorem State.modMapping_set (s : State) (m : Nat) (f : Mapping → Mapping) : s.modMapping m f = s.setMapping m (f (s.mapping m)) := rfl

@[simp] theorem State.modMig_rest (s : State) (f : Migration → Migration) (j : Nat) :
    (s.modMig f).pending = s.pending ∧
    (s.modMig f).released = s.released ∧
    (s.modMig f).held = s.held ∧
    (s.modMig f).heldSessions = s.heldSessions ∧
    (s.modMig f).now = s.now ∧
    (s.modMig f).freeCtr = s.freeCtr ∧
    (s.modMig f).out = s.out ∧
    (s.modMig f).raised = s.raised ∧
    (s.modMig f).mem = s.mem ∧
    (s.modMig f).cores = s.cores ∧
    (s.modMig f).troupes = s.troupes ∧
    (s.modMig f).engines = s.engines ∧
    (s.modMig f).stages = s.stages ∧
    (s.modMig f).dies = s.dies ∧
    (s.modMig f).vault = s.vault ∧
    (s.modMig f).cons = s.cons ∧
    (s.modMig f).windows = s.windows ∧
    (s.modMig f).jobSeq = s.jobSeq ∧
    (s.modMig f).closeTick = s.closeTick ∧
    (s.modMig f).nqs = s.nqs ∧
    (s.modMig f).ensembles = s.ensembles ∧
    (s.modMig f).coll = s.coll ∧
    (s.modMig f).cur = s.cur ∧
    (s.modMig f).sec = s.sec ∧
    (s.modMig f).mod = s.mod ∧
    (s.modMig f).flash = s.flash ∧
    (s.modMig f).core j = s.core j ∧
    (s.modMig f).troupe j = s.troupe j ∧
    (s.modMig f).engine j = s.engine j ∧
    (s.modMig f).stage j = s.stage j ∧
    (s.modMig f).die j = s.die j ∧
    (s.modMig f).con j = s.con j ∧
    (s.modMig f).nq j = s.nq j ∧
    (s.modMig f).ensemble j = s.ensemble j ∧
    (s.modMig f).group j = s.group j ∧
    (s.modMig f).assoc j = s.assoc j ∧
    (s.modMig f).port j = s.port j ∧
    (s.modMig f).slot j = s.slot j ∧
    (s.modMig f).collOf j = s.collOf j ∧
    (s.modMig f).mapping j = s.mapping j ∧
    (s.modMig f).mio.assocs = s.mio.assocs ∧
    (s.modMig f).mio.accession = s.mio.accession ∧
    (s.modMig f).mio.landing = s.mio.landing ∧
    (s.modMig f).mio.ports = s.mio.ports :=
  ⟨rfl, rfl, rfl, rfl, rfl, rfl, rfl, rfl, rfl, rfl, rfl, rfl, rfl, rfl, rfl, rfl, rfl, rfl, rfl, rfl, rfl, rfl, rfl, rfl, rfl, rfl, rfl, rfl, rfl, rfl, rfl, rfl, rfl, rfl, rfl, rfl, rfl, rfl, rfl, rfl, rfl, rfl, rfl, rfl⟩

@[simp] theorem State.modMig_migration (s : State) (f : Migration → Migration) : (s.modMig f).mio.migration = s.mio.migration.map f := rfl

@[simp] theorem State.modLanding_rest (s : State) (k : Nat) (id : BitVec 32) (f : Landing → Landing) (j : Nat) :
    (s.modLanding k id f).pending = s.pending ∧
    (s.modLanding k id f).released = s.released ∧
    (s.modLanding k id f).held = s.held ∧
    (s.modLanding k id f).heldSessions = s.heldSessions ∧
    (s.modLanding k id f).now = s.now ∧
    (s.modLanding k id f).freeCtr = s.freeCtr ∧
    (s.modLanding k id f).out = s.out ∧
    (s.modLanding k id f).raised = s.raised ∧
    (s.modLanding k id f).mem = s.mem ∧
    (s.modLanding k id f).cores = s.cores ∧
    (s.modLanding k id f).troupes = s.troupes ∧
    (s.modLanding k id f).engines = s.engines ∧
    (s.modLanding k id f).stages = s.stages ∧
    (s.modLanding k id f).dies = s.dies ∧
    (s.modLanding k id f).vault = s.vault ∧
    (s.modLanding k id f).cons = s.cons ∧
    (s.modLanding k id f).windows = s.windows ∧
    (s.modLanding k id f).jobSeq = s.jobSeq ∧
    (s.modLanding k id f).closeTick = s.closeTick ∧
    (s.modLanding k id f).nqs = s.nqs ∧
    (s.modLanding k id f).ensembles = s.ensembles ∧
    (s.modLanding k id f).coll = s.coll ∧
    (s.modLanding k id f).cur = s.cur ∧
    (s.modLanding k id f).sec = s.sec ∧
    (s.modLanding k id f).mod = s.mod ∧
    (s.modLanding k id f).flash = s.flash ∧
    (s.modLanding k id f).core j = s.core j ∧
    (s.modLanding k id f).troupe j = s.troupe j ∧
    (s.modLanding k id f).engine j = s.engine j ∧
    (s.modLanding k id f).stage j = s.stage j ∧
    (s.modLanding k id f).die j = s.die j ∧
    (s.modLanding k id f).con j = s.con j ∧
    (s.modLanding k id f).nq j = s.nq j ∧
    (s.modLanding k id f).ensemble j = s.ensemble j ∧
    (s.modLanding k id f).group j = s.group j ∧
    (s.modLanding k id f).assoc j = s.assoc j ∧
    (s.modLanding k id f).port j = s.port j ∧
    (s.modLanding k id f).slot j = s.slot j ∧
    (s.modLanding k id f).collOf j = s.collOf j ∧
    (s.modLanding k id f).mapping j = s.mapping j ∧
    (s.modLanding k id f).mio.assocs = s.mio.assocs ∧
    (s.modLanding k id f).mio.accession = s.mio.accession ∧
    (s.modLanding k id f).mio.migration = s.mio.migration ∧
    (s.modLanding k id f).mio.ports = s.mio.ports :=
  ⟨rfl, rfl, rfl, rfl, rfl, rfl, rfl, rfl, rfl, rfl, rfl, rfl, rfl, rfl, rfl, rfl, rfl, rfl, rfl, rfl, rfl, rfl, rfl, rfl, rfl, rfl, rfl, rfl, rfl, rfl, rfl, rfl, rfl, rfl, rfl, rfl, rfl, rfl, rfl, rfl, rfl, rfl, rfl, rfl⟩

/-- Raising notices changes nothing else. -/
@[simp] theorem State.raise_rest (s : State) (q : List Nat) (k : Nat) (u : URef) (st : Status) (tag j : Nat) (p : List Byte) :
    (s.raise q k u st tag p).pending = s.pending ∧
    (s.raise q k u st tag p).released = s.released ∧
    (s.raise q k u st tag p).held = s.held ∧
    (s.raise q k u st tag p).heldSessions = s.heldSessions ∧
    (s.raise q k u st tag p).now = s.now ∧
    (s.raise q k u st tag p).freeCtr = s.freeCtr ∧
    (s.raise q k u st tag p).out = s.out ∧
    (s.raise q k u st tag p).mem = s.mem ∧
    (s.raise q k u st tag p).cores = s.cores ∧
    (s.raise q k u st tag p).troupes = s.troupes ∧
    (s.raise q k u st tag p).engines = s.engines ∧
    (s.raise q k u st tag p).stages = s.stages ∧
    (s.raise q k u st tag p).dies = s.dies ∧
    (s.raise q k u st tag p).vault = s.vault ∧
    (s.raise q k u st tag p).cons = s.cons ∧
    (s.raise q k u st tag p).windows = s.windows ∧
    (s.raise q k u st tag p).jobSeq = s.jobSeq ∧
    (s.raise q k u st tag p).closeTick = s.closeTick ∧
    (s.raise q k u st tag p).nqs = s.nqs ∧
    (s.raise q k u st tag p).ensembles = s.ensembles ∧
    (s.raise q k u st tag p).mio = s.mio ∧
    (s.raise q k u st tag p).coll = s.coll ∧
    (s.raise q k u st tag p).cur = s.cur ∧
    (s.raise q k u st tag p).sec = s.sec ∧
    (s.raise q k u st tag p).mod = s.mod ∧
    (s.raise q k u st tag p).flash = s.flash ∧
    (s.raise q k u st tag p).core j = s.core j ∧
    (s.raise q k u st tag p).troupe j = s.troupe j ∧
    (s.raise q k u st tag p).engine j = s.engine j ∧
    (s.raise q k u st tag p).stage j = s.stage j ∧
    (s.raise q k u st tag p).die j = s.die j ∧
    (s.raise q k u st tag p).con j = s.con j ∧
    (s.raise q k u st tag p).nq j = s.nq j ∧
    (s.raise q k u st tag p).ensemble j = s.ensemble j ∧
    (s.raise q k u st tag p).group j = s.group j ∧
    (s.raise q k u st tag p).assoc j = s.assoc j ∧
    (s.raise q k u st tag p).port j = s.port j ∧
    (s.raise q k u st tag p).slot j = s.slot j ∧
    (s.raise q k u st tag p).collOf j = s.collOf j ∧
    (s.raise q k u st tag p).mapping j = s.mapping j :=
  ⟨rfl, rfl, rfl, rfl, rfl, rfl, rfl, rfl, rfl, rfl, rfl, rfl, rfl, rfl, rfl, rfl, rfl, rfl, rfl, rfl, rfl, rfl, rfl, rfl, rfl, rfl, rfl, rfl, rfl, rfl, rfl, rfl, rfl, rfl, rfl, rfl, rfl, rfl, rfl, rfl⟩

end Sys2Proof.Machine
end

