-- ==== Sys2Proof/Laws/Keeps.lean ====
section
/-! SUPPORT. What no command changes: the relation `Keeps` between the state before and the state after, with rules to build it along
the text of a definition. -/

namespace Sys2Proof.Machine

/-- The fields of the module that only power events and POWER_CAP_SET touch. -/
abbrev Module.view (m : Module) : Power × Bool × Bool × BitVec 12 := (m.power, m.pwrOk, m.tripped, m.powerCapW)

/-- The fields of flash that are written once, and the runtime Catalogue. -/
abbrev Flash.view (f : Flash) : List (BitVec 128) × List (BitVec 128) × List Byte × Bool × List (BitVec 128) :=
  (f.fuseCat, f.moduleCat, f.serial, f.runtimeValid, f.runtimeCat)

/-- What every command keeps from `s` to `t`. -/
structure Keeps (s t : State) : Prop where
  pending  : t.pending = s.pending
  mem      : Memory.wf s.mem = true → Memory.wf t.mem = true
  fuse     : t.flash.fuseCat = s.flash.fuseCat
  module   : t.flash.moduleCat = s.flash.moduleCat
  serial   : t.flash.serial = s.flash.serial
  runtime  : s.flash.runtimeValid = true → t.flash.runtimeValid = true ∧ s.flash.runtimeCat <+: t.flash.runtimeCat
  version  : s.sec.secVersion.toNat ≤ t.sec.secVersion.toNat
  out      : s.out <+: t.out
  sound    : s.mod.sound → t.mod.sound
  sessions : s.cur.sessions.length ≤ 64 → t.cur.sessions.length ≤ 64

theorem Keeps.refl (s : State) : Keeps s s :=
  ⟨rfl, id, rfl, rfl, rfl, fun h => ⟨h, List.prefix_rfl⟩, Nat.le_refl _, List.prefix_rfl, id, id⟩

theorem Keeps.trans {a b c : State} (h : Keeps a b) (k : Keeps b c) : Keeps a c :=
  ⟨k.pending.trans h.pending, fun x => k.mem (h.mem x), k.fuse.trans h.fuse, k.module.trans h.module, k.serial.trans h.serial,
    fun x => ⟨(k.runtime (h.runtime x).1).1, (h.runtime x).2.trans (k.runtime (h.runtime x).1).2⟩, Nat.le_trans h.version k.version,
    h.out.trans k.out, fun x => k.sound (h.sound x), fun x => k.sessions (h.sessions x)⟩

/-- An update that leaves what `Keeps` speaks of. -/
theorem Keeps.upd {s0 s : State} {a2 a3 a4 a5 a6 a8 b1 b2 b3 b4 b5 b6 b7 b8 b9 c1 c2 c3 c4 c5 cur sec mod flash} (h : Keeps s0 s)
    (hc : cur.sessions = s.cur.sessions) (hs : sec.secVersion = s.sec.secVersion) (hm : mod.view = s.mod.view)
    (hf : flash.view = s.flash.view) :
    Keeps s0 (State.mk s.pending a2 a3 a4 a5 a6 s.out a8 s.mem b1 b2 b3 b4 b5 b6 b7 b8 b9 c1 c2 c3 c4 c5 cur sec mod flash) := by
  simp only [Flash.view, Module.view, Prod.mk.injEq] at hf hm
  obtain ⟨f1, f2, f3, f4, f5⟩ := hf
  obtain ⟨m1, m2, m3, m4⟩ := hm
  refine h.trans ⟨rfl, id, f1, f2, f3, fun x => ?_, ?_, List.prefix_rfl, fun x => ?_, fun x => ?_⟩
  · simp only [f4, f5]; exact ⟨x, List.prefix_rfl⟩
  · simp only [hs]; exact Nat.le_refl _
  · simp only [Module.sound] at x ⊢; rw [m1, m2, m3, m4]; exact x
  · simp only [hc]; exact x

/-- The same, with more output. -/
theorem Keeps.push {s0 s : State} {o l a2 a3 a4 a5 a6 a8 b1 b2 b3 b4 b5 b6 b7 b8 b9 c1 c2 c3 c4 c5 cur sec mod flash} (h : Keeps s0 s)
    (hc : cur.sessions = s.cur.sessions) (hs : sec.secVersion = s.sec.secVersion) (hm : mod.view = s.mod.view)
    (hf : flash.view = s.flash.view) (ho : o = s.out) :
    Keeps s0 (State.mk s.pending a2 a3 a4 a5 a6 (o ++ l) a8 s.mem b1 b2 b3 b4 b5 b6 b7 b8 b9 c1 c2 c3 c4 c5 cur sec mod flash) :=
  ho ▸ (h.trans ⟨rfl, id, rfl, rfl, rfl, fun x => ⟨x, List.prefix_rfl⟩, Nat.le_refl _, List.prefix_append _ _, id, id⟩ :
    Keeps s0 { s with out := s.out ++ l }).upd hc hs hm hf

/-! ## Results that carry a state -/

/-- The state is the first of a pair, or the second. -/
def KeepsL {α : Type} (s : State) (p : State × α) : Prop := Keeps s p.1
def KeepsR {α : Type} (s : State) (p : α × State) : Prop := Keeps s p.2
/-- The state is the last of three. -/
def KeepsR3 {α β : Type} (s : State) (p : α × β × State) : Prop := Keeps s p.2.2
/-- Where there is a result. -/
def IfOk {ε α : Type} (P : α → Prop) (r : Except ε α) : Prop := ∀ a, r = .ok a → P a
/-- Where there is a result, and where there is an error. -/
def Both {ε α : Type} (Q : ε → Prop) (P : α → Prop) (r : Except ε α) : Prop := (∀ a, r = .ok a → P a) ∧ (∀ e, r = .error e → Q e)
def IfSome {α : Type} (P : α → Prop) (r : Option α) : Prop := ∀ a, r = some a → P a
/-- Where there is a next state. -/
def IfNext (P : State → Prop) (r : Out1) : Prop := ∀ t, r = .next t → P t

theorem KeepsL.mk {α : Type} {s t : State} {x : α} (h : Keeps s t) : KeepsL s (t, x) := h
theorem KeepsR.mk {α : Type} {s t : State} {x : α} (h : Keeps s t) : KeepsR s (x, t) := h
theorem KeepsR3.mk {α β : Type} {s t : State} {x : α} {y : β} (h : Keeps s t) : KeepsR3 s (x, y, t) := h
theorem IfOk.ok {ε α : Type} {P : α → Prop} {a : α} (h : P a) : IfOk P (.ok a : Except ε α) := by rintro _ ⟨⟩; exact h
theorem IfOk.error {ε α : Type} {P : α → Prop} {e : ε} : IfOk P (.error e : Except ε α) := by rintro _ ⟨⟩
theorem Both.ok {ε α : Type} {Q : ε → Prop} {P : α → Prop} {a : α} (h : P a) : Both Q P (.ok a : Except ε α) :=
  ⟨by rintro _ ⟨⟩; exact h, by rintro _ ⟨⟩⟩
theorem Both.error {ε α : Type} {Q : ε → Prop} {P : α → Prop} {e : ε} (h : Q e) : Both Q P (.error e : Except ε α) :=
  ⟨by rintro _ ⟨⟩, by rintro _ ⟨⟩; exact h⟩
theorem IfSome.some {α : Type} {P : α → Prop} {a : α} (h : P a) : IfSome P (some a) := by rintro _ ⟨⟩; exact h
theorem IfSome.none {α : Type} {P : α → Prop} : IfSome P (none : Option α) := by rintro _ ⟨⟩
theorem IfNext.next {P : State → Prop} {t : State} (h : P t) : IfNext P (.next t) := by rintro _ ⟨⟩; exact h

/-! ## A result named by an equation -/

theorem KeepsL.get {α : Type} {s t : State} {x : α} {p : State × α} (e : p = (t, x)) (h : KeepsL s p) : Keeps s t := by subst e; exact h
theorem KeepsR.get {α : Type} {s t : State} {x : α} {p : α × State} (e : p = (x, t)) (h : KeepsR s p) : Keeps s t := by subst e; exact h
theorem KeepsR3.get {α β : Type} {s t : State} {x : α} {y : β} {p : α × β × State} (e : p = (x, y, t)) (h : KeepsR3 s p) : Keeps s t := by
  subst e; exact h
theorem KeepsL.fst {α : Type} {s : State} {p : State × α} (h : KeepsL s p) : Keeps s p.1 := h
theorem KeepsR.snd {α : Type} {s : State} {p : α × State} (h : KeepsR s p) : Keeps s p.2 := h
theorem KeepsR3.last {α β : Type} {s : State} {p : α × β × State} (h : KeepsR3 s p) : Keeps s p.2.2 := h
theorem IfOk.get {ε : Type} {s t : State} {r : Except ε State} (e : r = .ok t) (h : IfOk (Keeps s) r) : Keeps s t := h t e
theorem IfOk.getL {ε α : Type} {s t : State} {x : α} {r : Except ε (State × α)} (e : r = .ok (t, x)) (h : IfOk (KeepsL s) r) : Keeps s t :=
  h _ e
theorem IfOk.getR {ε α : Type} {s t : State} {x : α} {r : Except ε (α × State)} (e : r = .ok (x, t)) (h : IfOk (KeepsR s) r) : Keeps s t :=
  h _ e
theorem Both.get {ε : Type} {Q : ε → Prop} {s t : State} {r : Except ε State} (e : r = .ok t) (h : Both Q (Keeps s) r) : Keeps s t := h.1 t e
theorem Both.getR {ε α : Type} {Q : ε → Prop} {s t : State} {x : α} {r : Except ε (α × State)} (e : r = .ok (x, t))
    (h : Both Q (KeepsR s) r) : Keeps s t := h.1 _ e
theorem Both.getR3 {ε α β : Type} {Q : ε → Prop} {s t : State} {x : α} {y : β} {r : Except ε (α × β × State)} (e : r = .ok (x, y, t))
    (h : Both Q (KeepsR3 s) r) : Keeps s t := h.1 _ e
theorem Both.errR {ε α : Type} {P : ε → Prop} {s t : State} {x : α} {r : Except (α × State) ε} (e : r = .error (x, t))
    (h : Both (KeepsR s) P r) : Keeps s t := h.2 _ e
theorem IfSome.get {s t : State} {r : Option State} (e : r = Option.some t) (h : IfSome (Keeps s) r) : Keeps s t := h t e
theorem IfSome.getL {α : Type} {s t : State} {x : α} {r : Option (State × α)} (e : r = Option.some (t, x)) (h : IfSome (KeepsL s) r) : Keeps s t :=
  h _ e

/-! ## Loops -/

theorem Keeps.foldl {α : Type} {s0 s : State} {f : State → α → State} {l : List α} (h : Keeps s0 s)
    (k : ∀ s x, Keeps s0 s → Keeps s0 (f s x)) : Keeps s0 (l.foldl f s) := by
  induction l generalizing s with
  | nil => exact h
  | cons x t ih => exact ih (k s x h)

/-! ## Memory -/

theorem State.poke_keeps {s0 s : State} {a : Nat} {b : List Byte} (h : Keeps s0 s) : Keeps s0 (s.poke a b) :=
  h.trans ⟨rfl, Memory.write_wf a b, rfl, rfl, rfl, fun x => ⟨x, List.prefix_rfl⟩, Nat.le_refl _, List.prefix_rfl, id, id⟩

theorem State.zeroMem_keeps {s0 s : State} {a n : Nat} (h : Keeps s0 s) : Keeps s0 (s.zeroMem a n) :=
  h.trans ⟨rfl, Memory.zero_wf a n, rfl, rfl, rfl, fun x => ⟨x, List.prefix_rfl⟩, Nat.le_refl _, List.prefix_rfl, id, id⟩

end Sys2Proof.Machine
end

