-- ==== Sys2Proof/Laws/KeepsBase.lean ====
section
/-! SUPPORT. What the operations of Ops, Notices, LinAlg, Shards, Gallery, Vault, Flags, Operands leave alone: each keeps the
relation Keeps to an earlier state, whatever its operands. -/

namespace Sys2Proof.Machine

theorem State.setCore_keeps {s0 s : State} {c x} (hs : Keeps s0 s) :
    Keeps s0 (State.setCore s c x) := hs.upd rfl rfl rfl rfl

theorem State.modCore_keeps {s0 s : State} {c f} (hs : Keeps s0 s) :
    Keeps s0 (State.modCore s c f) := hs.upd rfl rfl rfl rfl

theorem State.setTroupe_keeps {s0 s : State} {t x} (hs : Keeps s0 s) :
    Keeps s0 (State.setTroupe s t x) := hs.upd rfl rfl rfl rfl

theorem State.modTroupe_keeps {s0 s : State} {t f} (hs : Keeps s0 s) :
    Keeps s0 (State.modTroupe s t f) := hs.upd rfl rfl rfl rfl

theorem State.setEngine_keeps {s0 s : State} {t x} (hs : Keeps s0 s) :
    Keeps s0 (State.setEngine s t x) := hs.upd rfl rfl rfl rfl

theorem State.modEngine_keeps {s0 s : State} {t f} (hs : Keeps s0 s) :
    Keeps s0 (State.modEngine s t f) := hs.upd rfl rfl rfl rfl

theorem State.setStage_keeps {s0 s : State} {t x} (hs : Keeps s0 s) :
    Keeps s0 (State.setStage s t x) := hs.upd rfl rfl rfl rfl

theorem State.modStage_keeps {s0 s : State} {t f} (hs : Keeps s0 s) :
    Keeps s0 (State.modStage s t f) := hs.upd rfl rfl rfl rfl

theorem State.setDie_keeps {s0 s : State} {d x} (hs : Keeps s0 s) :
    Keeps s0 (State.setDie s d x) := hs.upd rfl rfl rfl rfl

theorem State.modDie_keeps {s0 s : State} {d f} (hs : Keeps s0 s) :
    Keeps s0 (State.modDie s d f) := hs.upd rfl rfl rfl rfl

theorem State.setCon_keeps {s0 s : State} {n x} (hs : Keeps s0 s) :
    Keeps s0 (State.setCon s n x) := hs.upd rfl rfl rfl rfl

theorem State.modCon_keeps {s0 s : State} {n f} (hs : Keeps s0 s) :
    Keeps s0 (State.modCon s n f) := hs.upd rfl rfl rfl rfl

theorem State.setNq_keeps {s0 s : State} {q x} (hs : Keeps s0 s) :
    Keeps s0 (State.setNq s q x) := hs.upd rfl rfl rfl rfl

theorem State.modNq_keeps {s0 s : State} {q f} (hs : Keeps s0 s) :
    Keeps s0 (State.modNq s q f) := hs.upd rfl rfl rfl rfl

theorem State.setGroup_keeps {s0 s : State} {g x} (hs : Keeps s0 s) :
    Keeps s0 (State.setGroup s g x) := hs.upd rfl rfl rfl rfl

theorem State.modGroup_keeps {s0 s : State} {g f} (hs : Keeps s0 s) :
    Keeps s0 (State.modGroup s g f) := hs.upd rfl rfl rfl rfl

theorem State.setEnsemble_keeps {s0 s : State} {e x} (hs : Keeps s0 s) :
    Keeps s0 (State.setEnsemble s e x) := hs.upd rfl rfl rfl rfl

theorem State.setAssoc_keeps {s0 s : State} {a x} (hs : Keeps s0 s) :
    Keeps s0 (State.setAssoc s a x) := hs.upd rfl rfl rfl rfl

theorem State.modAssoc_keeps {s0 s : State} {a f} (hs : Keeps s0 s) :
    Keeps s0 (State.modAssoc s a f) := hs.upd rfl rfl rfl rfl

theorem State.setPort_keeps {s0 s : State} {p x} (hs : Keeps s0 s) :
    Keeps s0 (State.setPort s p x) := hs.upd rfl rfl rfl rfl

theorem State.modPort_keeps {s0 s : State} {p f} (hs : Keeps s0 s) :
    Keeps s0 (State.modPort s p f) := hs.upd rfl rfl rfl rfl

theorem State.setSlot_keeps {s0 s : State} {k x} (hs : Keeps s0 s) :
    Keeps s0 (State.setSlot s k x) := hs.upd rfl rfl rfl rfl

theorem State.setColl_keeps {s0 s : State} {k x} (hs : Keeps s0 s) :
    Keeps s0 (State.setColl s k x) := hs.upd rfl rfl rfl rfl

theorem State.setMapping_keeps {s0 s : State} {k x} (hs : Keeps s0 s) :
    Keeps s0 (State.setMapping s k x) := hs.upd rfl rfl rfl rfl

theorem State.raise_keeps {s0 s : State} {queues kind src status tag payload} (hs : Keeps s0 s) :
    Keeps s0 (State.raise s queues kind src status tag payload) := hs.upd rfl rfl rfl rfl

theorem State.pokeNum_keeps {s0 s : State} {a n v} (hs : Keeps s0 s) :
    Keeps s0 (State.pokeNum s a n v) := by
  unfold State.pokeNum
  repeat' (with_reducible first | assumption | refine State.poke_keeps ?_)

theorem State.vaultWritten_keeps {s0 s : State} {a n} (hs : Keeps s0 s) :
    Keeps s0 (State.vaultWritten s a n) := by
  unfold State.vaultWritten
  repeat' (with_reducible first
    | assumption | extract_lets | refine State.setGroup_keeps ?_ | refine Keeps.foldl ?_ ?_ | split | (intro _))

theorem State.galleryWritten_keeps {s0 s : State} {a n} (hs : Keeps s0 s) :
    Keeps s0 (State.galleryWritten s a n) := by
  unfold State.galleryWritten
  repeat' (with_reducible first | assumption | refine State.modDie_keeps ?_ | refine Keeps.foldl ?_ ?_ | split | (intro _))

theorem State.store_keeps {s0 s : State} {a b} (hs : Keeps s0 s) :
    Keeps s0 (State.store s a b) := by
  unfold State.store
  repeat' (with_reducible first
    | assumption | extract_lets | refine State.vaultWritten_keeps ?_ | refine State.poke_keeps ?_
    | refine State.galleryWritten_keeps ?_ | split)

theorem State.writeMem_keeps {s0 s : State} {w a b} (hs : Keeps s0 s) :
    IfOk (Keeps s0) (State.writeMem s w a b) := by
  unfold State.writeMem
  repeat' (with_reducible first | assumption | refine IfOk.ok ?_ | exact IfOk.error | refine State.store_keeps ?_ | split)

theorem State.doorCount_keeps {s0 s : State} {st} (hs : Keeps s0 s) :
    Keeps s0 (State.doorCount s st) := hs.upd rfl rfl rfl rfl

theorem State.doorAt_keeps {s0 s : State} {a e} (hs : Keeps s0 s) :
    Keeps s0 (State.doorAt s a e) := by
  unfold State.doorAt
  repeat' (with_reducible first | assumption | refine State.doorCount_keeps ?_ | split)

theorem State.vaultLostRead_keeps {s0 s : State} {g} (hs : Keeps s0 s) :
    Keeps s0 (State.vaultLostRead s g) := hs.upd rfl rfl rfl rfl

theorem State.countRead_keeps {s0 s : State} {a n e} (hs : Keeps s0 s) :
    Keeps s0 (State.countRead s a n e) := by
  unfold State.countRead
  repeat' (with_reducible first
    | assumption | refine State.doorAt_keeps ?_ | refine State.vaultLostRead_keeps ?_ | refine Keeps.foldl ?_ ?_ | split | (intro _))

theorem State.countFirst_keeps {s0 s : State} {l} (hs : Keeps s0 s) :
    Keeps s0 (State.countFirst s l) := by
  unfold State.countFirst
  repeat' (with_reducible first | assumption | refine State.countRead_keeps ?_ | split)

theorem State.countWrite_keeps {s0 s : State} {a n e} (hs : Keeps s0 s) :
    Keeps s0 (State.countWrite s a n e) := by
  unfold State.countWrite
  repeat' (with_reducible first
    | assumption | refine State.doorAt_keeps ?_ | refine State.vaultLostRead_keeps ?_ | refine Keeps.foldl ?_ ?_ | split | (intro _))

theorem State.hold_keeps {s0 s : State} {c i} (hs : Keeps s0 s) :
    Keeps s0 (State.hold s c i) := hs.upd rfl rfl rfl rfl

theorem State.fresh_keeps {s0 s : State} (hs : Keeps s0 s) :
    Keeps s0 (State.fresh s) := hs.upd rfl rfl rfl rfl

theorem State.scribble_keeps {s0 s : State} {a n} (hs : Keeps s0 s) :
    Keeps s0 (State.scribble s a n) := by
  unfold State.scribble
  repeat' (with_reducible first
    | assumption | refine State.writeMem_keeps ?_ | refine State.fresh_keeps ?_ | refine IfOk.get (by assumption) ?_ | split)

theorem State.fault_keeps {s0 s : State} {f} (hs : Keeps s0 s) :
    Keeps s0 (State.fault s f) := hs.upd rfl rfl rfl rfl

theorem State.doorNotice_keeps {s0 s : State} {event r scope wipe oldGen newGen extra} (hs : Keeps s0 s) :
    Keeps s0 (State.doorNotice s event r scope wipe oldGen newGen extra) := hs.upd rfl rfl rfl rfl

theorem State.discardNotice_keeps {s0 s : State} {c kind oldGen newGen peer} (hs : Keeps s0 s) :
    Keeps s0 (State.discardNotice s c kind oldGen newGen peer) := hs.upd rfl rfl rfl rfl

theorem State.vaultNotice_keeps {s0 s : State} {event st group channel gstate addr count} (hs : Keeps s0 s) :
    Keeps s0 (State.vaultNotice s event st group channel gstate addr count) := hs.upd rfl rfl rfl rfl

theorem State.entropyNotice_keeps {s0 s : State} {t event forced} (hs : Keeps s0 s) :
    Keeps s0 (State.entropyNotice s t event forced) := hs.upd rfl rfl rfl rfl

theorem State.record_keeps {s0 s : State} {kind loc event} (hs : Keeps s0 s) : KeepsL s0 (State.record s kind loc event) := by
  unfold State.record
  extract_lets e old
  split
  · refine hs.trans ⟨rfl, id, rfl, rfl, rfl, fun x => ⟨rfl, ?_⟩, Nat.le_refl _, List.prefix_rfl, id, id⟩
    simp only [old, x, if_true]
    exact List.prefix_append _ _
  · split
    · exact hs
    · exact State.fault_keeps (Keeps.upd hs rfl rfl rfl rfl)

theorem State.nqPut_keeps {s0 s : State} {q b} (hs : Keeps s0 s) :
    Keeps s0 (State.nqPut s q b) := by
  unfold State.nqPut
  repeat' (with_reducible first
    | assumption | refine State.writeMem_keeps ?_ | refine State.modNq_keeps ?_ | refine IfOk.get (by assumption) ?_ | split
    | refine Keeps.upd ?_ rfl rfl rfl rfl)

theorem State.putGap_keeps {s0 s : State} {q cause seq count} (hs : Keeps s0 s) :
    Keeps s0 (State.putGap s q cause seq count) := by
  unfold State.putGap
  repeat' (with_reducible first | assumption | refine State.nqPut_keeps ?_ | refine State.modNq_keeps ?_)

theorem State.closeGap_keeps {s0 s : State} {q} (hs : Keeps s0 s) :
    Keeps s0 (State.closeGap s q) := by
  unfold State.closeGap
  repeat' (with_reducible first | assumption | extract_lets | refine State.modNq_keeps ?_ | refine State.putGap_keeps ?_ | split)

theorem State.flushGap_keeps {s0 s : State} {q} (hs : Keeps s0 s) :
    Keeps s0 (State.flushGap s q) := by
  unfold State.flushGap
  repeat' (with_reducible first | assumption | extract_lets | refine State.modNq_keeps ?_ | refine State.putGap_keeps ?_ | split)

theorem State.putRecord_keeps {s0 s : State} {q x seq} (hs : Keeps s0 s) :
    Keeps s0 (State.putRecord s q x seq) := by
  unfold State.putRecord
  repeat' (with_reducible first
    | assumption | refine State.nqPut_keeps ?_ | refine State.modNq_keeps ?_ | refine State.closeGap_keeps ?_ | split
    | refine Keeps.upd ?_ rfl rfl rfl rfl)

theorem State.offer_keeps {s0 s : State} {x} (hs : Keeps s0 s) :
    Keeps s0 (State.offer s x) := by
  unfold State.offer
  repeat' (with_reducible first
    | assumption | extract_lets | refine State.flushGap_keeps ?_ | refine State.modNq_keeps ?_ | refine State.putRecord_keeps ?_
    | split)

theorem execNoticeOffer_keeps {s0 s : State} (hs : Keeps s0 s) :
    IfNext (Keeps s0) (execNoticeOffer s) := by
  unfold execNoticeOffer
  repeat' (with_reducible first
    | assumption | refine IfNext.next ?_ | refine State.offer_keeps ?_ | split | refine Keeps.upd ?_ rfl rfl rfl rfl)

theorem State.nqConfig_keeps {s0 s : State} {q v} (hs : Keeps s0 s) :
    Keeps s0 (State.nqConfig s q v) := by
  unfold State.nqConfig
  repeat' (with_reducible first | assumption | extract_lets | refine State.setNq_keeps ?_ | split)

theorem execNqConfigWrite_keeps {s0 s : State} {q v} (hs : Keeps s0 s) :
    IfNext (Keeps s0) (execNqConfigWrite q v s) := by
  unfold execNqConfigWrite
  repeat' (with_reducible first | assumption | refine IfNext.next ?_ | refine State.nqConfig_keeps ?_ | split)

theorem State.nqHead_keeps {s0 s : State} {q v} (hs : Keeps s0 s) :
    Keeps s0 (State.nqHead s q v) := by
  unfold State.nqHead
  repeat' (with_reducible first | assumption | extract_lets | refine State.closeGap_keeps ?_ | refine State.setNq_keeps ?_ | split)

theorem execNqHeadWrite_keeps {s0 s : State} {q v} (hs : Keeps s0 s) :
    IfNext (Keeps s0) (execNqHeadWrite q v s) := by
  unfold execNqHeadWrite
  repeat' (with_reducible first | assumption | refine IfNext.next ?_ | refine State.nqHead_keeps ?_ | split)

theorem State.nqFlushNow_keeps {s0 s : State} {q} (hs : Keeps s0 s) :
    Keeps s0 (State.nqFlushNow s q) := by
  unfold State.nqFlushNow
  repeat' (with_reducible first | assumption | extract_lets | refine State.setNq_keeps ?_ | split)

theorem execNqFlush_keeps {s0 s : State} {q} (hs : Keeps s0 s) :
    IfNext (Keeps s0) (execNqFlush q s) := by
  unfold execNqFlush
  repeat' (with_reducible first | assumption | refine IfNext.next ?_ | refine State.nqFlushNow_keeps ?_ | split)

theorem execFlushGapPublish_keeps {s0 s : State} {q} (hs : Keeps s0 s) :
    IfNext (Keeps s0) (execFlushGapPublish q s) := by
  unfold execFlushGapPublish
  repeat' (with_reducible first | assumption | refine IfNext.next ?_ | refine State.flushGap_keeps ?_ | split)

theorem State.nqRegWrite_keeps {s0 s : State} {q off v} (hs : Keeps s0 s) :
    Keeps s0 (State.nqRegWrite s q off v) := by
  unfold State.nqRegWrite
  repeat' (with_reducible first
    | assumption | refine State.nqHead_keeps ?_ | refine State.modNq_keeps ?_ | refine State.nqFlushNow_keeps ?_
    | refine State.nqConfig_keeps ?_ | split)

theorem State.modShard_keeps {s0 s : State} {n i f} (hs : Keeps s0 s) :
    Keeps s0 (State.modShard s n i f) := hs.upd rfl rfl rfl rfl

theorem State.recSet_keeps {s0 s : State} {a hi lo v} (hs : Keeps s0 s) :
    Keeps s0 (State.recSet s a hi lo v) := by
  unfold State.recSet
  repeat' (with_reducible first | assumption | refine State.store_keeps ?_)

theorem State.sweepNotice_keeps {s0 s : State} {n i event st close value} (hs : Keeps s0 s) :
    Keeps s0 (State.sweepNotice s n i event st close value) := hs.upd rfl rfl rfl rfl

theorem State.rLast_keeps {s0 s : State} {a st} (hs : Keeps s0 s) :
    Keeps s0 (State.rLast s a st) := by
  unfold State.rLast
  repeat' (with_reducible first | assumption | refine State.recSet_keeps ?_)

theorem State.refreshOver_keeps {s0 s : State} {n i} (hs : Keeps s0 s) :
    Keeps s0 (State.refreshOver s n i) := by
  unfold State.refreshOver
  repeat' (with_reducible first
    | assumption | extract_lets | refine State.sweepNotice_keeps ?_ | refine State.modShard_keeps ?_ | refine State.recSet_keeps ?_
    | split)

theorem State.refreshFails_keeps {s0 s : State} {n i st} (hs : Keeps s0 s) :
    Keeps s0 (State.refreshFails s n i st) := by
  unfold State.refreshFails
  repeat' (with_reducible first
    | assumption | extract_lets | refine State.sweepNotice_keeps ?_ | refine State.modShard_keeps ?_ | refine State.rLast_keeps ?_
    | refine State.modCon_keeps ?_ | split)

theorem State.refreshJobEnds_keeps {s0 s : State} {n i seq st} (hs : Keeps s0 s) :
    Keeps s0 (State.refreshJobEnds s n i seq st) := by
  unfold State.refreshJobEnds
  repeat' (with_reducible first
    | assumption | refine State.refreshFails_keeps ?_ | refine State.modShard_keeps ?_ | refine State.refreshOver_keeps ?_ | split
    | refine Keeps.upd ?_ rfl rfl rfl rfl)

theorem State.workEnds_keeps {s0 s : State} {k st fs} (hs : Keeps s0 s) :
    Keeps s0 (State.workEnds s k st fs) := hs.upd rfl rfl rfl rfl

theorem State.sparesOut_keeps {s0 s : State} {a} (hs : Keeps s0 s) :
    Keeps s0 (State.sparesOut s a) := by
  unfold State.sparesOut
  repeat' (with_reducible first
    | assumption | extract_lets | refine State.vaultNotice_keeps ?_ | refine State.modDie_keeps ?_ | split)

theorem State.spareRow_keeps {s0 s : State} {a} (hs : Keeps s0 s) :
    Keeps s0 (State.spareRow s a) := by
  unfold State.spareRow
  repeat' (with_reducible first
    | assumption | extract_lets | refine State.vaultNotice_keeps ?_ | refine State.modDie_keeps ?_ | refine State.record_keeps ?_
    | refine State.sparesOut_keeps ?_ | split | refine KeepsL.fst ?_)

theorem State.galCorrect_keeps {s0 s : State} {a} (hs : Keeps s0 s) :
    Keeps s0 (State.galCorrect s a) := by
  unfold State.galCorrect
  repeat' (with_reducible first | assumption | extract_lets | refine State.modDie_keeps ?_ | refine State.spareRow_keeps ?_ | split)

theorem State.galPoison_keeps {s0 s : State} {a} (hs : Keeps s0 s) :
    Keeps s0 (State.galPoison s a) := by
  unfold State.galPoison
  repeat' (with_reducible first
    | assumption | extract_lets | refine State.vaultNotice_keeps ?_ | refine State.modDie_keeps ?_ | refine State.spareRow_keeps ?_
    | split)

theorem State.galEcc_keeps {s0 s : State} {a x2} (hs : Keeps s0 s) :
    Keeps s0 (State.galEcc s a x2) := by
  unfold State.galEcc
  repeat' (with_reducible first | assumption | refine State.galCorrect_keeps ?_ | refine State.galPoison_keeps ?_ | split)

theorem State.lineAdd_keeps {s0 s : State} {a v} (hs : Keeps s0 s) :
    Keeps s0 (State.lineAdd s a v) := by
  unfold State.lineAdd
  repeat' (with_reducible first | assumption | refine State.pokeNum_keeps ?_)

theorem execGalleryLineAdd_keeps {s0 s : State} {addr value ecc} (hs : Keeps s0 s) :
    IfNext (Keeps s0) (execGalleryLineAdd addr value ecc s) := by
  unfold execGalleryLineAdd
  repeat' (with_reducible first
    | assumption | extract_lets | refine IfNext.next ?_ | refine State.lineAdd_keeps ?_ | refine State.galEcc_keeps ?_ | split)

theorem execGalleryLineAccess_keeps {s0 s : State} {addr acc ecc} (hs : Keeps s0 s) :
    IfNext (Keeps s0) (execGalleryLineAccess addr acc ecc s) := by
  unfold execGalleryLineAccess
  repeat' (with_reducible first
    | assumption | extract_lets | refine IfNext.next ?_ | refine State.store_keeps ?_ | refine State.galEcc_keeps ?_ | split
    | refine Keeps.upd ?_ rfl rfl rfl rfl)

theorem execGalleryPatrolScrub_keeps {s0 s : State} {addr ecc} (hs : Keeps s0 s) :
    IfNext (Keeps s0) (execGalleryPatrolScrub addr ecc s) := by
  unfold execGalleryPatrolScrub
  repeat' (with_reducible first
    | assumption | refine IfNext.next ?_ | refine State.modDie_keeps ?_ | refine State.galEcc_keeps ?_ | split
    | refine Keeps.upd ?_ rfl rfl rfl rfl)

theorem State.groupNotice_keeps {s0 s : State} {event g channel addr count} (hs : Keeps s0 s) :
    Keeps s0 (State.groupNotice s event g channel addr count) := hs.upd rfl rfl rfl rfl

theorem State.sweepDone_keeps {s0 s : State} (hs : Keeps s0 s) :
    Keeps s0 (State.sweepDone s) := by
  unfold State.sweepDone
  repeat' (with_reducible first | assumption | refine State.vaultNotice_keeps ?_ | split | refine Keeps.upd ?_ rfl rfl rfl rfl)

theorem State.sweepStartAll_keeps {s0 s : State} {x1} (hs : Keeps s0 s) :
    Keeps s0 (State.sweepStartAll s x1) := by
  fun_induction State.sweepStartAll s x1
  all_goals repeat' (with_reducible first | refine State.modGroup_keeps ?_ | apply_assumption)

theorem execPageConverted_keeps {s0 s : State} {g} (hs : Keeps s0 s) :
    IfNext (Keeps s0) (execPageConverted g s) := by
  unfold execPageConverted
  repeat' (with_reducible first
    | assumption | extract_lets | exact Keeps.refl _ | refine IfNext.next ?_ | refine State.setGroup_keeps ?_
    | refine State.sweepDone_keeps ?_ | split)

theorem State.loseGroup_keeps {s0 s : State} {g channel} (hs : Keeps s0 s) :
    Keeps s0 (State.loseGroup s g channel) := by
  unfold State.loseGroup
  repeat' (with_reducible first
    | assumption | exact Keeps.refl _ | refine State.modGroup_keeps ?_ | refine State.groupNotice_keeps ?_
    | refine State.sweepDone_keeps ?_ | split)

theorem State.checkLost_keeps {s0 s : State} {g channel} (hs : Keeps s0 s) :
    Keeps s0 (State.checkLost s g channel) := by
  unfold State.checkLost
  repeat' (with_reducible first | assumption | refine State.loseGroup_keeps ?_ | split)

theorem State.poisonLine_keeps {s0 s : State} {l} (hs : Keeps s0 s) :
    Keeps s0 (State.poisonLine s l) := by
  unfold State.poisonLine
  repeat' (with_reducible first
    | assumption | extract_lets | refine State.modGroup_keeps ?_ | refine State.groupNotice_keeps ?_ | refine State.loseGroup_keeps ?_
    | split)

theorem State.poisonLines_keeps {s0 s : State} {x1} (hs : Keeps s0 s) :
    Keeps s0 (State.poisonLines s x1) := by
  fun_induction State.poisonLines s x1
  all_goals repeat' (with_reducible first | refine State.poisonLine_keeps ?_ | apply_assumption)

theorem State.vaultCorrected_keeps {s0 s : State} {g k} (hs : Keeps s0 s) :
    Keeps s0 (State.vaultCorrected s g k) := hs.upd rfl rfl rfl rfl

theorem State.vaultDecode_keeps {s0 s : State} {l erased err} (hs : Keeps s0 s) :
    Keeps s0 (State.vaultDecode s l erased err) := by
  unfold State.vaultDecode
  repeat' (with_reducible first
    | assumption | extract_lets | refine State.poisonLine_keeps ?_ | refine State.vaultCorrected_keeps ?_
    | refine State.vaultLostRead_keeps ?_ | split)

theorem State.vaultRead_keeps {s0 s : State} {l err} (hs : Keeps s0 s) :
    Keeps s0 (State.vaultRead s l err) := by
  unfold State.vaultRead
  repeat' (with_reducible first | assumption | refine State.vaultDecode_keeps ?_ | refine State.vaultLostRead_keeps ?_ | split)

theorem execVaultLineAccess_keeps {s0 s : State} {addr acc err} (hs : Keeps s0 s) :
    IfNext (Keeps s0) (execVaultLineAccess addr acc err s) := by
  unfold execVaultLineAccess
  repeat' (with_reducible first
    | assumption | extract_lets | refine IfNext.next ?_ | refine State.store_keeps ?_ | refine State.vaultRead_keeps ?_ | split)

theorem execChHeld_keeps {s0 s : State} {g ch} (hs : Keeps s0 s) :
    IfNext (Keeps s0) (execChHeld g ch s) := by
  unfold execChHeld
  repeat' (with_reducible first
    | assumption | extract_lets | refine IfNext.next ?_ | refine State.groupNotice_keeps ?_ | refine State.setGroup_keeps ?_
    | refine State.checkLost_keeps ?_ | split)

theorem execDriftRetrain_keeps {s0 s : State} {g ch} (hs : Keeps s0 s) :
    IfNext (Keeps s0) (execDriftRetrain g ch s) := by
  unfold execDriftRetrain
  repeat' (with_reducible first | assumption | extract_lets | refine IfNext.next ?_ | refine State.setGroup_keeps ?_ | split)

theorem execRetrainStart_keeps {s0 s : State} {g ch} (hs : Keeps s0 s) :
    IfNext (Keeps s0) (execRetrainStart g ch s) := by
  unfold execRetrainStart
  repeat' (with_reducible first | assumption | extract_lets | refine IfNext.next ?_ | refine State.setGroup_keeps ?_ | split)

theorem State.retrainOk_keeps {s0 s : State} {g ch} (hs : Keeps s0 s) :
    Keeps s0 (State.retrainOk s g ch) := hs.upd rfl rfl rfl rfl

theorem State.retrainFailed_keeps {s0 s : State} {g ch} (hs : Keeps s0 s) :
    Keeps s0 (State.retrainFailed s g ch) := by
  unfold State.retrainFailed
  repeat' (with_reducible first
    | assumption | refine State.groupNotice_keeps ?_ | refine State.setGroup_keeps ?_ | refine State.record_keeps ?_
    | refine State.checkLost_keeps ?_ | refine KeepsL.fst ?_)

theorem execRetrainAttemptEnd_keeps {s0 s : State} {g ok} (hs : Keeps s0 s) :
    IfNext (Keeps s0) (execRetrainAttemptEnd g ok s) := by
  unfold execRetrainAttemptEnd
  repeat' (with_reducible first
    | assumption | extract_lets | refine IfNext.next ?_ | refine State.setGroup_keeps ?_ | refine State.retrainOk_keeps ?_
    | refine State.retrainFailed_keeps ?_ | split)

theorem State.rebuildDone_keeps {s0 s : State} {g y} (hs : Keeps s0 s) :
    Keeps s0 (State.rebuildDone s g y) := hs.upd rfl rfl rfl rfl

theorem execPageRebuilt_keeps {s0 s : State} {g} (hs : Keeps s0 s) :
    IfNext (Keeps s0) (execPageRebuilt g s) := by
  unfold execPageRebuilt
  repeat' (with_reducible first
    | assumption | extract_lets | refine IfNext.next ?_ | refine State.rebuildDone_keeps ?_ | refine State.setGroup_keeps ?_ | split)

theorem execRowRepairStart_keeps {s0 s : State} {g ch addr repairLeft} (hs : Keeps s0 s) :
    IfNext (Keeps s0) (execRowRepairStart g ch addr repairLeft s) := by
  unfold execRowRepairStart
  repeat' (with_reducible first
    | assumption | refine IfNext.next ?_ | refine State.groupNotice_keeps ?_ | refine State.setGroup_keeps ?_
    | refine State.record_keeps ?_ | split | refine KeepsL.fst ?_)

theorem execRowRepaired_keeps {s0 s : State} {g addr} (hs : Keeps s0 s) :
    IfNext (Keeps s0) (execRowRepaired g addr s) := by
  unfold execRowRepaired
  repeat' (with_reducible first
    | assumption | extract_lets | refine IfNext.next ?_ | refine State.groupNotice_keeps ?_ | refine State.setGroup_keeps ?_ | split)

theorem execPageStateError_keeps {s0 s : State} {g word} (hs : Keeps s0 s) :
    IfNext (Keeps s0) (execPageStateError g word s) := by
  unfold execPageStateError
  repeat' (with_reducible first | assumption | refine IfNext.next ?_ | refine State.poisonLines_keeps ?_ | split)

theorem State.putElem_keeps {s0 s : State} {c t f i j code} (hs : Keeps s0 s) :
    Keeps s0 (State.putElem s c t f i j code) := by
  unfold State.putElem
  repeat' (with_reducible first | assumption | refine State.pokeNum_keeps ?_)

end Sys2Proof.Machine
end

