-- ==== Sys2Proof/Laws/KeepsCore.lean ====
section
/-! SUPPORT. What the operations of Prompter, Rng, Arrays, Tables, Vector leave alone: each keeps the
relation Keeps to an earlier state, whatever its operands. -/

namespace Sys2Proof.Machine

theorem State.stopCore_keeps {s0 s : State} {c cause} (hs : Keeps s0 s) :
    Keeps s0 (State.stopCore s c cause) := by
  unfold State.stopCore
  repeat' (with_reducible first | assumption | refine State.fault_keeps ?_ | refine State.modCore_keeps ?_ | split)

theorem State.tokenRise_keeps {s0 s : State} {c t n} (hs : Keeps s0 s) :
    Keeps s0 (State.tokenRise s c t n) := by
  unfold State.tokenRise
  repeat' (with_reducible first | assumption | refine State.stopCore_keeps ?_ | refine State.modCore_keeps ?_ | split)

theorem State.signal_keeps {s0 s : State} {c tok} (hs : Keeps s0 s) :
    Keeps s0 (State.signal s c tok) := by
  unfold State.signal
  repeat' (with_reducible first | assumption | refine State.tokenRise_keeps ?_ | split)

theorem State.afterIssue_keeps {s0 s : State} {c} (hs : Keeps s0 s) :
    Keeps s0 (State.afterIssue s c) := by
  unfold State.afterIssue
  repeat' (with_reducible first | assumption | extract_lets | refine State.stopCore_keeps ?_ | refine State.modCore_keeps ?_ | split)

theorem State.holdCue_keeps {s0 s : State} {c r} (hs : Keeps s0 s) :
    Keeps s0 (State.holdCue s c r) := hs.upd rfl rfl rfl rfl

theorem State.stopCue_keeps {s0 s : State} {c q cause} (hs : Keeps s0 s) :
    Keeps s0 (State.stopCue s c q cause) := by
  unfold State.stopCue
  repeat' (with_reducible first | assumption | refine State.stopCore_keeps ?_ | refine State.modCore_keeps ?_ | split)

theorem State.attempt_keeps {s0 s : State} {eff : State → W128 → Peek → State} {c kind} (hs : Keeps s0 s) (keff : ∀ y0 y1 y2, Keeps s0 y0 → Keeps s0 (eff y0 y1 y2)) :
    Keeps s0 (State.attempt s c kind eff) := by
  unfold State.attempt
  repeat' (with_reducible first
    | extract_lets | refine State.afterIssue_keeps ?_ | refine State.setCore_keeps ?_ | refine State.stopCue_keeps ?_
    | refine State.holdCue_keeps ?_ | split | apply_assumption)

theorem State.attemptNow_keeps {s0 s : State} {eff : State → W128 → Peek → State} {c kind} (hs : Keeps s0 s) (keff : ∀ y0 y1 y2, Keeps s0 y0 → Keeps s0 (eff y0 y1 y2)) :
    Keeps s0 (State.attemptNow s c kind eff) := by
  unfold State.attemptNow
  repeat' (with_reducible first
    | extract_lets | exact Keeps.refl _ | refine State.attempt_keeps ?_ ?_ | refine State.signal_keeps ?_ | (intro _)
    | apply_assumption)

theorem execNop_keeps {s0 s : State} {c} (hs : Keeps s0 s) :
    IfNext (Keeps s0) (execNop c s) := by
  unfold execNop
  repeat' (with_reducible first | assumption | refine IfNext.next ?_ | refine State.attemptNow_keeps ?_ ?_ | (intro _))

theorem execJump_keeps {s0 s : State} {c} (hs : Keeps s0 s) :
    IfNext (Keeps s0) (execJump c s) := by
  unfold execJump
  repeat' (with_reducible first
    | assumption | refine IfNext.next ?_ | refine State.modCore_keeps ?_ | refine State.attemptNow_keeps ?_ ?_ | (intro _))

theorem execLoopSet_keeps {s0 s : State} {c} (hs : Keeps s0 s) :
    IfNext (Keeps s0) (execLoopSet c s) := by
  unfold execLoopSet
  repeat' (with_reducible first
    | assumption | refine IfNext.next ?_ | refine State.modCore_keeps ?_ | refine State.attemptNow_keeps ?_ ?_ | (intro _))

theorem execLoopBranch_keeps {s0 s : State} {c} (hs : Keeps s0 s) :
    IfNext (Keeps s0) (execLoopBranch c s) := by
  unfold execLoopBranch
  repeat' (with_reducible first
    | assumption | refine IfNext.next ?_ | refine State.modCore_keeps ?_ | refine State.attemptNow_keeps ?_ ?_ | (intro _))

theorem execScene_keeps {s0 s : State} {c} (hs : Keeps s0 s) :
    IfNext (Keeps s0) (execScene c s) := by
  unfold execScene
  repeat' (with_reducible first
    | assumption | exact Keeps.refl _ | refine IfNext.next ?_ | refine State.attempt_keeps ?_ ?_ | refine State.modCore_keeps ?_
    | refine State.signal_keeps ?_ | (intro _))

theorem execHalt_keeps {s0 s : State} {c} (hs : Keeps s0 s) :
    IfNext (Keeps s0) (execHalt c s) := by
  unfold execHalt
  repeat' (with_reducible first
    | assumption | refine IfNext.next ?_ | refine State.modCore_keeps ?_ | refine State.attemptNow_keeps ?_ ?_ | (intro _))

theorem execAgBase_keeps {s0 s : State} {c} (hs : Keeps s0 s) :
    IfNext (Keeps s0) (execAgBase c s) := by
  unfold execAgBase
  repeat' (with_reducible first
    | assumption | refine IfNext.next ?_ | refine State.modCore_keeps ?_ | refine State.attemptNow_keeps ?_ ?_ | (intro _))

theorem execAgDim_keeps {s0 s : State} {c} (hs : Keeps s0 s) :
    IfNext (Keeps s0) (execAgDim c s) := by
  unfold execAgDim
  repeat' (with_reducible first
    | assumption | refine IfNext.next ?_ | refine State.modCore_keeps ?_ | refine State.attemptNow_keeps ?_ ?_ | (intro _))

theorem execTileSet_keeps {s0 s : State} {c} (hs : Keeps s0 s) :
    IfNext (Keeps s0) (execTileSet c s) := by
  unfold execTileSet
  repeat' (with_reducible first
    | assumption | refine IfNext.next ?_ | refine State.modCore_keeps ?_ | refine State.attemptNow_keeps ?_ ?_ | (intro _))

theorem execRegSet_keeps {s0 s : State} {c} (hs : Keeps s0 s) :
    IfNext (Keeps s0) (execRegSet c s) := by
  unfold execRegSet
  repeat' (with_reducible first
    | assumption | refine IfNext.next ?_ | refine State.modCore_keeps ?_ | refine State.attemptNow_keeps ?_ ?_ | (intro _))

theorem execCueSkip_keeps {s0 s : State} {c} (hs : Keeps s0 s) :
    IfNext (Keeps s0) (execCueSkip c s) := by
  unfold execCueSkip
  repeat' (with_reducible first
    | assumption | extract_lets | refine IfNext.next ?_ | refine State.afterIssue_keeps ?_ | refine State.setCore_keeps ?_ | split)

theorem execSynTake_keeps {s0 s : State} {c} (hs : Keeps s0 s) :
    IfNext (Keeps s0) (execSynTake c s) := by
  unfold execSynTake
  repeat' (with_reducible first
    | assumption | refine IfNext.next ?_ | refine State.modCore_keeps ?_ | refine State.attemptNow_keeps ?_ ?_ | (intro _))

theorem execGive_keeps {s0 s : State} {c} (hs : Keeps s0 s) :
    IfNext (Keeps s0) (execGive c s) := by
  unfold execGive
  repeat' (with_reducible first
    | assumption | refine IfNext.next ?_ | refine State.tokenRise_keeps ?_ | refine State.attemptNow_keeps ?_ ?_ | (intro _))

theorem execFence_keeps {s0 s : State} {c} (hs : Keeps s0 s) :
    IfNext (Keeps s0) (execFence c s) := by
  unfold execFence
  repeat' (with_reducible first | assumption | refine IfNext.next ?_ | refine State.attemptNow_keeps ?_ ?_ | (intro _))

theorem execTileFree_keeps {s0 s : State} {c} (hs : Keeps s0 s) :
    IfNext (Keeps s0) (execTileFree c s) := by
  unfold execTileFree
  repeat' (with_reducible first
    | assumption | refine IfNext.next ?_ | refine State.modCore_keeps ?_ | refine State.attemptNow_keeps ?_ ?_ | (intro _))

theorem execTileReady_keeps {s0 s : State} {c} (hs : Keeps s0 s) :
    IfNext (Keeps s0) (execTileReady c s) := by
  unfold execTileReady
  repeat' (with_reducible first
    | assumption | refine IfNext.next ?_ | refine State.modCore_keeps ?_ | refine State.attemptNow_keeps ?_ ?_ | (intro _))

theorem execFlags_keeps {s0 s : State} {c} (hs : Keeps s0 s) :
    IfNext (Keeps s0) (execFlags c s) := by
  unfold execFlags
  repeat' (with_reducible first
    | assumption | refine IfNext.next ?_ | refine State.modCore_keeps ?_ | refine State.attemptNow_keeps ?_ ?_ | (intro _))

theorem State.atDoor_keeps {s0 s : State} {f : State → State} {c i} (hs : Keeps s0 s) (kf : ∀ y0, Keeps s0 y0 → Keeps s0 (f y0)) :
    Keeps s0 (State.atDoor s c i f) := by
  unfold State.atDoor
  repeat' (with_reducible first | refine State.doorCount_keeps ?_ | refine State.hold_keeps ?_ | split | apply_assumption)

theorem execRunStart_keeps {s0 s : State} {c} (hs : Keeps s0 s) :
    IfNext (Keeps s0) (execRunStart c s) := by
  unfold execRunStart
  repeat' (with_reducible first
    | assumption | refine IfNext.next ?_ | refine State.atDoor_keeps ?_ ?_ | refine State.modCore_keeps ?_ | (intro _))

theorem execRunStop_keeps {s0 s : State} {c} (hs : Keeps s0 s) :
    IfNext (Keeps s0) (execRunStop c s) := by
  unfold execRunStop
  repeat' (with_reducible first
    | assumption | refine IfNext.next ?_ | refine State.atDoor_keeps ?_ ?_ | refine State.modCore_keeps ?_ | (intro _))

theorem State.tokenIn_keeps {s0 s : State} {c t} (hs : Keeps s0 s) :
    Keeps s0 (State.tokenIn s c t) := by
  unfold State.tokenIn
  repeat' (with_reducible first | assumption | refine State.modCore_keeps ?_ | refine State.tokenRise_keeps ?_)

theorem State.tokenSignal_keeps {s0 s : State} {c t} (hs : Keeps s0 s) :
    Keeps s0 (State.tokenSignal s c t) := by
  unfold State.tokenSignal
  repeat' (with_reducible first | assumption | extract_lets | refine State.tokenIn_keeps ?_ | refine State.modCore_keeps ?_ | split)

theorem execTokenSignalArrival_keeps {s0 s : State} {c t} (hs : Keeps s0 s) :
    IfNext (Keeps s0) (execTokenSignalArrival c t s) := by
  unfold execTokenSignalArrival
  repeat' (with_reducible first | assumption | refine IfNext.next ?_ | refine State.tokenSignal_keeps ?_)

theorem State.handleIn_keeps {s0 s : State} {c ep h3} (hs : Keeps s0 s) :
    Keeps s0 (State.handleIn s c ep h3) := by
  unfold State.handleIn
  repeat' (with_reducible first | assumption | extract_lets | refine State.modCore_keeps ?_ | refine State.tokenRise_keeps ?_ | split)

theorem execRampLevelStep_keeps {s0 s : State} {c a} (hs : Keeps s0 s) :
    IfNext (Keeps s0) (execRampLevelStep c a s) := by
  unfold execRampLevelStep
  repeat' (with_reducible first | assumption | extract_lets | refine IfNext.next ?_ | refine State.setCore_keeps ?_ | split)

theorem execHoldFillEnd_keeps {s0 s : State} {c a} (hs : Keeps s0 s) :
    IfNext (Keeps s0) (execHoldFillEnd c a s) := by
  unfold execHoldFillEnd
  repeat' (with_reducible first | assumption | extract_lets | refine IfNext.next ?_ | refine State.setCore_keeps ?_ | split)

theorem execFillBudgetExhausted_keeps {s0 s : State} {c} (hs : Keeps s0 s) :
    IfNext (Keeps s0) (execFillBudgetExhausted c s) := by
  unfold execFillBudgetExhausted
  repeat' (with_reducible first | assumption | extract_lets | refine IfNext.next ?_ | refine State.setCore_keeps ?_ | split)

theorem execFillWindowReset_keeps {s0 s : State} {c} (hs : Keeps s0 s) :
    IfNext (Keeps s0) (execFillWindowReset c s) := by
  unfold execFillWindowReset
  repeat' (with_reducible first | assumption | refine IfNext.next ?_ | refine State.fresh_keeps ?_ | refine State.modCore_keeps ?_)

theorem State.setSource_keeps {s0 s : State} {c k x} (hs : Keeps s0 s) :
    Keeps s0 (State.setSource s c k x) := hs.upd rfl rfl rfl rfl

theorem State.seedCore_keeps {s0 s : State} {c} (hs : Keeps s0 s) :
    Keeps s0 (State.seedCore s c) := by
  unfold State.seedCore
  repeat' (with_reducible first | assumption | refine State.modCore_keeps ?_ | split | refine Keeps.upd ?_ rfl rfl rfl rfl)

theorem execRngReseed_keeps {s0 s : State} {c k} (hs : Keeps s0 s) :
    IfNext (Keeps s0) (execRngReseed c k s) := by
  unfold execRngReseed
  repeat' (with_reducible first | assumption | extract_lets | refine IfNext.next ?_ | refine State.setSource_keeps ?_ | split)

theorem State.entropyFails_keeps {s0 s : State} {t forced} (hs : Keeps s0 s) :
    Keeps s0 (State.entropyFails s t forced) := by
  unfold State.entropyFails
  repeat' (with_reducible first | assumption | refine State.modTroupe_keeps ?_ | refine State.entropyNotice_keeps ?_ | split)

theorem State.entropyPasses_keeps {s0 s : State} {t forced} (hs : Keeps s0 s) :
    Keeps s0 (State.entropyPasses s t forced) := by
  unfold State.entropyPasses
  repeat' (with_reducible first | assumption | refine State.modTroupe_keeps ?_ | refine State.entropyNotice_keeps ?_ | split)

theorem execEntropyHealthFail_keeps {s0 s : State} {t} (hs : Keeps s0 s) :
    IfNext (Keeps s0) (execEntropyHealthFail t s) := by
  unfold execEntropyHealthFail
  repeat' (with_reducible first | assumption | refine IfNext.next ?_ | refine State.entropyFails_keeps ?_)

theorem execEntropyHealthOk_keeps {s0 s : State} {t} (hs : Keeps s0 s) :
    IfNext (Keeps s0) (execEntropyHealthOk t s) := by
  unfold execEntropyHealthOk
  repeat' (with_reducible first | assumption | refine IfNext.next ?_ | refine State.entropyPasses_keeps ?_ | split)

theorem State.lineAdds_keeps {s0 s : State} {a x2} (hs : Keeps s0 s) :
    Keeps s0 (State.lineAdds s a x2) := by
  induction x2 generalizing s a with
  | nil => rw [State.lineAdds] <;> repeat' (with_reducible first | refine State.lineAdd_keeps ?_ | split | apply_assumption)
  | cons y t ih =>
    rw [State.lineAdds]
    repeat' (with_reducible first | refine State.lineAdd_keeps ?_ | split | apply_assumption)

theorem State.tapAdds_keeps {s0 s : State} {c q region run rows x6} (hs : Keeps s0 s) :
    Keeps s0 (State.tapAdds s c q region run rows x6) := by
  induction x6 generalizing s c q region run rows with
  | nil => rw [State.tapAdds] <;> repeat' (with_reducible first
    | refine State.pokeNum_keeps ?_ | refine State.setCore_keeps ?_ | refine State.lineAdds_keeps ?_ | split | apply_assumption
    | refine Keeps.upd ?_ rfl rfl rfl rfl)
  | cons y t ih =>
    rw [State.tapAdds]
    repeat' (with_reducible first
      | refine State.pokeNum_keeps ?_ | refine State.setCore_keeps ?_ | refine State.lineAdds_keeps ?_ | split | apply_assumption
      | refine Keeps.upd ?_ rfl rfl rfl rfl)

theorem State.tapTake_keeps {s0 s : State} {c a q line region tb blocks x8} (hs : Keeps s0 s) :
    Keeps s0 (State.tapTake s c a q line region tb blocks x8) := by
  fun_induction State.tapTake s c a q line region tb blocks x8
  all_goals repeat' (with_reducible first
    | refine State.tapAdds_keeps ?_ | refine State.modCore_keeps ?_ | split | apply_assumption | refine Keeps.upd ?_ rfl rfl rfl rfl)

theorem State.tapBad_keeps {s0 s : State} {c a} (hs : Keeps s0 s) :
    Keeps s0 (State.tapBad s c a) := by
  unfold State.tapBad
  repeat' (with_reducible first | assumption | refine State.modCore_keeps ?_ | refine State.raise_keeps ?_ | split)

theorem State.tapCue_keeps {s0 s : State} {c q pk a} (hs : Keeps s0 s) :
    Keeps s0 (State.tapCue s c q pk a) := by
  unfold State.tapCue
  repeat' (with_reducible first
    | assumption | extract_lets | refine State.modCore_keeps ?_ | refine State.tapBad_keeps ?_ | refine State.tapTake_keeps ?_ | split)

theorem execGrm_keeps {s0 s : State} {c} (hs : Keeps s0 s) :
    IfNext (Keeps s0) (execGrm c s) := by
  unfold execGrm
  repeat' (with_reducible first
    | assumption | refine IfNext.next ?_ | refine State.modCore_keeps ?_ | refine State.attemptNow_keeps ?_ ?_ | (intro _))

theorem State.issueArr_keeps {s0 s : State} {c q pk} (hs : Keeps s0 s) :
    Keeps s0 (State.issueArr s c q pk) := by
  unfold State.issueArr
  repeat' (with_reducible first
    | assumption | refine State.fresh_keeps ?_ | refine State.modCore_keeps ?_ | refine State.tapCue_keeps ?_)

theorem execArrOs_keeps {s0 s : State} {c} (hs : Keeps s0 s) :
    IfNext (Keeps s0) (execArrOs c s) := by
  unfold execArrOs
  repeat' (with_reducible first
    | assumption | refine IfNext.next ?_ | refine State.attempt_keeps ?_ ?_ | refine State.issueArr_keeps ?_ | (intro _))

theorem execArrOsSq_keeps {s0 s : State} {c} (hs : Keeps s0 s) :
    IfNext (Keeps s0) (execArrOsSq c s) := by
  unfold execArrOsSq
  repeat' (with_reducible first
    | assumption | refine IfNext.next ?_ | refine State.attempt_keeps ?_ ?_ | refine State.issueArr_keeps ?_ | (intro _))

theorem execArrOsHeld_keeps {s0 s : State} {c} (hs : Keeps s0 s) :
    IfNext (Keeps s0) (execArrOsHeld c s) := by
  unfold execArrOsHeld
  repeat' (with_reducible first
    | assumption | refine IfNext.next ?_ | refine State.attempt_keeps ?_ ?_ | refine State.issueArr_keeps ?_ | (intro _))

theorem execArrWs_keeps {s0 s : State} {c} (hs : Keeps s0 s) :
    IfNext (Keeps s0) (execArrWs c s) := by
  unfold execArrWs
  repeat' (with_reducible first
    | assumption | refine IfNext.next ?_ | refine State.attempt_keeps ?_ ?_ | refine State.issueArr_keeps ?_ | (intro _))

theorem execArrBwdDual_keeps {s0 s : State} {c} (hs : Keeps s0 s) :
    IfNext (Keeps s0) (execArrBwdDual c s) := by
  unfold execArrBwdDual
  repeat' (with_reducible first
    | assumption | refine IfNext.next ?_ | refine State.attempt_keeps ?_ ?_ | refine State.issueArr_keeps ?_ | (intro _))

theorem State.suspect_keeps {s0 s : State} {c a t} (hs : Keeps s0 s) :
    Keeps s0 (State.suspect s c a t) := hs.upd rfl rfl rfl rfl

theorem drainFrom_keeps {s0 : State} {c d t fmt stoch x5 x6 x7} (hx7 : KeepsL s0 x7) :
    KeepsL s0 (drainFrom c d t fmt stoch x5 x6 x7) := by
  fun_induction drainFrom c d t fmt stoch x5 x6 x7
  all_goals repeat' (with_reducible first | refine State.putElem_keeps ?_ | apply_assumption | refine KeepsL.mk ?_)

theorem State.drainRows_keeps {s0 s : State} {c a t} (hs : Keeps s0 s) :
    KeepsL s0 (State.drainRows s c a t) := by
  unfold State.drainRows
  repeat' (with_reducible first
    | assumption | extract_lets | refine State.setSource_keeps ?_ | refine drainFrom_keeps ?_ | refine KeepsL.get (by assumption) ?_
    | split | refine KeepsL.mk ?_)

theorem State.settleTile_keeps {s0 s : State} {c t tag} (hs : Keeps s0 s) :
    Keeps s0 (State.settleTile s c t tag) := hs.upd rfl rfl rfl rfl

theorem State.drain_keeps {s0 s : State} {c a t} (hs : Keeps s0 s) :
    Keeps s0 (State.drain s c a t) := by
  unfold State.drain
  repeat' (with_reducible first
    | assumption | refine State.drainRows_keeps ?_ | refine State.settleTile_keeps ?_ | split | refine KeepsL.fst ?_)

theorem State.attemptRows_keeps {s0 s : State} {c a t} (hs : Keeps s0 s) :
    KeepsL s0 (State.attemptRows s c a t) := by
  unfold State.attemptRows
  repeat' (with_reducible first
    | assumption | refine State.drainRows_keeps ?_ | refine KeepsL.get (by assumption) ?_ | split | refine KeepsL.mk ?_)

theorem State.countRetry_keeps {s0 s : State} {c t} (hs : Keeps s0 s) :
    Keeps s0 (State.countRetry s c t) := by
  unfold State.countRetry
  repeat' (with_reducible first | assumption | refine State.modTroupe_keeps ?_ | split)

theorem execTileCheckVerdict_keeps {s0 s : State} {c a u} (hs : Keeps s0 s) :
    IfNext (Keeps s0) (execTileCheckVerdict c a u s) := by
  unfold execTileCheckVerdict
  repeat' (with_reducible first
    | assumption | extract_lets | refine IfNext.next ?_ | refine State.modCore_keeps ?_ | refine State.attemptRows_keeps ?_
    | refine State.countRetry_keeps ?_ | refine State.suspect_keeps ?_ | refine KeepsL.get (by assumption) ?_ | split)

theorem State.endArrJob_keeps {s0 s : State} {c a} (hs : Keeps s0 s) :
    Keeps s0 (State.endArrJob s c a) := by
  unfold State.endArrJob
  repeat' (with_reducible first | assumption | extract_lets | refine State.setCore_keeps ?_ | refine State.signal_keeps ?_ | split)

theorem execArrDestinationResident_keeps {s0 s : State} {c a} (hs : Keeps s0 s) :
    IfNext (Keeps s0) (execArrDestinationResident c a s) := by
  unfold execArrDestinationResident
  repeat' (with_reducible first
    | assumption | extract_lets | refine IfNext.next ?_ | refine State.endArrJob_keeps ?_ | refine State.modCore_keeps ?_
    | refine State.drain_keeps ?_ | split)

theorem execAccumulatorsKept_keeps {s0 s : State} {c} (hs : Keeps s0 s) :
    IfNext (Keeps s0) (execAccumulatorsKept c s) := by
  unfold execAccumulatorsKept
  repeat' (with_reducible first
    | assumption | refine IfNext.next ?_ | refine State.endArrJob_keeps ?_ | refine State.modCore_keeps ?_ | split
    | refine Keeps.upd ?_ rfl rfl rfl rfl)

theorem execStationaryPreloadDone_keeps {s0 s : State} {c a} (hs : Keeps s0 s) :
    IfNext (Keeps s0) (execStationaryPreloadDone c a s) := by
  unfold execStationaryPreloadDone
  repeat' (with_reducible first | assumption | extract_lets | refine IfNext.next ?_ | refine State.setCore_keeps ?_ | split)

theorem State.storeFails_keeps {s0 s : State} {c k} (hs : Keeps s0 s) :
    Keeps s0 (State.storeFails s c k) := hs.upd rfl rfl rfl rfl

theorem State.slotStore_keeps {s0 s : State} {c k off v storeError} (hs : Keeps s0 s) :
    Keeps s0 (State.slotStore s c k off v storeError) := by
  unfold State.slotStore
  repeat' (with_reducible first | assumption | refine State.modCore_keeps ?_ | refine State.storeFails_keeps ?_ | split)

theorem execTableSlotWrite_keeps {s0 s : State} {c k off v} (hs : Keeps s0 s) :
    IfNext (Keeps s0) (execTableSlotWrite c k off v s) := by
  unfold execTableSlotWrite
  repeat' (with_reducible first
    | assumption | refine IfNext.next ?_ | refine State.atDoor_keeps ?_ ?_ | refine State.slotStore_keeps ?_ | split | (intro _))

theorem execTableSlotCrcWrite_keeps {s0 s : State} {c k v} (hs : Keeps s0 s) :
    IfNext (Keeps s0) (execTableSlotCrcWrite c k v s) := by
  unfold execTableSlotCrcWrite
  repeat' (with_reducible first
    | assumption | refine IfNext.next ?_ | refine State.atDoor_keeps ?_ ?_ | refine State.slotStore_keeps ?_ | (intro _))

theorem execTableReread_keeps {s0 s : State} {c k storeError} (hs : Keeps s0 s) :
    IfNext (Keeps s0) (execTableReread c k storeError s) := by
  unfold execTableReread
  repeat' (with_reducible first | assumption | extract_lets | refine IfNext.next ?_ | refine State.storeFails_keeps ?_ | split)

theorem State.slotReloaded_keeps {s0 s : State} {c k t storeError} (hs : Keeps s0 s) :
    Keeps s0 (State.slotReloaded s c k t storeError) := by
  unfold State.slotReloaded
  repeat' (with_reducible first | assumption | refine State.modCore_keeps ?_ | refine State.storeFails_keeps ?_ | split)

theorem execTableSlotReload_keeps {s0 s : State} {c k} (hs : Keeps s0 s) :
    IfNext (Keeps s0) (execTableSlotReload c k s) := by
  unfold execTableSlotReload
  repeat' (with_reducible first | assumption | refine IfNext.next ?_ | refine State.slotReloaded_keeps ?_ | split)

theorem writeAll_keeps {s0 : State} {c d f stoch conv x5 x6} (hx6 : KeepsL s0 x6) :
    KeepsL s0 (writeAll c d f stoch conv x5 x6) := by
  fun_induction writeAll c d f stoch conv x5 x6
  all_goals repeat' (with_reducible first | refine State.putElem_keeps ?_ | apply_assumption | refine KeepsL.mk ?_)

theorem State.putScales_keeps {s0 s : State} {a x2} (hs : Keeps s0 s) :
    Keeps s0 (State.putScales s a x2) := by
  fun_induction State.putScales s a x2
  all_goals repeat' (with_reducible first | refine State.pokeNum_keeps ?_ | apply_assumption)

theorem writeTile_keeps {s0 s : State} {c di f rnd satIn slice os} (hs : Keeps s0 s) :
    KeepsL s0 (writeTile s c di f rnd satIn slice os) := by
  unfold writeTile
  repeat' (with_reducible first
    | assumption | extract_lets | refine State.setSource_keeps ?_ | refine writeAll_keeps ?_ | refine State.modCore_keeps ?_
    | refine State.putScales_keeps ?_ | refine KeepsL.get (by assumption) ?_ | split | refine KeepsL.mk ?_)

theorem writeDests_keeps {s0 x5 : State} {c rnd satIn slice x4} (hx5 : Keeps s0 x5) :
    KeepsL s0 (writeDests c rnd satIn slice x4 x5) := by
  fun_induction writeDests c rnd satIn slice x4 x5
  all_goals repeat' (with_reducible first
    | refine writeTile_keeps ?_ | refine KeepsL.get (by assumption) ?_ | apply_assumption | refine KeepsL.mk ?_)

theorem State.putExps_keeps {s0 s : State} {a x2} (hs : Keeps s0 s) :
    Keeps s0 (State.putExps s a x2) := by
  fun_induction State.putExps s a x2
  all_goals repeat' (with_reducible first | refine State.pokeNum_keeps ?_ | apply_assumption)

theorem State.runVec_keeps {s0 s : State} {c j} (hs : Keeps s0 s) :
    KeepsL s0 (State.runVec s c j) := by
  unfold State.runVec
  repeat' (with_reducible first
    | assumption | extract_lets | refine State.fresh_keeps ?_ | refine State.modCore_keeps ?_ | refine State.putExps_keeps ?_
    | refine writeDests_keeps ?_ | refine Keeps.foldl ?_ ?_ | refine KeepsL.get (by assumption) ?_ | split | (intro _)
    | refine KeepsL.mk ?_ | refine Keeps.upd ?_ rfl rfl rfl rfl)

theorem vecRun_keeps {s0 x2 : State} {c x1} (hx2 : Keeps s0 x2) : KeepsL s0 (vecRun c x1 x2) := by
  induction x1 generalizing x2 with
  | nil => exact hx2
  | cons j t ih =>
    rw [vecRun]
    split
    · exact ih hx2
    · split
      · exact ih (State.runVec_keeps hx2)
      · exact hx2

theorem State.vecPump_keeps {s0 s : State} {c} (hs : Keeps s0 s) :
    Keeps s0 (State.vecPump s c) := by
  unfold State.vecPump
  repeat' (with_reducible first | assumption | refine State.modCore_keeps ?_ | refine vecRun_keeps ?_ | refine KeepsL.fst ?_)

theorem State.issueVec_keeps {s0 s : State} {c q pk} (hs : Keeps s0 s) :
    Keeps s0 (State.issueVec s c q pk) := by
  unfold State.issueVec
  repeat' (with_reducible first
    | assumption | refine State.fresh_keeps ?_ | refine State.modCore_keeps ?_ | refine State.vecPump_keeps ?_)

theorem State.attemptVec_keeps {s0 s : State} {c op} (hs : Keeps s0 s) :
    Keeps s0 (State.attemptVec s c op) := by
  unfold State.attemptVec
  repeat' (with_reducible first | assumption | refine State.attempt_keeps ?_ ?_ | refine State.issueVec_keeps ?_ | (intro _))

theorem execVecCueComplete_keeps {s0 s : State} {c} (hs : Keeps s0 s) :
    IfNext (Keeps s0) (execVecCueComplete c s) := by
  unfold execVecCueComplete
  repeat' (with_reducible first
    | assumption | extract_lets | refine IfNext.next ?_ | refine State.modCore_keeps ?_ | refine State.vecPump_keeps ?_
    | refine State.signal_keeps ?_ | split)

theorem execVecConvert_keeps {s0 s : State} {c} (hs : Keeps s0 s) :
    IfNext (Keeps s0) (execVecConvert c s) := by
  unfold execVecConvert
  repeat' (with_reducible first | assumption | refine IfNext.next ?_ | refine State.attemptVec_keeps ?_)

theorem execVecAdd_keeps {s0 s : State} {c} (hs : Keeps s0 s) :
    IfNext (Keeps s0) (execVecAdd c s) := by
  unfold execVecAdd
  repeat' (with_reducible first | assumption | refine IfNext.next ?_ | refine State.attemptVec_keeps ?_)

theorem execVecSub_keeps {s0 s : State} {c} (hs : Keeps s0 s) :
    IfNext (Keeps s0) (execVecSub c s) := by
  unfold execVecSub
  repeat' (with_reducible first | assumption | refine IfNext.next ?_ | refine State.attemptVec_keeps ?_)

theorem execVecMul_keeps {s0 s : State} {c} (hs : Keeps s0 s) :
    IfNext (Keeps s0) (execVecMul c s) := by
  unfold execVecMul
  repeat' (with_reducible first | assumption | refine IfNext.next ?_ | refine State.attemptVec_keeps ?_)

theorem execVecFmas_keeps {s0 s : State} {c} (hs : Keeps s0 s) :
    IfNext (Keeps s0) (execVecFmas c s) := by
  unfold execVecFmas
  repeat' (with_reducible first | assumption | refine IfNext.next ?_ | refine State.attemptVec_keeps ?_)

theorem execVecAdds_keeps {s0 s : State} {c} (hs : Keeps s0 s) :
    IfNext (Keeps s0) (execVecAdds c s) := by
  unfold execVecAdds
  repeat' (with_reducible first | assumption | refine IfNext.next ?_ | refine State.attemptVec_keeps ?_)

theorem execVecMuls_keeps {s0 s : State} {c} (hs : Keeps s0 s) :
    IfNext (Keeps s0) (execVecMuls c s) := by
  unfold execVecMuls
  repeat' (with_reducible first | assumption | refine IfNext.next ?_ | refine State.attemptVec_keeps ?_)

theorem execVecMax_keeps {s0 s : State} {c} (hs : Keeps s0 s) :
    IfNext (Keeps s0) (execVecMax c s) := by
  unfold execVecMax
  repeat' (with_reducible first | assumption | refine IfNext.next ?_ | refine State.attemptVec_keeps ?_)

theorem execVecMin_keeps {s0 s : State} {c} (hs : Keeps s0 s) :
    IfNext (Keeps s0) (execVecMin c s) := by
  unfold execVecMin
  repeat' (with_reducible first | assumption | refine IfNext.next ?_ | refine State.attemptVec_keeps ?_)

theorem execVecAbs_keeps {s0 s : State} {c} (hs : Keeps s0 s) :
    IfNext (Keeps s0) (execVecAbs c s) := by
  unfold execVecAbs
  repeat' (with_reducible first | assumption | refine IfNext.next ?_ | refine State.attemptVec_keeps ?_)

theorem execVecDiv_keeps {s0 s : State} {c} (hs : Keeps s0 s) :
    IfNext (Keeps s0) (execVecDiv c s) := by
  unfold execVecDiv
  repeat' (with_reducible first | assumption | refine IfNext.next ?_ | refine State.attemptVec_keeps ?_)

theorem execVecRecip_keeps {s0 s : State} {c} (hs : Keeps s0 s) :
    IfNext (Keeps s0) (execVecRecip c s) := by
  unfold execVecRecip
  repeat' (with_reducible first | assumption | refine IfNext.next ?_ | refine State.attemptVec_keeps ?_)

theorem execVecSqrt_keeps {s0 s : State} {c} (hs : Keeps s0 s) :
    IfNext (Keeps s0) (execVecSqrt c s) := by
  unfold execVecSqrt
  repeat' (with_reducible first | assumption | refine IfNext.next ?_ | refine State.attemptVec_keeps ?_)

theorem execVecRsqrt_keeps {s0 s : State} {c} (hs : Keeps s0 s) :
    IfNext (Keeps s0) (execVecRsqrt c s) := by
  unfold execVecRsqrt
  repeat' (with_reducible first | assumption | refine IfNext.next ?_ | refine State.attemptVec_keeps ?_)

theorem execVecSubr_keeps {s0 s : State} {c} (hs : Keeps s0 s) :
    IfNext (Keeps s0) (execVecSubr c s) := by
  unfold execVecSubr
  repeat' (with_reducible first | assumption | refine IfNext.next ?_ | refine State.attemptVec_keeps ?_)

theorem execVecMulr_keeps {s0 s : State} {c} (hs : Keeps s0 s) :
    IfNext (Keeps s0) (execVecMulr c s) := by
  unfold execVecMulr
  repeat' (with_reducible first | assumption | refine IfNext.next ?_ | refine State.attemptVec_keeps ?_)

theorem execVecNormr_keeps {s0 s : State} {c} (hs : Keeps s0 s) :
    IfNext (Keeps s0) (execVecNormr c s) := by
  unfold execVecNormr
  repeat' (with_reducible first | assumption | refine IfNext.next ?_ | refine State.attemptVec_keeps ?_)

theorem execVecMulc_keeps {s0 s : State} {c} (hs : Keeps s0 s) :
    IfNext (Keeps s0) (execVecMulc c s) := by
  unfold execVecMulc
  repeat' (with_reducible first | assumption | refine IfNext.next ?_ | refine State.attemptVec_keeps ?_)

theorem execVecAddc_keeps {s0 s : State} {c} (hs : Keeps s0 s) :
    IfNext (Keeps s0) (execVecAddc c s) := by
  unfold execVecAddc
  repeat' (with_reducible first | assumption | refine IfNext.next ?_ | refine State.attemptVec_keeps ?_)

theorem execVecExpsubr_keeps {s0 s : State} {c} (hs : Keeps s0 s) :
    IfNext (Keeps s0) (execVecExpsubr c s) := by
  unfold execVecExpsubr
  repeat' (with_reducible first | assumption | refine IfNext.next ?_ | refine State.attemptVec_keeps ?_)

theorem execVecDivr_keeps {s0 s : State} {c} (hs : Keeps s0 s) :
    IfNext (Keeps s0) (execVecDivr c s) := by
  unfold execVecDivr
  repeat' (with_reducible first | assumption | refine IfNext.next ?_ | refine State.attemptVec_keeps ?_)

theorem execVecFunc_keeps {s0 s : State} {c} (hs : Keeps s0 s) :
    IfNext (Keeps s0) (execVecFunc c s) := by
  unfold execVecFunc
  repeat' (with_reducible first
    | assumption | refine IfNext.next ?_ | refine State.attemptVec_keeps ?_ | refine State.storeFails_keeps ?_ | split)

theorem execVecDeriv_keeps {s0 s : State} {c} (hs : Keeps s0 s) :
    IfNext (Keeps s0) (execVecDeriv c s) := by
  unfold execVecDeriv
  repeat' (with_reducible first | assumption | refine IfNext.next ?_ | refine State.attemptVec_keeps ?_)

theorem execVecPermute_keeps {s0 s : State} {c} (hs : Keeps s0 s) :
    IfNext (Keeps s0) (execVecPermute c s) := by
  unfold execVecPermute
  repeat' (with_reducible first | assumption | refine IfNext.next ?_ | refine State.attemptVec_keeps ?_)

theorem execVecShuffle_keeps {s0 s : State} {c} (hs : Keeps s0 s) :
    IfNext (Keeps s0) (execVecShuffle c s) := by
  unfold execVecShuffle
  repeat' (with_reducible first | assumption | refine IfNext.next ?_ | refine State.attemptVec_keeps ?_)

theorem execVecPackEven_keeps {s0 s : State} {c} (hs : Keeps s0 s) :
    IfNext (Keeps s0) (execVecPackEven c s) := by
  unfold execVecPackEven
  repeat' (with_reducible first | assumption | refine IfNext.next ?_ | refine State.attemptVec_keeps ?_)

theorem execVecPackOdd_keeps {s0 s : State} {c} (hs : Keeps s0 s) :
    IfNext (Keeps s0) (execVecPackOdd c s) := by
  unfold execVecPackOdd
  repeat' (with_reducible first | assumption | refine IfNext.next ?_ | refine State.attemptVec_keeps ?_)

theorem execVecUnpackLo_keeps {s0 s : State} {c} (hs : Keeps s0 s) :
    IfNext (Keeps s0) (execVecUnpackLo c s) := by
  unfold execVecUnpackLo
  repeat' (with_reducible first | assumption | refine IfNext.next ?_ | refine State.attemptVec_keeps ?_)

theorem execVecUnpackHi_keeps {s0 s : State} {c} (hs : Keeps s0 s) :
    IfNext (Keeps s0) (execVecUnpackHi c s) := by
  unfold execVecUnpackHi
  repeat' (with_reducible first | assumption | refine IfNext.next ?_ | refine State.attemptVec_keeps ?_)

theorem execVecIdxLoad_keeps {s0 s : State} {c} (hs : Keeps s0 s) :
    IfNext (Keeps s0) (execVecIdxLoad c s) := by
  unfold execVecIdxLoad
  repeat' (with_reducible first | assumption | refine IfNext.next ?_ | refine State.attemptVec_keeps ?_)

theorem execVecFreqLoad_keeps {s0 s : State} {c} (hs : Keeps s0 s) :
    IfNext (Keeps s0) (execVecFreqLoad c s) := by
  unfold execVecFreqLoad
  repeat' (with_reducible first | assumption | refine IfNext.next ?_ | refine State.attemptVec_keeps ?_)

theorem execVecRsum_keeps {s0 s : State} {c} (hs : Keeps s0 s) :
    IfNext (Keeps s0) (execVecRsum c s) := by
  unfold execVecRsum
  repeat' (with_reducible first | assumption | refine IfNext.next ?_ | refine State.attemptVec_keeps ?_)

theorem execVecRsumsq_keeps {s0 s : State} {c} (hs : Keeps s0 s) :
    IfNext (Keeps s0) (execVecRsumsq c s) := by
  unfold execVecRsumsq
  repeat' (with_reducible first | assumption | refine IfNext.next ?_ | refine State.attemptVec_keeps ?_)

theorem execVecRmax_keeps {s0 s : State} {c} (hs : Keeps s0 s) :
    IfNext (Keeps s0) (execVecRmax c s) := by
  unfold execVecRmax
  repeat' (with_reducible first | assumption | refine IfNext.next ?_ | refine State.attemptVec_keeps ?_)

theorem execVecRmin_keeps {s0 s : State} {c} (hs : Keeps s0 s) :
    IfNext (Keeps s0) (execVecRmin c s) := by
  unfold execVecRmin
  repeat' (with_reducible first | assumption | refine IfNext.next ?_ | refine State.attemptVec_keeps ?_)

theorem execVecRamax_keeps {s0 s : State} {c} (hs : Keeps s0 s) :
    IfNext (Keeps s0) (execVecRamax c s) := by
  unfold execVecRamax
  repeat' (with_reducible first | assumption | refine IfNext.next ?_ | refine State.attemptVec_keeps ?_)

theorem execVecRdot_keeps {s0 s : State} {c} (hs : Keeps s0 s) :
    IfNext (Keeps s0) (execVecRdot c s) := by
  unfold execVecRdot
  repeat' (with_reducible first | assumption | refine IfNext.next ?_ | refine State.attemptVec_keeps ?_)

theorem execVecRstats_keeps {s0 s : State} {c} (hs : Keeps s0 s) :
    IfNext (Keeps s0) (execVecRstats c s) := by
  unfold execVecRstats
  repeat' (with_reducible first | assumption | refine IfNext.next ?_ | refine State.attemptVec_keeps ?_)

theorem execVecRrms_keeps {s0 s : State} {c} (hs : Keeps s0 s) :
    IfNext (Keeps s0) (execVecRrms c s) := by
  unfold execVecRrms
  repeat' (with_reducible first | assumption | refine IfNext.next ?_ | refine State.attemptVec_keeps ?_)

theorem execVecMask_keeps {s0 s : State} {c} (hs : Keeps s0 s) :
    IfNext (Keeps s0) (execVecMask c s) := by
  unfold execVecMask
  repeat' (with_reducible first | assumption | refine IfNext.next ?_ | refine State.attemptVec_keeps ?_)

theorem execVecRotary_keeps {s0 s : State} {c} (hs : Keeps s0 s) :
    IfNext (Keeps s0) (execVecRotary c s) := by
  unfold execVecRotary
  repeat' (with_reducible first | assumption | refine IfNext.next ?_ | refine State.attemptVec_keeps ?_)

theorem execVecTopk_keeps {s0 s : State} {c} (hs : Keeps s0 s) :
    IfNext (Keeps s0) (execVecTopk c s) := by
  unfold execVecTopk
  repeat' (with_reducible first | assumption | refine IfNext.next ?_ | refine State.attemptVec_keeps ?_)

theorem execVecSplit_keeps {s0 s : State} {c} (hs : Keeps s0 s) :
    IfNext (Keeps s0) (execVecSplit c s) := by
  unfold execVecSplit
  repeat' (with_reducible first | assumption | refine IfNext.next ?_ | refine State.attemptVec_keeps ?_)

theorem execVecJoin_keeps {s0 s : State} {c} (hs : Keeps s0 s) :
    IfNext (Keeps s0) (execVecJoin c s) := by
  unfold execVecJoin
  repeat' (with_reducible first | assumption | refine IfNext.next ?_ | refine State.attemptVec_keeps ?_)

end Sys2Proof.Machine
end

