-- ==== Sys2Proof/Laws/KeepsData.lean ====
section
/-! SUPPORT. What the operations of Fabric, Messages, Streams leave alone: each keeps the
relation Keeps to an earlier state, whatever its operands. -/

namespace Sys2Proof.Machine

theorem State.link_keeps {s0 s : State} {i} (hs : Keeps s0 s) :
    Keeps s0 (State.link s i) := hs.upd rfl rfl rfl rfl

theorem State.placeCount_keeps {s0 s : State} {fabric need addr n e} (hs : Keeps s0 s) :
    Keeps s0 (State.placeCount s fabric need addr n e) := by
  unfold State.placeCount
  repeat' (with_reducible first | assumption | refine State.countRead_keeps ?_ | split)

theorem State.markDirty_keeps {s0 s : State} {a n} (hs : Keeps s0 s) :
    Keeps s0 (State.markDirty s a n) := by
  unfold State.markDirty
  repeat' (with_reducible first | assumption | split | refine Keeps.upd ?_ rfl rfl rfl rfl)

theorem State.pktOut_keeps {s0 s : State} {k p o} (hs : Keeps s0 s) :
    Keeps s0 (State.pktOut s k p o) := hs.push rfl rfl rfl rfl rfl

theorem State.sendNew_keeps {s0 s : State} {k r} (hs : Keeps s0 s) :
    Keeps s0 (State.sendNew s k r) := by
  unfold State.sendNew
  repeat' (with_reducible first | assumption | extract_lets | refine State.pktOut_keeps ?_ | refine State.setAssoc_keeps ?_ | split)

theorem State.packet_keeps {s0 s : State} {k r} (hs : Keeps s0 s) :
    Keeps s0 (State.packet s k r) := by
  unfold State.packet
  repeat' (with_reducible first | assumption | extract_lets | refine State.sendNew_keeps ?_ | refine State.setAssoc_keeps ?_ | split)

theorem State.request_keeps {s0 s : State} {k o p} (hs : Keeps s0 s) :
    Keeps s0 (State.request s k o p) := by
  unfold State.request
  repeat' (with_reducible first | assumption | refine State.packet_keeps ?_ | refine State.modAssoc_keeps ?_)

theorem State.parts_keeps {s0 s : State} {k id o p last x6 x7} (hs : Keeps s0 s) :
    Keeps s0 (State.parts s k id o p last x6 x7) := by
  fun_induction State.parts s k id o p last x6 x7
  all_goals repeat' (with_reducible first | refine State.packet_keeps ?_ | apply_assumption)

theorem State.requestMsg_keeps {s0 s : State} {k o p} (hs : Keeps s0 s) :
    Keeps s0 (State.requestMsg s k o p) := by
  unfold State.requestMsg
  repeat' (with_reducible first | assumption | refine State.parts_keeps ?_ | refine State.modAssoc_keeps ?_)

theorem State.respond_keeps {s0 s : State} {k reqId op st gen data} (hs : Keeps s0 s) :
    Keeps s0 (State.respond s k reqId op st gen data) := by
  unfold State.respond
  repeat' (with_reducible first | assumption | refine State.packet_keeps ?_ | split)

theorem State.countGet_keeps {s0 s : State} {a n v e} (hs : Keeps s0 s) :
    Keeps s0 (State.countGet s a n v e) := by
  unfold State.countGet
  repeat' (with_reducible first | assumption | refine State.countRead_keeps ?_ | split)

theorem State.addAll_keeps {s0 s : State} {a x2} (hs : Keeps s0 s) :
    Keeps s0 (State.addAll s a x2) := by
  fun_induction State.addAll s a x2
  all_goals repeat' (with_reducible first | refine State.lineAdd_keeps ?_ | apply_assumption)

theorem State.serveAdd_keeps {s0 s : State} {w a b} (hs : Keeps s0 s) :
    IfOk (Keeps s0) (State.serveAdd s w a b) := by
  unfold State.serveAdd
  repeat' (with_reducible first | assumption | refine IfOk.ok ?_ | exact IfOk.error | refine State.addAll_keeps ?_ | split)

theorem State.serveAtomic_keeps {s0 s : State} {w op a operand compare} (hs : Keeps s0 s) :
    IfOk (KeepsR s0) (State.serveAtomic s w op a operand compare) := by
  unfold State.serveAtomic
  repeat' (with_reducible first
    | assumption | extract_lets | refine IfOk.ok ?_ | exact IfOk.error | refine State.writeMem_keeps ?_
    | refine IfOk.get (by assumption) ?_ | split | refine KeepsR.mk ?_)

theorem State.deviceWrite_keeps {s0 s : State} {addr b} (hs : Keeps s0 s) :
    Keeps s0 (State.deviceWrite s addr b) := by
  unfold State.deviceWrite
  repeat' (with_reducible first
    | assumption | refine State.writeMem_keeps ?_ | refine State.markDirty_keeps ?_ | refine State.request_keeps ?_
    | refine State.countWrite_keeps ?_ | refine IfOk.get (by assumption) ?_ | split | refine Keeps.upd ?_ rfl rfl rfl rfl)

theorem State.deviceWrites_keeps {s0 s : State} {x1} (hs : Keeps s0 s) :
    Keeps s0 (State.deviceWrites s x1) := by
  fun_induction State.deviceWrites s x1
  all_goals repeat' (with_reducible first | extract_lets | exact Keeps.refl _ | refine State.deviceWrite_keeps ?_ | split | apply_assumption)

theorem State.retryWrites_keeps {s0 s : State} (hs : Keeps s0 s) :
    Keeps s0 (State.retryWrites s) := by
  unfold State.retryWrites
  repeat' (with_reducible first | assumption | refine State.deviceWrites_keeps ?_ | refine Keeps.upd ?_ rfl rfl rfl rfl)

theorem execNqAnnounceWrite_keeps {s0 s : State} {q} (hs : Keeps s0 s) :
    IfNext (Keeps s0) (execNqAnnounceWrite q s) := by
  unfold execNqAnnounceWrite
  repeat' (with_reducible first
    | assumption | extract_lets | exact Keeps.refl _ | refine IfNext.next ?_ | refine State.setNq_keeps ?_
    | refine State.deviceWrite_keeps ?_ | split)

theorem State.tokenLeaves_keeps {s0 s : State} {t x2} (hs : Keeps s0 s) :
    Keeps s0 (State.tokenLeaves s t x2) := by
  fun_induction State.tokenLeaves s t x2
  all_goals repeat' (with_reducible first | refine State.tokenSignal_keeps ?_ | apply_assumption)

theorem State.tokenFar_keeps {s0 s : State} {t bounds x3} (hs : Keeps s0 s) :
    Keeps s0 (State.tokenFar s t bounds x3) := by
  fun_induction State.tokenFar s t bounds x3
  all_goals repeat' (with_reducible first | refine State.request_keeps ?_ | split | apply_assumption | refine Keeps.upd ?_ rfl rfl rfl rfl)

theorem State.signalUnit_keeps {s0 s : State} {u t bounds} (hs : Keeps s0 s) :
    Keeps s0 (State.signalUnit s u t bounds) := by
  unfold State.signalUnit
  repeat' (with_reducible first | assumption | refine State.tokenLeaves_keeps ?_ | refine State.tokenFar_keeps ?_)

theorem State.answerLandings_keeps {s0 s : State} {x1} (hs : Keeps s0 s) :
    Keeps s0 (State.answerLandings s x1) := by
  fun_induction State.answerLandings s x1
  all_goals repeat' (with_reducible first | refine State.respond_keeps ?_ | apply_assumption)

theorem State.settleLandings_keeps {s0 s : State} (hs : Keeps s0 s) :
    Keeps s0 (State.settleLandings s) := by
  unfold State.settleLandings
  repeat' (with_reducible first | assumption | refine State.answerLandings_keeps ?_ | refine Keeps.upd ?_ rfl rfl rfl rfl)

theorem State.answerMsg_keeps {s0 s : State} {src t} (hs : Keeps s0 s) :
    Keeps s0 (State.answerMsg s src t) := by
  unfold State.answerMsg
  repeat' (with_reducible first
    | assumption | refine State.settleLandings_keeps ?_ | refine State.modCore_keeps ?_ | split | refine Keeps.upd ?_ rfl rfl rfl rfl)

theorem State.deliver_keeps {s0 s : State} {m c} (hs : Keeps s0 s) :
    Keeps s0 (State.deliver s m c) := by
  unfold State.deliver
  repeat' (with_reducible first
    | assumption | extract_lets | refine State.answerMsg_keeps ?_ | refine State.modCore_keeps ?_ | refine State.doorCount_keeps ?_
    | split)

theorem State.deliverAll_keeps {s0 s : State} {m x2} (hs : Keeps s0 s) :
    Keeps s0 (State.deliverAll s m x2) := by
  fun_induction State.deliverAll s m x2
  all_goals repeat' (with_reducible first | refine State.deliver_keeps ?_ | apply_assumption)

theorem State.msgFar_keeps {s0 s : State} {ans : State → Tally → State} {p gen aux bounds data x7} (hs : Keeps s0 s) (kans : ∀ y0 y1, Keeps s0 y0 → Keeps s0 (ans y0 y1)) :
    Keeps s0 (State.msgFar s p gen aux bounds data ans x7) := by
  fun_induction State.msgFar s p gen aux bounds data ans x7
  all_goals repeat' (with_reducible first | refine State.requestMsg_keeps ?_ | split | apply_assumption | refine Keeps.upd ?_ rfl rfl rfl rfl)

theorem State.msgGone_keeps {s0 s : State} {ans : State → Tally → State} {x2} (hs : Keeps s0 s) (kans : ∀ y0 y1, Keeps s0 y0 → Keeps s0 (ans y0 y1)) :
    Keeps s0 (State.msgGone s ans x2) := by
  fun_induction State.msgGone s ans x2
  all_goals repeat' (with_reducible first | apply_assumption)

theorem State.sendPut_keeps {s0 s : State} {c seq x3} (hs : Keeps s0 s) :
    Keeps s0 (State.sendPut s c seq x3) := by
  fun_induction State.sendPut s c seq x3
  all_goals repeat' (with_reducible first
    | refine State.writeMem_keeps ?_ | refine State.markDirty_keeps ?_ | refine State.modCore_keeps ?_ | refine State.request_keeps ?_
    | refine State.countWrite_keeps ?_ | refine IfOk.get (by assumption) ?_ | split | apply_assumption
    | refine Keeps.upd ?_ rfl rfl rfl rfl)

theorem State.sendUnit_keeps {s0 s : State} {c seq u q payload} (hs : Keeps s0 s) :
    Keeps s0 (State.sendUnit s c seq u q payload) := by
  unfold State.sendUnit
  repeat' (with_reducible first
    | assumption | refine State.answerMsg_keeps ?_ | refine State.modCore_keeps ?_ | refine State.deliverAll_keeps ?_
    | refine State.msgGone_keeps ?_ ?_ | refine State.msgFar_keeps ?_ ?_ | split | (intro _) | refine Keeps.upd ?_ rfl rfl rfl rfl)

theorem State.issueSend_keeps {s0 s : State} {c q pk ecc} (hs : Keeps s0 s) :
    Keeps s0 (State.issueSend s c q pk ecc) := by
  unfold State.issueSend
  repeat' (with_reducible first
    | assumption | extract_lets | exact Keeps.refl _ | refine State.sendUnit_keeps ?_ | refine State.fresh_keeps ?_
    | refine State.sendPut_keeps ?_ | refine State.modCore_keeps ?_ | refine State.setCore_keeps ?_ | split)

theorem execSend_keeps {s0 s : State} {c} (hs : Keeps s0 s) :
    IfNext (Keeps s0) (execSend c s) := by
  unfold execSend
  repeat' (with_reducible first
    | assumption | refine IfNext.next ?_ | refine State.attempt_keeps ?_ ?_ | refine State.issueSend_keeps ?_ | (intro _))

theorem State.retryPuts_keeps {s0 s : State} {c seq} (hs : Keeps s0 s) :
    Keeps s0 (State.retryPuts s c seq) := by
  unfold State.retryPuts
  repeat' (with_reducible first
    | assumption | extract_lets | exact Keeps.refl _ | refine State.sendPut_keeps ?_ | refine State.modCore_keeps ?_ | split)

theorem execSendComplete_keeps {s0 s : State} {c seq} (hs : Keeps s0 s) :
    IfNext (Keeps s0) (execSendComplete c seq s) := by
  unfold execSendComplete
  repeat' (with_reducible first
    | assumption | extract_lets | refine IfNext.next ?_ | refine State.retryPuts_keeps ?_ | refine State.setCore_keeps ?_
    | refine State.signal_keeps ?_ | split)

theorem State.ringWrite_keeps {s0 s : State} {c r x3 x4} (hs : Keeps s0 s) :
    Keeps s0 (State.ringWrite s c r x3 x4) := by
  fun_induction State.ringWrite s c r x3 x4
  all_goals repeat' (with_reducible first | refine State.poke_keeps ?_ | apply_assumption)

theorem execMsgCreditGrant_keeps {s0 s : State} {c ch} (hs : Keeps s0 s) :
    IfNext (Keeps s0) (execMsgCreditGrant c ch s) := by
  unfold execMsgCreditGrant
  repeat' (with_reducible first | assumption | extract_lets | refine IfNext.next ?_ | refine State.setCore_keeps ?_ | split)

theorem State.enterRing_keeps {s0 s : State} {c ch start m} (hs : Keeps s0 s) :
    Keeps s0 (State.enterRing s c ch start m) := by
  unfold State.enterRing
  repeat' (with_reducible first
    | assumption | refine State.ringWrite_keeps ?_ | refine State.modCore_keeps ?_ | refine State.tokenRise_keeps ?_ | split)

theorem execMsgCompleteInRing_keeps {s0 s : State} {c ch} (hs : Keeps s0 s) :
    IfNext (Keeps s0) (execMsgCompleteInRing c ch s) := by
  unfold execMsgCompleteInRing
  repeat' (with_reducible first
    | assumption | dsimp only | refine IfNext.next ?_ | refine State.answerMsg_keeps ?_ | refine State.enterRing_keeps ?_
    | refine State.setCore_keeps ?_ | split)

theorem execRecv_keeps {s0 s : State} {c} (hs : Keeps s0 s) :
    IfNext (Keeps s0) (execRecv c s) := by
  unfold execRecv
  repeat' (with_reducible first
    | assumption | extract_lets | refine IfNext.next ?_ | refine State.attempt_keeps ?_ ?_ | refine State.fresh_keeps ?_
    | refine State.setCore_keeps ?_ | split | (intro _))

theorem execCompl_keeps {s0 s : State} {c} (hs : Keeps s0 s) :
    IfNext (Keeps s0) (execCompl c s) := by
  unfold execCompl
  repeat' (with_reducible first
    | assumption | extract_lets | refine IfNext.next ?_ | refine State.attempt_keeps ?_ ?_ | refine State.fresh_keeps ?_
    | refine State.setCore_keeps ?_ | split | (intro _))

theorem execRecvCopyDone_keeps {s0 s : State} {c} (hs : Keeps s0 s) :
    IfNext (Keeps s0) (execRecvCopyDone c s) := by
  unfold execRecvCopyDone
  repeat' (with_reducible first
    | assumption | extract_lets | refine IfNext.next ?_ | refine State.poke_keeps ?_ | refine State.setCore_keeps ?_
    | refine State.signal_keeps ?_ | split)

theorem unpackTile_keeps {s0 x6 : State} {c t f w v x5} (hx6 : Keeps s0 x6) :
    Keeps s0 (unpackTile c t f w v x5 x6) := by
  induction x5 generalizing c t f w v x6 with
  | nil => rw [unpackTile] <;> repeat' (with_reducible first | refine State.putElem_keeps ?_ | split | apply_assumption)
  | cons y t ih =>
    rw [unpackTile]
    repeat' (with_reducible first | refine State.putElem_keeps ?_ | split | apply_assumption)

theorem State.fillTile_keeps {s0 s : State} {c t d v} (hs : Keeps s0 s) :
    Keeps s0 (State.fillTile s c t d v) := by
  unfold State.fillTile
  repeat' (with_reducible first | assumption | dsimp only | refine State.poke_keeps ?_ | refine unpackTile_keeps ?_ | split)

theorem State.addAt_keeps {s0 s : State} {a x2} (hs : Keeps s0 s) :
    Keeps s0 (State.addAt s a x2) := by
  fun_induction State.addAt s a x2
  all_goals repeat' (with_reducible first | refine State.lineAdd_keeps ?_ | apply_assumption)

theorem State.noteRead_keeps {s0 s : State} {c num i} (hs : Keeps s0 s) :
    Keeps s0 (State.noteRead s c num i) := by
  unfold State.noteRead
  repeat' (with_reducible first | assumption | refine State.modCore_keeps ?_ | split)

theorem State.launch_keeps {s0 s : State} {c num x3} (hs : Keeps s0 s) :
    Keeps s0 (State.launch s c num x3) := by
  induction x3 generalizing s c num with
  | nil => rw [State.launch] <;> repeat' (with_reducible first
    | refine State.markDirty_keeps ?_ | refine State.modCore_keeps ?_ | refine State.noteRead_keeps ?_ | refine State.request_keeps ?_
    | split | apply_assumption)
  | cons y t ih =>
    rw [State.launch]
    repeat' (with_reducible first
      | refine State.markDirty_keeps ?_ | refine State.modCore_keeps ?_ | refine State.noteRead_keeps ?_
      | refine State.request_keeps ?_ | split | apply_assumption)

theorem State.launchAll_keeps {s0 s : State} {c num} (hs : Keeps s0 s) :
    Keeps s0 (State.launchAll s c num) := by
  unfold State.launchAll
  repeat' (with_reducible first | assumption | refine State.launch_keeps ?_ | split)

theorem State.pieceWrite_keeps {s0 s : State} {c num i fab a b} (hs : Keeps s0 s) :
    Keeps s0 (State.pieceWrite s c num i fab a b) := by
  unfold State.pieceWrite
  repeat' (with_reducible first
    | assumption | refine State.writeMem_keeps ?_ | refine State.markDirty_keeps ?_ | refine State.modCore_keeps ?_
    | refine State.request_keeps ?_ | refine State.countWrite_keeps ?_ | refine IfOk.get (by assumption) ?_ | split)

theorem State.runPiece_keeps {s0 s : State} {c num i p} (hs : Keeps s0 s) :
    Keeps s0 (State.runPiece s c num i p) := by
  unfold State.runPiece
  repeat' (with_reducible first
    | assumption | extract_lets | refine State.doorAt_keeps ?_ | refine State.markDirty_keeps ?_ | refine State.modCore_keeps ?_
    | refine State.serveAtomic_keeps ?_ | refine State.poke_keeps ?_ | refine State.noteRead_keeps ?_
    | refine State.placeCount_keeps ?_ | refine State.pieceWrite_keeps ?_ | refine State.addAt_keeps ?_
    | refine IfOk.getR (by assumption) ?_ | split)

theorem State.runPieces_keeps {s0 s : State} {c num x3} (hs : Keeps s0 s) :
    Keeps s0 (State.runPieces s c num x3) := by
  fun_induction State.runPieces s c num x3
  all_goals repeat' (with_reducible first | refine State.runPiece_keeps ?_ | apply_assumption)

theorem State.moveTile_keeps {s0 s : State} {c num} (hs : Keeps s0 s) :
    Keeps s0 (State.moveTile s c num) := by
  unfold State.moveTile
  repeat' (with_reducible first
    | assumption | extract_lets | refine State.fillTile_keeps ?_ | refine State.modCore_keeps ?_ | refine State.placeCount_keeps ?_
    | refine State.runPieces_keeps ?_ | split)

theorem State.moveTiles_keeps {s0 s : State} {c num x3} (hs : Keeps s0 s) :
    Keeps s0 (State.moveTiles s c num x3) := by
  fun_induction State.moveTiles s c num x3
  all_goals repeat' (with_reducible first | refine State.moveTile_keeps ?_ | apply_assumption)

theorem State.streamNotice_keeps {s0 s : State} {c kind queues tag st i} (hs : Keeps s0 s) :
    Keeps s0 (State.streamNotice s c kind queues tag st i) := hs.upd rfl rfl rfl rfl

theorem State.strEnd_keeps {s0 s : State} {c cue st nq tag i} (hs : Keeps s0 s) :
    Keeps s0 (State.strEnd s c cue st nq tag i) := by
  unfold State.strEnd
  repeat' (with_reducible first
    | assumption | refine State.modCore_keeps ?_ | refine State.streamNotice_keeps ?_ | refine State.signal_keeps ?_ | split
    | refine Keeps.upd ?_ rfl rfl rfl rfl)

theorem State.endXfer_keeps {s0 s : State} {c x} (hs : Keeps s0 s) :
    Keeps s0 (State.endXfer s c x) := by
  unfold State.endXfer
  repeat' (with_reducible first
    | assumption | extract_lets | refine State.strEnd_keeps ?_ | refine State.modCore_keeps ?_ | refine State.streamNotice_keeps ?_
    | split)

theorem putWords_keeps {s0 x4 : State} {c d x2 x3} (hx4 : Keeps s0 x4) :
    Keeps s0 (putWords c d x2 x3 x4) := by
  fun_induction putWords c d x2 x3 x4
  all_goals repeat' (with_reducible first | refine State.pokeNum_keeps ?_ | apply_assumption)

theorem State.wordsIn_keeps {s0 s : State} {c num} (hs : Keeps s0 s) :
    Keeps s0 (State.wordsIn s c num) := by
  unfold State.wordsIn
  repeat' (with_reducible first | assumption | refine putWords_keeps ?_ | refine State.modCore_keeps ?_ | split)

theorem State.beginXfer_keeps {s0 s : State} {c e} (hs : Keeps s0 s) :
    Keeps s0 (State.beginXfer s c e) := by
  unfold State.beginXfer
  repeat' (with_reducible first
    | assumption | extract_lets | refine State.launchAll_keeps ?_ | refine State.strEnd_keeps ?_ | refine State.modCore_keeps ?_
    | split)

theorem State.rearm_keeps {s0 s : State} {c e} (hs : Keeps s0 s) :
    Keeps s0 (State.rearm s c e) := by
  unfold State.rearm
  repeat' (with_reducible first
    | assumption | extract_lets | refine State.strEnd_keeps ?_ | refine State.modCore_keeps ?_ | refine State.streamNotice_keeps ?_
    | refine State.signal_keeps ?_ | split)

theorem State.sendHandle_keeps {s0 s : State} {c h2 cue hd} (hs : Keeps s0 s) :
    Keeps s0 (State.sendHandle s c h2 cue hd) := by
  unfold State.sendHandle
  repeat' (with_reducible first
    | assumption | refine State.modCore_keeps ?_ | refine State.setCore_keeps ?_ | refine State.request_keeps ?_ | split
    | refine Keeps.upd ?_ rfl rfl rfl rfl)

theorem State.strHead_keeps {s0 s : State} {c e} (hs : Keeps s0 s) :
    IfSome (Keeps s0) (State.strHead s c e) := by
  unfold State.strHead
  repeat' (with_reducible first
    | assumption | extract_lets | refine IfSome.some ?_ | exact IfSome.none | refine State.beginXfer_keeps ?_
    | refine State.strEnd_keeps ?_ | refine State.modCore_keeps ?_ | refine State.signal_keeps ?_ | refine State.rearm_keeps ?_
    | refine State.sendHandle_keeps ?_ | split)

theorem strGo_keeps {s0 x2 : State} {c x1} (hx2 : Keeps s0 x2) :
    Keeps s0 (strGo c x1 x2) := by
  fun_induction strGo c x1 x2
  all_goals repeat' (with_reducible first
    | refine State.strHead_keeps ?_ | refine State.modCore_keeps ?_ | refine IfSome.get (by assumption) ?_ | apply_assumption)

theorem State.strPump_keeps {s0 s : State} {c} (hs : Keeps s0 s) :
    Keeps s0 (State.strPump s c) := by
  unfold State.strPump
  repeat' (with_reducible first | assumption | refine strGo_keeps ?_ | split)

theorem State.issueStr_keeps {s0 s : State} {c q pk ecc} (hs : Keeps s0 s) :
    Keeps s0 (State.issueStr s c q pk ecc) := by
  unfold State.issueStr
  repeat' (with_reducible first
    | assumption | refine State.fresh_keeps ?_ | refine State.strPump_keeps ?_ | refine State.modCore_keeps ?_)

theorem execStrStart_keeps {s0 s : State} {c ecc} (hs : Keeps s0 s) :
    IfNext (Keeps s0) (execStrStart c ecc s) := by
  unfold execStrStart
  repeat' (with_reducible first
    | assumption | refine IfNext.next ?_ | refine State.attempt_keeps ?_ ?_ | refine State.issueStr_keeps ?_ | (intro _))

theorem execStrRearm_keeps {s0 s : State} {c} (hs : Keeps s0 s) :
    IfNext (Keeps s0) (execStrRearm c s) := by
  unfold execStrRearm
  repeat' (with_reducible first
    | assumption | refine IfNext.next ?_ | refine State.attempt_keeps ?_ ?_ | refine State.issueStr_keeps ?_ | (intro _))

theorem execStrRelease_keeps {s0 s : State} {c} (hs : Keeps s0 s) :
    IfNext (Keeps s0) (execStrRelease c s) := by
  unfold execStrRelease
  repeat' (with_reducible first
    | assumption | refine IfNext.next ?_ | refine State.attempt_keeps ?_ ?_ | refine State.issueStr_keeps ?_ | (intro _))

theorem execStrTake_keeps {s0 s : State} {c} (hs : Keeps s0 s) :
    IfNext (Keeps s0) (execStrTake c s) := by
  unfold execStrTake
  repeat' (with_reducible first
    | assumption | refine IfNext.next ?_ | refine State.attempt_keeps ?_ ?_ | refine State.issueStr_keeps ?_ | (intro _))

theorem execStreamTileResident_keeps {s0 s : State} {c x} (hs : Keeps s0 s) :
    IfNext (Keeps s0) (execStreamTileResident c x s) := by
  unfold execStreamTileResident
  repeat' (with_reducible first
    | assumption | refine IfNext.next ?_ | refine State.launchAll_keeps ?_ | refine State.moveTile_keeps ?_ | split)

theorem State.driveXfer_keeps {s0 s : State} {c num} (hs : Keeps s0 s) :
    Keeps s0 (State.driveXfer s c num) := by
  unfold State.driveXfer
  repeat' (with_reducible first
    | assumption | extract_lets | refine State.launchAll_keeps ?_ | refine State.moveTiles_keeps ?_ | refine State.runPieces_keeps ?_
    | split)

theorem execStreamTransferComplete_keeps {s0 s : State} {c x} (hs : Keeps s0 s) :
    IfNext (Keeps s0) (execStreamTransferComplete c x s) := by
  unfold execStreamTransferComplete
  repeat' (with_reducible first
    | assumption | extract_lets | refine IfNext.next ?_ | refine State.wordsIn_keeps ?_ | refine putWords_keeps ?_
    | refine State.strPump_keeps ?_ | refine State.modCore_keeps ?_ | refine State.endXfer_keeps ?_ | refine State.driveXfer_keeps ?_
    | split | refine Keeps.upd ?_ rfl rfl rfl rfl)

theorem State.streamAnswer_keeps {s0 s : State} {c num i st b} (hs : Keeps s0 s) :
    Keeps s0 (State.streamAnswer s c num i st b) := by
  unfold State.streamAnswer
  repeat' (with_reducible first | assumption | refine State.modCore_keeps ?_ | split)

theorem execShadowInEffect_keeps {s0 s : State} {c d} (hs : Keeps s0 s) :
    IfNext (Keeps s0) (execShadowInEffect c d s) := by
  unfold execShadowInEffect
  repeat' (with_reducible first
    | assumption | extract_lets | refine IfNext.next ?_ | refine State.strPump_keeps ?_ | refine State.setCore_keeps ?_ | split)

theorem State.answerHandle_keeps {s0 s : State} {src c st} (hs : Keeps s0 s) :
    Keeps s0 (State.answerHandle s src c st) := by
  unfold State.answerHandle
  repeat' (with_reducible first | assumption | refine State.modCore_keeps ?_ | refine State.respond_keeps ?_ | split)

theorem State.arrive_keeps {s0 s : State} {c ep h3 src} (hs : Keeps s0 s) :
    Keeps s0 (State.arrive s c ep h3 src) := by
  unfold State.arrive
  repeat' (with_reducible first
    | assumption | extract_lets | refine State.strPump_keeps ?_ | refine State.modCore_keeps ?_ | refine State.answerHandle_keeps ?_
    | refine State.doorCount_keeps ?_ | refine State.handleIn_keeps ?_ | split)

theorem execHandleArrival_keeps {s0 s : State} {c ep h2 src} (hs : Keeps s0 s) :
    IfNext (Keeps s0) (execHandleArrival c ep h2 src s) := by
  unfold execHandleArrival
  repeat' (with_reducible first | assumption | refine IfNext.next ?_ | refine State.arrive_keeps ?_ | split)

theorem execHandleReleaseAnswer_keeps {s0 s : State} {c ep st} (hs : Keeps s0 s) :
    IfNext (Keeps s0) (execHandleReleaseAnswer c ep st s) := by
  unfold execHandleReleaseAnswer
  repeat' (with_reducible first
    | assumption | extract_lets | refine IfNext.next ?_ | refine State.strEnd_keeps ?_ | refine State.strPump_keeps ?_
    | refine State.setCore_keeps ?_ | split)

theorem execHqEnableWrite_keeps {s0 s : State} {c ep v} (hs : Keeps s0 s) :
    IfNext (Keeps s0) (execHqEnableWrite c ep v s) := by
  unfold execHqEnableWrite
  repeat' (with_reducible first
    | assumption | refine IfNext.next ?_ | refine State.atDoor_keeps ?_ ?_ | refine State.strPump_keeps ?_
    | refine State.modCore_keeps ?_ | (intro _))

theorem State.inject_keeps {s0 s : State} {c hi} (hs : Keeps s0 s) :
    Keeps s0 (State.inject s c hi) := by
  unfold State.inject
  repeat' (with_reducible first | assumption | extract_lets | refine State.strPump_keeps ?_ | refine State.setCore_keeps ?_ | split)

theorem execHqInjectWrite_keeps {s0 s : State} {c v} (hs : Keeps s0 s) :
    IfNext (Keeps s0) (execHqInjectWrite c v s) := by
  unfold execHqInjectWrite
  repeat' (with_reducible first
    | assumption | refine IfNext.next ?_ | refine State.inject_keeps ?_ | refine State.atDoor_keeps ?_ ?_ | (intro _))

theorem execHqPriorityWrite_keeps {s0 s : State} {c ep p} (hs : Keeps s0 s) :
    IfNext (Keeps s0) (execHqPriorityWrite c ep p s) := by
  unfold execHqPriorityWrite
  repeat' (with_reducible first
    | assumption | refine IfNext.next ?_ | refine State.atDoor_keeps ?_ ?_ | refine State.modCore_keeps ?_ | (intro _))

theorem releaseGo_keeps {s0 x2 : State} {c x1} (hx2 : Keeps s0 x2) :
    Keeps s0 (releaseGo c x1 x2) := by
  fun_induction releaseGo c x1 x2
  all_goals repeat' (with_reducible first
    | refine State.wordsIn_keeps ?_ | refine State.tokenIn_keeps ?_ | refine State.modCore_keeps ?_ | refine State.arrive_keeps ?_
    | apply_assumption)

theorem State.releaseHeld_keeps {s0 s : State} {c} (hs : Keeps s0 s) :
    Keeps s0 (State.releaseHeld s c) := by
  unfold State.releaseHeld
  repeat' (with_reducible first | assumption | extract_lets | refine releaseGo_keeps ?_ | refine State.modCore_keeps ?_)

theorem execSceneCommit_keeps {s0 s : State} {c} (hs : Keeps s0 s) :
    IfNext (Keeps s0) (execSceneCommit c s) := by
  unfold execSceneCommit
  repeat' (with_reducible first
    | assumption | extract_lets | refine IfNext.next ?_ | refine State.releaseHeld_keeps ?_ | refine State.setCore_keeps ?_ | split)

end Sys2Proof.Machine
end

