-- ==== Sys2Proof/Laws/KeepsMioder.lean ====
section
/-! SUPPORT. What the operations of Mioder leave alone: each keeps the
relation Keeps to an earlier state, whatever its operands. -/

namespace Sys2Proof.Machine

theorem State.authFail_keeps {s0 s : State} (hs : Keeps s0 s) :
    Keeps s0 (State.authFail s) := hs.upd rfl rfl rfl rfl

theorem State.replayDrop_keeps {s0 s : State} (hs : Keeps s0 s) :
    Keeps s0 (State.replayDrop s) := hs.upd rfl rfl rfl rfl

theorem State.mayEnter_keeps {s0 s : State} {k c phase} (hs : Keeps s0 s) :
    KeepsL s0 (State.mayEnter s k c phase) := by
  unfold State.mayEnter
  repeat' (with_reducible first
    | assumption | refine State.authFail_keeps ?_ | refine State.setAssoc_keeps ?_ | refine State.replayDrop_keeps ?_ | split
    | refine KeepsL.mk ?_)

theorem State.rxFrame_keeps {s0 s : State} {f} (hs : Keeps s0 s) :
    Keeps s0 (State.rxFrame s f) := hs.upd rfl rfl rfl rfl

theorem State.ackOut_keeps {s0 s : State} {k path ce} (hs : Keeps s0 s) :
    Keeps s0 (State.ackOut s k path ce) := hs.push rfl rfl rfl rfl rfl

theorem State.receive_keeps {s0 s : State} {k c phase psn path f} (hs : Keeps s0 s) :
    KeepsL s0 (State.receive s k c phase psn path f) := by
  unfold State.receive
  repeat' (with_reducible first
    | assumption | refine State.mayEnter_keeps ?_ | refine State.ackOut_keeps ?_ | refine State.rxFrame_keeps ?_
    | refine State.setAssoc_keeps ?_ | refine KeepsL.get (by assumption) ?_ | split | refine KeepsL.mk ?_)

theorem State.reply_keeps {s0 s : State} {r op st gen data} (hs : Keeps s0 s) :
    Keeps s0 (State.reply s r op st gen data) := by
  unfold State.reply
  repeat' (with_reducible first | assumption | refine State.respond_keeps ?_)

theorem State.serveHere_keeps {s0 s : State} {op r a} (hs : Keeps s0 s) :
    KeepsR3 s0 (State.serveHere s op r a) := by
  unfold State.serveHere
  repeat' (with_reducible first
    | assumption | refine State.doorAt_keeps ?_ | refine State.writeMem_keeps ?_ | refine State.markDirty_keeps ?_
    | refine State.serveAtomic_keeps ?_ | refine State.serveAdd_keeps ?_ | refine State.countGet_keeps ?_
    | refine State.countWrite_keeps ?_ | refine State.countRead_keeps ?_ | refine IfOk.getR (by assumption) ?_
    | refine IfOk.get (by assumption) ?_ | split | refine KeepsR3.mk ?_)

theorem State.migHold_keeps {s0 s : State} {h1} (hs : Keeps s0 s) :
    Keeps s0 (State.migHold s h1) := hs.upd rfl rfl rfl rfl

theorem State.relayParts_keeps {s0 s : State} {k op r t x5 x6} (hs : Keeps s0 s) :
    Keeps s0 (State.relayParts s k op r t x5 x6) := by
  induction x6 generalizing s k op r t x5 with
  | nil => rw [State.relayParts] <;> repeat' (with_reducible first | refine State.request_keeps ?_ | apply_assumption)
  | cons y t ih =>
    rw [State.relayParts]
    repeat' (with_reducible first | refine State.request_keeps ?_ | apply_assumption)

theorem State.relayOn_keeps {s0 s : State} {k op r t} (hs : Keeps s0 s) :
    Keeps s0 (State.relayOn s k op r t) := by
  unfold State.relayOn
  repeat' (with_reducible first | assumption | refine State.relayParts_keeps ?_ | split | refine Keeps.upd ?_ rfl rfl rfl rfl)

theorem State.serveMem_keeps {s0 s : State} {op r} (hs : Keeps s0 s) :
    Keeps s0 (State.serveMem s op r) := by
  unfold State.serveMem
  repeat' (with_reducible first
    | assumption | refine State.reply_keeps ?_ | refine State.markDirty_keeps ?_ | refine State.serveHere_keeps ?_
    | refine State.relayOn_keeps ?_ | refine State.migHold_keeps ?_ | split | (intro _) | refine KeepsR3.last ?_
    | refine Keeps.upd ?_ rfl rfl rfl rfl)

theorem State.mioMem_keeps {s0 s : State} {op r i} (hs : Keeps s0 s) :
    Keeps s0 (State.mioMem s op r i) := by
  unfold State.mioMem
  repeat' (with_reducible first
    | assumption | exact Keeps.refl _ | refine State.receive_keeps ?_ | refine State.serveMem_keeps ?_ | refine State.hold_keeps ?_
    | refine KeepsL.get (by assumption) ?_ | split | refine KeepsL.fst ?_)

theorem execMioderPut_keeps {s0 s : State} {r} (hs : Keeps s0 s) :
    IfNext (Keeps s0) (execMioderPut r s) := by
  unfold execMioderPut
  repeat' (with_reducible first | assumption | refine IfNext.next ?_ | refine State.mioMem_keeps ?_)

theorem execMioderGet_keeps {s0 s : State} {r} (hs : Keeps s0 s) :
    IfNext (Keeps s0) (execMioderGet r s) := by
  unfold execMioderGet
  repeat' (with_reducible first | assumption | refine IfNext.next ?_ | refine State.mioMem_keeps ?_)

theorem execMioderAtomic_keeps {s0 s : State} {r} (hs : Keeps s0 s) :
    IfNext (Keeps s0) (execMioderAtomic r s) := by
  unfold execMioderAtomic
  repeat' (with_reducible first | assumption | refine IfNext.next ?_ | refine State.mioMem_keeps ?_)

theorem execMioderAdd_keeps {s0 s : State} {r} (hs : Keeps s0 s) :
    IfNext (Keeps s0) (execMioderAdd r s) := by
  unfold execMioderAdd
  repeat' (with_reducible first | assumption | refine IfNext.next ?_ | refine State.mioMem_keeps ?_)

theorem State.modLanding_keeps {s0 s : State} {k id f} (hs : Keeps s0 s) :
    Keeps s0 (State.modLanding s k id f) := hs.upd rfl rfl rfl rfl

theorem State.deliverLanding_keeps {s0 s : State} {l} (hs : Keeps s0 s) :
    Keeps s0 (State.deliverLanding s l) := by
  unfold State.deliverLanding
  repeat' (with_reducible first
    | assumption | refine State.settleLandings_keeps ?_ | refine State.answerMsg_keeps ?_ | refine State.deliverAll_keeps ?_
    | refine State.modLanding_keeps ?_ | refine State.msgGone_keeps ?_ ?_ | refine State.msgFar_keeps ?_ ?_ | (intro _))

theorem landingGo_keeps {s0 x1 : State} {x0} (hx1 : Keeps s0 x1) :
    Keeps s0 (landingGo x0 x1) := by
  fun_induction landingGo x0 x1
  all_goals repeat' (with_reducible first | refine State.deliverLanding_keeps ?_ | apply_assumption)

theorem State.landingPump_keeps {s0 s : State} (hs : Keeps s0 s) :
    Keeps s0 (State.landingPump s) := by
  unfold State.landingPump
  repeat' (with_reducible first | assumption | refine landingGo_keeps ?_)

theorem State.landPart_keeps {s0 s : State} {r} (hs : Keeps s0 s) :
    Keeps s0 (State.landPart s r) := hs.upd rfl rfl rfl rfl

theorem State.landFirst_keeps {s0 s : State} {r known} (hs : Keeps s0 s) :
    Keeps s0 (State.landFirst s r known) := by
  unfold State.landFirst
  repeat' (with_reducible first
    | assumption | refine State.reply_keeps ?_ | refine State.landPart_keeps ?_ | refine State.modLanding_keeps ?_ | split
    | refine Keeps.upd ?_ rfl rfl rfl rfl)

theorem State.serveMsg_keeps {s0 s : State} {r} (hs : Keeps s0 s) :
    Keeps s0 (State.serveMsg s r) := by
  unfold State.serveMsg
  repeat' (with_reducible first
    | assumption | exact Keeps.refl _ | refine State.reply_keeps ?_ | refine State.landPart_keeps ?_
    | refine State.modLanding_keeps ?_ | refine State.landFirst_keeps ?_ | refine State.landingPump_keeps ?_ | split)

theorem execMioderMsg_keeps {s0 s : State} {r} (hs : Keeps s0 s) :
    IfNext (Keeps s0) (execMioderMsg r s) := by
  unfold execMioderMsg
  repeat' (with_reducible first
    | assumption | refine IfNext.next ?_ | refine State.receive_keeps ?_ | refine State.serveMsg_keeps ?_
    | refine State.landingPump_keeps ?_ | split | refine KeepsL.fst ?_)

theorem State.serveToken_keeps {s0 s : State} {r} (hs : Keeps s0 s) :
    Keeps s0 (State.serveToken s r) := by
  unfold State.serveToken
  repeat' (with_reducible first | assumption | extract_lets | refine State.reply_keeps ?_ | refine State.signalUnit_keeps ?_ | split)

theorem execMioderToken_keeps {s0 s : State} {r} (hs : Keeps s0 s) :
    IfNext (Keeps s0) (execMioderToken r s) := by
  unfold execMioderToken
  repeat' (with_reducible first
    | assumption | refine IfNext.next ?_ | refine State.serveToken_keeps ?_ | refine State.receive_keeps ?_ | split
    | refine KeepsL.fst ?_)

theorem State.serveHandle_keeps {s0 s : State} {r} (hs : Keeps s0 s) :
    Keeps s0 (State.serveHandle s r) := by
  unfold State.serveHandle
  repeat' (with_reducible first | assumption | extract_lets | refine State.reply_keeps ?_ | refine State.arrive_keeps ?_ | split)

theorem execMioderHandle_keeps {s0 s : State} {r} (hs : Keeps s0 s) :
    IfNext (Keeps s0) (execMioderHandle r s) := by
  unfold execMioderHandle
  repeat' (with_reducible first
    | assumption | refine IfNext.next ?_ | refine State.receive_keeps ?_ | refine State.serveHandle_keeps ?_ | split
    | refine KeepsL.fst ?_)

theorem execMioderPacketDropped_keeps {s0 s : State} {a why} (hs : Keeps s0 s) :
    IfNext (Keeps s0) (execMioderPacketDropped a why s) := by
  unfold execMioderPacketDropped
  repeat' (with_reducible first
    | assumption | refine IfNext.next ?_ | refine State.authFail_keeps ?_ | refine State.receive_keeps ?_
    | refine State.rxFrame_keeps ?_ | refine State.respond_keeps ?_ | refine State.replayDrop_keeps ?_ | split | refine KeepsL.fst ?_)

theorem State.sendOn_keeps {s0 s : State} {k r p} (hs : Keeps s0 s) :
    Keeps s0 (State.sendOn s k r p) := by
  unfold State.sendOn
  repeat' (with_reducible first
    | assumption | refine State.pktOut_keeps ?_ | refine State.setAssoc_keeps ?_ | split | refine Keeps.upd ?_ rfl rfl rfl rfl)

theorem State.pumpList_keeps {s0 s : State} {k x2} (hs : Keeps s0 s) :
    Keeps s0 (State.pumpList s k x2) := by
  induction x2 generalizing s k with
  | nil => rw [State.pumpList] <;> repeat' (with_reducible first | extract_lets | refine State.sendOn_keeps ?_ | split | (intro _) | apply_assumption)
  | cons y t ih =>
    rw [State.pumpList]
    repeat' (with_reducible first | extract_lets | refine State.sendOn_keeps ?_ | split | (intro _) | apply_assumption)

theorem State.pumpBacklog_keeps {s0 s : State} {k x2} (hs : Keeps s0 s) :
    Keeps s0 (State.pumpBacklog s k x2) := by
  fun_induction State.pumpBacklog s k x2
  all_goals repeat' (with_reducible first | refine State.sendNew_keeps ?_ | refine State.setAssoc_keeps ?_ | apply_assumption)

theorem State.pump_keeps {s0 s : State} {k} (hs : Keeps s0 s) :
    Keeps s0 (State.pump s k) := by
  unfold State.pump
  repeat' (with_reducible first
    | assumption | exact Keeps.refl _ | refine State.pumpBacklog_keeps ?_ | refine State.pumpList_keeps ?_ | split)

theorem State.pumpAll_keeps {s0 s : State} {x1} (hs : Keeps s0 s) :
    Keeps s0 (State.pumpAll s x1) := by
  fun_induction State.pumpAll s x1
  all_goals repeat' (with_reducible first | refine State.pump_keeps ?_ | apply_assumption)

theorem State.pathTimeout_keeps {s0 s : State} {k p} (hs : Keeps s0 s) :
    Keeps s0 (State.pathTimeout s k p) := by
  unfold State.pathTimeout
  repeat' (with_reducible first
    | assumption | refine State.fresh_keeps ?_ | refine State.link_keeps ?_ | refine State.setAssoc_keeps ?_ | split
    | refine Keeps.upd ?_ rfl rfl rfl rfl)

theorem State.closeRekey_keeps {s0 s : State} {k} (hs : Keeps s0 s) :
    Keeps s0 (State.closeRekey s k) := by
  unfold State.closeRekey
  repeat' (with_reducible first | assumption | extract_lets | refine State.link_keeps ?_ | refine State.setAssoc_keeps ?_ | split)

theorem State.resendList_keeps {s0 s : State} {k x2} (hs : Keeps s0 s) :
    Keeps s0 (State.resendList s k x2) := by
  induction x2 generalizing s k with
  | nil => rw [State.resendList] <;> repeat' (with_reducible first | extract_lets | refine State.sendOn_keeps ?_ | split | (intro _) | apply_assumption)
  | cons y t ih =>
    rw [State.resendList]
    repeat' (with_reducible first | extract_lets | refine State.sendOn_keeps ?_ | split | (intro _) | apply_assumption)

theorem execMioderAck_keeps {s0 s : State} {k} (hs : Keeps s0 s) :
    IfNext (Keeps s0) (execMioderAck k s) := by
  unfold execMioderAck
  repeat' (with_reducible first
    | assumption | dsimp only | refine IfNext.next ?_ | refine State.pump_keeps ?_ | refine State.resendList_keeps ?_
    | refine State.mayEnter_keeps ?_ | refine State.closeRekey_keeps ?_ | refine State.rxFrame_keeps ?_
    | refine State.setAssoc_keeps ?_ | split | refine KeepsL.fst ?_ | refine Keeps.upd ?_ rfl rfl rfl rfl)

theorem execMioderProbe_keeps {s0 s : State} {a path counter phase} (hs : Keeps s0 s) :
    IfNext (Keeps s0) (execMioderProbe a path counter phase s) := by
  unfold execMioderProbe
  repeat' (with_reducible first
    | assumption | refine IfNext.next ?_ | refine State.mayEnter_keeps ?_ | refine State.ackOut_keeps ?_
    | refine State.rxFrame_keeps ?_ | split | refine KeepsL.fst ?_)

theorem State.probeOut_keeps {s0 s : State} {k p} (hs : Keeps s0 s) :
    Keeps s0 (State.probeOut s k p) := hs.push rfl rfl rfl rfl rfl

theorem execPathProbeTimer_keeps {s0 s : State} {a path} (hs : Keeps s0 s) :
    IfNext (Keeps s0) (execPathProbeTimer a path s) := by
  unfold execPathProbeTimer
  repeat' (with_reducible first
    | assumption | extract_lets | refine IfNext.next ?_ | refine State.pathTimeout_keeps ?_ | refine State.setAssoc_keeps ?_
    | refine State.probeOut_keeps ?_ | split | refine Keeps.upd ?_ rfl rfl rfl rfl)

theorem execIdleProbe_keeps {s0 s : State} {a path} (hs : Keeps s0 s) :
    IfNext (Keeps s0) (execIdleProbe a path s) := by
  unfold execIdleProbe
  repeat' (with_reducible first | assumption | refine IfNext.next ?_ | refine State.probeOut_keeps ?_ | split)

theorem execRetransmitTimeout_keeps {s0 s : State} {a psn} (hs : Keeps s0 s) :
    IfNext (Keeps s0) (execRetransmitTimeout a psn s) := by
  unfold execRetransmitTimeout
  repeat' (with_reducible first
    | assumption | extract_lets | refine IfNext.next ?_ | refine State.pathTimeout_keeps ?_ | refine State.sendOn_keeps ?_ | split)

theorem State.resendParts_keeps {s0 s : State} {k x2} (hs : Keeps s0 s) :
    Keeps s0 (State.resendParts s k x2) := by
  fun_induction State.resendParts s k x2
  all_goals repeat' (with_reducible first | refine State.packet_keeps ?_ | apply_assumption)

theorem execMsgBusyRetry_keeps {s0 s : State} {a reqId} (hs : Keeps s0 s) :
    IfNext (Keeps s0) (execMsgBusyRetry a reqId s) := by
  unfold execMsgBusyRetry
  repeat' (with_reducible first
    | assumption | extract_lets | refine IfNext.next ?_ | refine State.setAssoc_keeps ?_ | refine State.resendParts_keeps ?_ | split)

theorem State.laneFailed_keeps {s0 s : State} {p sub k} (hs : Keeps s0 s) :
    Keeps s0 (State.laneFailed s p sub k) := by
  unfold State.laneFailed
  repeat' (with_reducible first
    | assumption | refine State.modPort_keeps ?_ | refine State.link_keeps ?_ | refine State.record_keeps ?_ | refine KeepsL.fst ?_)

theorem State.subDown_keeps {s0 s : State} {p sub lane} (hs : Keeps s0 s) :
    Keeps s0 (State.subDown s p sub lane) := by
  unfold State.subDown
  repeat' (with_reducible first
    | assumption | refine State.modPort_keeps ?_ | refine State.laneFailed_keeps ?_ | refine State.link_keeps ?_
    | refine State.pumpAll_keeps ?_ | split | refine Keeps.upd ?_ rfl rfl rfl rfl)

theorem execSubPortDown_keeps {s0 s : State} {p sub lane} (hs : Keeps s0 s) :
    IfNext (Keeps s0) (execSubPortDown p sub lane s) := by
  unfold execSubPortDown
  repeat' (with_reducible first | assumption | refine IfNext.next ?_ | refine State.subDown_keeps ?_ | split)

theorem execSubPortUp_keeps {s0 s : State} {p sub inv order} (hs : Keeps s0 s) :
    IfNext (Keeps s0) (execSubPortUp p sub inv order s) := by
  unfold execSubPortUp
  repeat' (with_reducible first
    | assumption | extract_lets | refine IfNext.next ?_ | refine State.setPort_keeps ?_ | refine State.link_keeps ?_
    | refine State.pumpAll_keeps ?_ | split)

theorem execSubportRetrainEnd_keeps {s0 s : State} {p sub ok} (hs : Keeps s0 s) :
    IfNext (Keeps s0) (execSubportRetrainEnd p sub ok s) := by
  unfold execSubportRetrainEnd
  repeat' (with_reducible first | assumption | extract_lets | refine IfNext.next ?_ | refine State.setPort_keeps ?_ | split)

theorem execSubportRetryTimer_keeps {s0 s : State} {p sub} (hs : Keeps s0 s) :
    IfNext (Keeps s0) (execSubportRetryTimer p sub s) := by
  unfold execSubportRetryTimer
  repeat' (with_reducible first | assumption | refine IfNext.next ?_ | refine State.setPort_keeps ?_ | split)

theorem State.rekey_keeps {s0 s : State} {k} (hs : Keeps s0 s) :
    Keeps s0 (State.rekey s k) := hs.upd rfl rfl rfl rfl

theorem execCounterRekey_keeps {s0 s : State} {a} (hs : Keeps s0 s) :
    IfNext (Keeps s0) (execCounterRekey a s) := by
  unfold execCounterRekey
  repeat' (with_reducible first | assumption | refine IfNext.next ?_ | refine State.rekey_keeps ?_ | split)

theorem execRxOldKeyExpire_keeps {s0 s : State} {a} (hs : Keeps s0 s) :
    IfNext (Keeps s0) (execRxOldKeyExpire a s) := by
  unfold execRxOldKeyExpire
  repeat' (with_reducible first | assumption | refine IfNext.next ?_ | refine State.setAssoc_keeps ?_ | split)

theorem State.openFails_keeps {s0 s : State} {k st} (hs : Keeps s0 s) :
    Keeps s0 (State.openFails s k st) := by
  unfold State.openFails
  repeat' (with_reducible first | assumption | refine State.workEnds_keeps ?_ | split | refine Keeps.upd ?_ rfl rfl rfl rfl)

theorem execAssocOpenTimeout_keeps {s0 s : State} {a} (hs : Keeps s0 s) :
    IfNext (Keeps s0) (execAssocOpenTimeout a s) := by
  unfold execAssocOpenTimeout
  repeat' (with_reducible first | assumption | refine IfNext.next ?_ | refine State.openFails_keeps ?_ | split)

theorem State.modMig_keeps {s0 s : State} {f} (hs : Keeps s0 s) :
    Keeps s0 (State.modMig s f) := hs.upd rfl rfl rfl rfl

theorem State.migBad_keeps {s0 s : State} {st} (hs : Keeps s0 s) :
    Keeps s0 (State.migBad s st) := hs.upd rfl rfl rfl rfl

theorem State.migAsk_keeps {s0 s : State} {k f x3} (hs : Keeps s0 s) :
    Keeps s0 (State.migAsk s k f x3) := by
  fun_induction State.migAsk s k f x3
  all_goals repeat' (with_reducible first | refine State.request_keeps ?_ | refine State.modMig_keeps ?_ | apply_assumption)

theorem State.migStore_keeps {s0 s : State} {m e off b} (hs : Keeps s0 s) :
    Keeps s0 (State.migStore s m e off b) := by
  unfold State.migStore
  repeat' (with_reducible first
    | assumption | extract_lets | refine State.migAsk_keeps ?_ | refine State.writeMem_keeps ?_ | refine State.migBad_keeps ?_
    | refine IfOk.get (by assumption) ?_ | split)

theorem State.migGranuleCopy_keeps {s0 s : State} {m e g} (hs : Keeps s0 s) :
    Keeps s0 (State.migGranuleCopy s m e g) := by
  unfold State.migGranuleCopy
  repeat' (with_reducible first
    | assumption | extract_lets | refine State.migAsk_keeps ?_ | refine State.migBad_keeps ?_ | refine State.migStore_keeps ?_
    | refine State.countRead_keeps ?_ | split)

theorem State.migCopies_keeps {s0 s : State} {m e x3} (hs : Keeps s0 s) :
    Keeps s0 (State.migCopies s m e x3) := by
  fun_induction State.migCopies s m e x3
  all_goals repeat' (with_reducible first | refine State.migGranuleCopy_keeps ?_ | apply_assumption)

theorem State.migRun_keeps {s0 s : State} {m gs} (hs : Keeps s0 s) :
    Keeps s0 (State.migRun s m gs) := by
  unfold State.migRun
  repeat' (with_reducible first | assumption | refine State.migCopies_keeps ?_ | refine State.modMig_keeps ?_ | split)

theorem State.migAnswer_keeps {s0 s : State} {id off st b} (hs : Keeps s0 s) :
    Keeps s0 (State.migAnswer s id off st b) := by
  unfold State.migAnswer
  repeat' (with_reducible first
    | assumption | refine State.migBad_keeps ?_ | refine State.migStore_keeps ?_ | refine State.modMig_keeps ?_ | split)

theorem State.serveHeld_keeps {s0 s : State} {l} (hs : Keeps s0 s) : Keeps s0 (State.serveHeld s l) := by
  induction l generalizing s with
  | nil => exact hs
  | cons h t ih =>
    rw [State.serveHeld]
    refine ih ?_
    split
    · exact Keeps.upd hs rfl rfl rfl rfl
    · split
      · exact Keeps.upd hs rfl rfl rfl rfl
      · exact State.serveMem_keeps hs

theorem State.migEnd_keeps {s0 s : State} {m e st i} (hs : Keeps s0 s) : Keeps s0 (State.migEnd s m e st i) :=
  State.retryWrites_keeps (State.serveHeld_keeps (State.workEnds_keeps (State.link_keeps (hs.upd rfl rfl rfl rfl))))

theorem State.migFail_keeps {s0 s : State} {m st} (hs : Keeps s0 s) :
    Keeps s0 (State.migFail s m st) := by
  unfold State.migFail
  repeat' (with_reducible first | assumption | refine State.migEnd_keeps ?_)

theorem State.migratePass_keeps {s0 s : State} {fail} (hs : Keeps s0 s) :
    Keeps s0 (State.migratePass s fail) := by
  unfold State.migratePass
  repeat' (with_reducible first
    | assumption | refine State.migFail_keeps ?_ | refine State.migRun_keeps ?_ | split | refine Keeps.upd ?_ rfl rfl rfl rfl)

theorem State.migrateLast_keeps {s0 s : State} {fail} (hs : Keeps s0 s) :
    Keeps s0 (State.migrateLast s fail) := by
  unfold State.migrateLast
  repeat' (with_reducible first
    | assumption | extract_lets | refine State.migFail_keeps ?_ | refine State.migRun_keeps ?_ | refine State.migEnd_keeps ?_ | split)

end Sys2Proof.Machine
end

