-- ==== Sys2Proof/Laws/KeepsColl.lean ====
section
/-! SUPPORT. What the operations of Coll leave alone: each keeps the
relation Keeps to an earlier state, whatever its operands. -/

namespace Sys2Proof.Machine

theorem State.modColl_keeps {s0 s : State} {k f} (hs : Keeps s0 s) :
    Keeps s0 (State.modColl s k f) := hs.upd rfl rfl rfl rfl

theorem State.modRun_keeps {s0 s : State} {k f} (hs : Keeps s0 s) :
    Keeps s0 (State.modRun s k f) := hs.upd rfl rfl rfl rfl

theorem State.modMapping_keeps {s0 s : State} {m f} (hs : Keeps s0 s) :
    Keeps s0 (State.modMapping s m f) := hs.upd rfl rfl rfl rfl

theorem State.collNotice_keeps {s0 s : State} {k event queues st out inn kept} (hs : Keeps s0 s) :
    Keeps s0 (State.collNotice s k event queues st out inn kept) := hs.upd rfl rfl rfl rfl

theorem State.collSend_keeps {s0 s : State} {k op target data dev} (hs : Keeps s0 s) :
    Keeps s0 (State.collSend s k op target data dev) := by
  unfold State.collSend
  repeat' (with_reducible first | assumption | refine State.request_keeps ?_ | split)

theorem State.collSendAll_keeps {s0 s : State} {k op data x4} (hs : Keeps s0 s) :
    Keeps s0 (State.collSendAll s k op data x4) := by
  fun_induction State.collSendAll s k op data x4
  all_goals repeat' (with_reducible first | refine State.collSend_keeps ?_ | apply_assumption)

theorem State.undefine_keeps {s0 s : State} {addr n} (hs : Keeps s0 s) :
    Keeps s0 (State.undefine s addr n) := by
  unfold State.undefine
  repeat' (with_reducible first | assumption | refine State.scribble_keeps ?_ | split)

theorem State.undefineDsts_keeps {s0 s : State} {x x2} (hs : Keeps s0 s) :
    Keeps s0 (State.undefineDsts s x x2) := by
  fun_induction State.undefineDsts s x x2
  all_goals repeat' (with_reducible first | refine State.undefine_keeps ?_ | apply_assumption)

theorem State.undefineStage_keeps {s0 s : State} {x} (hs : Keeps s0 s) :
    Keeps s0 (State.undefineStage s x) := by
  unfold State.undefineStage
  repeat' (with_reducible first | assumption | refine State.scribble_keeps ?_ | split)

theorem State.collFail_keeps {s0 s : State} {k st} (hs : Keeps s0 s) :
    Keeps s0 (State.collFail s k st) := by
  unfold State.collFail
  repeat' (with_reducible first
    | assumption | refine State.modColl_keeps ?_ | refine State.collNotice_keeps ?_ | refine State.undefineStage_keeps ?_
    | refine State.undefineDsts_keeps ?_ | refine State.modMapping_keeps ?_ | split | refine Keeps.upd ?_ rfl rfl rfl rfl)

theorem State.collAbort_keeps {s0 s : State} {k st} (hs : Keeps s0 s) :
    Keeps s0 (State.collAbort s k st) := by
  unfold State.collAbort
  repeat' (with_reducible first
    | assumption | extract_lets | exact Keeps.refl _ | refine State.collFail_keeps ?_ | refine State.collSendAll_keeps ?_)

theorem State.defer_keeps {s0 s : State} {spans i} (hs : Keeps s0 s) : IfSome (Keeps s0) (State.defer s spans i) := by
  unfold State.defer
  split
  · exact IfSome.none
  · split
    · rename_i l _
      cases s.heldBy l _ with
      | none => exact IfSome.none
      | some c => exact IfSome.some (State.hold_keeps hs)
    · exact IfSome.none
    · exact IfSome.none
    · exact IfSome.some (State.modMig_keeps hs)

theorem State.collWrite_keeps {s0 s : State} {c a b} (hs : Keeps s0 s) :
    IfOk (Keeps s0) (State.collWrite s c a b) := by
  unfold State.collWrite
  repeat' (with_reducible first
    | assumption | refine IfOk.ok ?_ | exact IfOk.error | refine State.writeMem_keeps ?_ | refine State.markDirty_keeps ?_
    | refine State.modRun_keeps ?_ | refine State.request_keeps ?_ | refine IfOk.get (by assumption) ?_ | split)

theorem State.collWrites_keeps {s0 s : State} {c x2} (hs : Keeps s0 s) :
    IfOk (Keeps s0) (State.collWrites s c x2) := by
  fun_induction State.collWrites s c x2
  all_goals repeat' (with_reducible first
    | assumption | refine IfOk.ok ?_ | exact IfOk.error | refine State.collWrite_keeps ?_ | refine IfOk.get (by assumption) ?_
    | apply_assumption)

theorem State.finals_keeps {s0 s : State} {k x e b} (hs : Keeps s0 s) :
    IfOk (Keeps s0) (State.finals s k x e b) := by
  unfold State.finals
  repeat' (with_reducible first
    | assumption | extract_lets | refine IfOk.ok ?_ | exact IfOk.error | refine State.collWrites_keeps ?_
    | refine State.modRun_keeps ?_ | refine Keeps.foldl ?_ ?_ | refine IfOk.get (by assumption) ?_ | split)

theorem State.combineAt_keeps {s0 s : State} {k e code} (hs : Keeps s0 s) :
    IfOk (Keeps s0) (State.combineAt s k e code) := by
  unfold State.combineAt
  repeat' (with_reducible first
    | assumption | extract_lets | refine IfOk.ok ?_ | refine State.finals_keeps ?_ | refine State.modRun_keeps ?_ | split)

theorem State.combineAll_keeps {s0 s : State} {k x2 x3} (hs : Keeps s0 s) :
    IfOk (Keeps s0) (State.combineAll s k x2 x3) := by
  fun_induction State.combineAll s k x2 x3
  all_goals repeat' (with_reducible first
    | assumption | refine IfOk.ok ?_ | exact IfOk.error | refine State.combineAt_keeps ?_ | refine IfOk.get (by assumption) ?_
    | apply_assumption)

theorem State.collArrive_keeps {s0 s : State} {k a b} (hs : Keeps s0 s) :
    IfOk (Keeps s0) (State.collArrive s k a b) := by
  unfold State.collArrive
  repeat' (with_reducible first
    | assumption | extract_lets | refine IfOk.ok ?_ | exact IfOk.error | refine State.combineAll_keeps ?_
    | refine State.writeMem_keeps ?_ | refine State.finals_keeps ?_ | refine State.modRun_keeps ?_ | refine State.collWrite_keeps ?_
    | refine Keeps.foldl ?_ ?_ | refine IfOk.get (by assumption) ?_ | split)

theorem State.collPackets_keeps {s0 s : State} {k dev a b x5} (hs : Keeps s0 s) :
    Keeps s0 (State.collPackets s k dev a b x5) := by
  fun_induction State.collPackets s k dev a b x5
  all_goals repeat' (with_reducible first | refine State.modRun_keeps ?_ | refine State.collSend_keeps ?_ | apply_assumption)

theorem State.collDeliver_keeps {s0 s : State} {k dev a b} (hs : Keeps s0 s) :
    IfOk (Keeps s0) (State.collDeliver s k dev a b) := by
  unfold State.collDeliver
  repeat' (with_reducible first
    | assumption | refine IfOk.ok ?_ | refine State.collArrive_keeps ?_ | refine State.collPackets_keeps ?_ | split)

theorem State.noteSmall_keeps {s0 s : State} {k b} (hs : Keeps s0 s) :
    Keeps s0 (State.noteSmall s k b) := by
  unfold State.noteSmall
  repeat' (with_reducible first | assumption | extract_lets | refine State.fresh_keeps ?_ | refine State.modRun_keeps ?_ | split)

theorem State.collMoves_keeps {s0 s : State} {k v x3} (hs : Keeps s0 s) :
    IfOk (Keeps s0) (State.collMoves s k v x3) := by
  fun_induction State.collMoves s k v x3
  all_goals repeat' (with_reducible first
    | assumption | refine IfOk.ok ?_ | exact IfOk.error | refine State.noteSmall_keeps ?_ | refine State.collDeliver_keeps ?_
    | refine IfOk.get (by assumption) ?_ | apply_assumption)

theorem State.collPush_keeps {s0 s : State} {k dev} (hs : Keeps s0 s) :
    IfOk (Keeps s0) (State.collPush s k dev) := by
  unfold State.collPush
  repeat' (with_reducible first
    | assumption | extract_lets | refine IfOk.ok ?_ | exact IfOk.error | refine State.modRun_keeps ?_
    | refine State.collMoves_keeps ?_ | split)

theorem State.collDist_keeps {s0 s : State} {k x2} (hs : Keeps s0 s) :
    Keeps s0 (State.collDist s k x2) := by
  induction x2 generalizing s k with
  | nil => rw [State.collDist] <;> repeat' (with_reducible first
    | refine State.modRun_keeps ?_ | refine State.collDeliver_keeps ?_ | refine IfOk.get (by assumption) ?_ | split | apply_assumption)
  | cons y t ih =>
    rw [State.collDist]
    repeat' (with_reducible first
      | refine State.modRun_keeps ?_ | refine State.collDeliver_keeps ?_ | refine IfOk.get (by assumption) ?_ | split
      | apply_assumption)

theorem State.gnsSend_keeps {s0 s : State} {k} (hs : Keeps s0 s) :
    Keeps s0 (State.gnsSend s k) := by
  unfold State.gnsSend
  repeat' (with_reducible first
    | assumption | extract_lets | refine State.fresh_keeps ?_ | refine State.modRun_keeps ?_ | refine State.collSend_keeps ?_ | split)

theorem State.collGo_keeps {s0 s : State} {k x2} (hs : Keeps s0 s) :
    IfOk (Keeps s0) (State.collGo s k x2) := by
  induction x2 generalizing s k with
  | nil => rw [State.collGo] <;> repeat' (with_reducible first
    | assumption | refine IfOk.ok ?_ | exact IfOk.error | refine State.collDist_keeps ?_ | refine State.collPush_keeps ?_
    | refine State.gnsSend_keeps ?_ | refine IfOk.get (by assumption) ?_ | assumption | split | apply_assumption)
  | cons y t ih =>
    rw [State.collGo]
    repeat' (with_reducible first
      | assumption | refine IfOk.ok ?_ | exact IfOk.error | refine State.collDist_keeps ?_ | refine State.collPush_keeps ?_
      | refine State.gnsSend_keeps ?_ | refine IfOk.get (by assumption) ?_ | split | apply_assumption)

theorem State.collDrive_keeps {s0 s : State} {k} (hs : Keeps s0 s) :
    Keeps s0 (State.collDrive s k) := by
  unfold State.collDrive
  repeat' (with_reducible first
    | assumption | refine State.collAbort_keeps ?_ | refine State.collGo_keeps ?_ | refine IfOk.get (by assumption) ?_ | split)

theorem State.sendDigests_keeps {s0 s : State} {k x2} (hs : Keeps s0 s) :
    Keeps s0 (State.sendDigests s k x2) := by
  induction x2 generalizing s k with
  | nil => rw [State.sendDigests] <;> repeat' (with_reducible first | split | apply_assumption | refine Keeps.push ?_ rfl rfl rfl rfl (by with_unfolding_all rfl))
  | cons y t ih =>
    rw [State.sendDigests]
    repeat' (with_reducible first | split | apply_assumption | refine Keeps.push ?_ rfl rfl rfl rfl (by with_unfolding_all rfl))

theorem State.collStart_keeps {s0 s : State} {k byTransition} (hs : Keeps s0 s) :
    Keeps s0 (State.collStart s k byTransition) := by
  unfold State.collStart
  repeat' (with_reducible first
    | assumption | dsimp only | refine State.setColl_keeps ?_ | refine State.sendDigests_keeps ?_ | refine State.collDrive_keeps ?_
    | refine State.collAbort_keeps ?_ | refine State.collSendAll_keeps ?_ | split)

theorem State.subtract_keeps {s0 s : State} {a n} (hs : Keeps s0 s) :
    Keeps s0 (State.subtract s a n) := by
  unfold State.subtract
  repeat' (with_reducible first | assumption | refine State.writeMem_keeps ?_ | refine IfOk.get (by assumption) ?_ | split)

theorem execCollRunStart_keeps {s0 s : State} {k} (hs : Keeps s0 s) :
    IfNext (Keeps s0) (execCollRunStart k s) := by
  unfold execCollRunStart
  repeat' (with_reducible first
    | assumption | dsimp only | refine IfNext.next ?_ | refine State.collStart_keeps ?_ | refine State.setColl_keeps ?_
    | refine State.subtract_keeps ?_ | split)

theorem State.keep_keeps {s0 s : State} {k} (hs : Keeps s0 s) :
    Keeps s0 (State.keep s k) := by
  unfold State.keep
  repeat' (with_reducible first
    | assumption | extract_lets | refine State.modColl_keeps ?_ | refine State.setMapping_keeps ?_ | split)

theorem State.unkeep_keeps {s0 s : State} {m} (hs : Keeps s0 s) :
    Keeps s0 (State.unkeep s m) := hs.upd rfl rfl rfl rfl

theorem State.enterPhase_keeps {s0 s : State} {m} (hs : Keeps s0 s) :
    Keeps s0 (State.enterPhase s m) := by
  unfold State.enterPhase
  repeat' (with_reducible first
    | assumption | refine State.setMapping_keeps ?_ | refine State.raise_keeps ?_ | refine State.unkeep_keeps ?_
    | refine State.signalUnit_keeps ?_ | split | refine Keeps.upd ?_ rfl rfl rfl rfl)

theorem State.mapGo_keeps {s0 s : State} {m} (hs : Keeps s0 s) :
    Keeps s0 (State.mapGo s m) := by
  unfold State.mapGo
  repeat' (with_reducible first
    | assumption | dsimp only | exact Keeps.refl _ | refine State.collStart_keeps ?_ | refine State.setMapping_keeps ?_
    | refine State.enterPhase_keeps ?_ | split)

theorem State.mapAfter_keeps {s0 s : State} {k} (hs : Keeps s0 s) :
    Keeps s0 (State.mapAfter s k) := by
  unfold State.mapAfter
  repeat' (with_reducible first | assumption | refine State.mapGo_keeps ?_ | split)

theorem State.gnsClose_keeps {s0 s : State} {k g run} (hs : Keeps s0 s) :
    Keeps s0 (State.gnsClose s k g run) := hs.upd rfl rfl rfl rfl

theorem State.gnsAdd_keeps {s0 s : State} {k r run} (hs : Keeps s0 s) :
    Keeps s0 (State.gnsAdd s k r run) := by
  unfold State.gnsAdd
  repeat' (with_reducible first | assumption | refine State.gnsClose_keeps ?_ | split | refine Keeps.upd ?_ rfl rfl rfl rfl)

theorem State.collSettle_keeps {s0 s : State} {k} (hs : Keeps s0 s) :
    Keeps s0 (State.collSettle s k) := by
  unfold State.collSettle
  repeat' (with_reducible first
    | assumption | refine State.setColl_keeps ?_ | refine State.gnsAdd_keeps ?_ | refine State.mapAfter_keeps ?_
    | refine State.modMapping_keeps ?_ | refine State.collFail_keeps ?_ | split | refine Keeps.upd ?_ rfl rfl rfl rfl)

theorem State.collEnds_keeps {s0 s : State} {k st} (hs : Keeps s0 s) :
    Keeps s0 (State.collEnds s k st) := by
  unfold State.collEnds
  repeat' (with_reducible first | assumption | refine State.mapAfter_keeps ?_ | refine State.collAbort_keeps ?_)

theorem State.collMore_keeps {s0 s : State} {k} (hs : Keeps s0 s) :
    Keeps s0 (State.collMore s k) := by
  unfold State.collMore
  repeat' (with_reducible first | assumption | refine State.mapAfter_keeps ?_ | refine State.collDrive_keeps ?_)

theorem State.countDone_keeps {s0 s : State} {x} (hs : Keeps s0 s) :
    Keeps s0 (State.countDone s x) := by
  unfold State.countDone
  repeat' (with_reducible first | assumption | refine State.writeMem_keeps ?_ | refine IfOk.get (by assumption) ?_ | split)

theorem State.collDone_keeps {s0 s : State} {k} (hs : Keeps s0 s) :
    Keeps s0 (State.collDone s k) := by
  unfold State.collDone
  repeat' (with_reducible first
    | assumption | exact Keeps.refl _ | refine State.keep_keeps ?_ | refine State.countDone_keeps ?_
    | refine State.collNotice_keeps ?_ | refine State.modRun_keeps ?_ | refine State.collSettle_keeps ?_
    | refine State.signalUnit_keeps ?_ | refine State.collSendAll_keeps ?_ | split | refine Keeps.upd ?_ rfl rfl rfl rfl)

theorem execCollDeviceDone_keeps {s0 s : State} {k} (hs : Keeps s0 s) :
    IfNext (Keeps s0) (execCollDeviceDone k s) := by
  unfold execCollDeviceDone
  repeat' (with_reducible first
    | assumption | extract_lets | refine IfNext.next ?_ | refine IfSome.some ?_ | refine State.collWrites_keeps ?_
    | refine State.collDone_keeps ?_ | refine State.collEnds_keeps ?_ | refine State.modRun_keeps ?_ | refine State.defer_keeps ?_
    | refine IfSome.get (by assumption) ?_ | refine IfOk.get (by assumption) ?_ | split)

theorem State.noteRun_keeps {s0 s : State} {k r f} (hs : Keeps s0 s) :
    Keeps s0 (State.noteRun s k r f) := by
  unfold State.noteRun
  repeat' (with_reducible first | assumption | refine State.modColl_keeps ?_ | refine State.modRun_keeps ?_ | split)

theorem State.collServe_keeps {s0 s : State} {f : State → Nat → Status × State} {op r} (hs : Keeps s0 s) (kf : ∀ y0 y1, Keeps s0 y0 → KeepsR s0 (f y0 y1)) :
    Keeps s0 (State.collServe s op r f) := by
  unfold State.collServe
  repeat' (with_reducible first
    | refine State.reply_keeps ?_ | refine State.receive_keeps ?_ | refine KeepsL.get (by assumption) ?_ | split | apply_assumption)

theorem execMioderCollData_keeps {s0 s : State} {r} (hs : Keeps s0 s) :
    IfNext (Keeps s0) (execMioderCollData r s) := by
  unfold execMioderCollData
  repeat' (with_reducible first
    | assumption | refine IfNext.next ?_ | refine State.collDist_keeps ?_ | refine State.collEnds_keeps ?_
    | refine State.collArrive_keeps ?_ | refine State.defer_keeps ?_ | refine State.gnsSend_keeps ?_
    | refine State.collServe_keeps ?_ ?_ | refine IfSome.get (by assumption) ?_ | refine IfOk.get (by assumption) ?_ | split
    | (intro _) | refine KeepsR.mk ?_)

theorem State.noteDigest_keeps {s0 s : State} {k d digest} (hs : Keeps s0 s) :
    Keeps s0 (State.noteDigest s k d digest) := by
  unfold State.noteDigest
  repeat' (with_reducible first
    | assumption | refine State.modColl_keeps ?_ | refine State.collEnds_keeps ?_ | split | refine Keeps.upd ?_ rfl rfl rfl rfl)

theorem execMioderCollReady_keeps {s0 s : State} {q} (hs : Keeps s0 s) :
    IfNext (Keeps s0) (execMioderCollReady q s) := by
  unfold execMioderCollReady
  repeat' (with_reducible first
    | assumption | extract_lets | refine IfNext.next ?_ | refine State.reply_keeps ?_ | refine State.receive_keeps ?_
    | refine State.collMore_keeps ?_ | refine State.noteRun_keeps ?_ | refine State.noteDigest_keeps ?_
    | refine KeepsL.get (by assumption) ?_ | split | (intro _))

theorem execMioderCollDone_keeps {s0 s : State} {r} (hs : Keeps s0 s) :
    IfNext (Keeps s0) (execMioderCollDone r s) := by
  unfold execMioderCollDone
  repeat' (with_reducible first
    | assumption | extract_lets | exact Keeps.refl _ | refine IfNext.next ?_ | refine State.noteRun_keeps ?_
    | refine State.collSettle_keeps ?_ | refine State.collServe_keeps ?_ ?_ | split | (intro _) | refine KeepsR.mk ?_)

theorem execMioderCollAbort_keeps {s0 s : State} {r} (hs : Keeps s0 s) :
    IfNext (Keeps s0) (execMioderCollAbort r s) := by
  unfold execMioderCollAbort
  repeat' (with_reducible first
    | assumption | extract_lets | exact Keeps.refl _ | refine IfNext.next ?_ | refine State.noteRun_keeps ?_
    | refine State.mapAfter_keeps ?_ | refine State.collServe_keeps ?_ ?_ | refine State.collFail_keeps ?_ | split | (intro _)
    | refine KeepsR.mk ?_)

theorem execMioderCollGns_keeps {s0 s : State} {r} (hs : Keeps s0 s) :
    IfNext (Keeps s0) (execMioderCollGns r s) := by
  unfold execMioderCollGns
  repeat' (with_reducible first
    | assumption | extract_lets | exact Keeps.refl _ | refine IfNext.next ?_ | refine State.noteRun_keeps ?_
    | refine State.collSettle_keeps ?_ | refine State.collServe_keeps ?_ ?_ | split | (intro _) | refine KeepsR.mk ?_)

theorem execCollTimeout_keeps {s0 s : State} {k} (hs : Keeps s0 s) :
    IfNext (Keeps s0) (execCollTimeout k s) := by
  unfold execCollTimeout
  repeat' (with_reducible first | assumption | refine IfNext.next ?_ | refine State.collEnds_keeps ?_ | split)

theorem execPhaseTransitionStart_keeps {s0 s : State} {m} (hs : Keeps s0 s) :
    IfNext (Keeps s0) (execPhaseTransitionStart m s) := by
  unfold execPhaseTransitionStart
  repeat' (with_reducible first
    | assumption | extract_lets | refine IfNext.next ?_ | refine State.setMapping_keeps ?_ | refine State.mapGo_keeps ?_
    | refine State.subtract_keeps ?_ | split)

theorem State.chainPass_keeps {s0 s : State} {k c n x version source ranks nxt} (hs : Keeps s0 s) :
    Keeps s0 (State.chainPass s k c n x version source ranks nxt) := by
  unfold State.chainPass
  repeat' (with_reducible first
    | assumption | extract_lets | exact Keeps.refl _ | refine State.collWrites_keeps ?_ | refine State.collEnds_keeps ?_
    | refine State.modRun_keeps ?_ | refine State.collDeliver_keeps ?_ | refine IfOk.get (by assumption) ?_ | split)

theorem State.chainTry_keeps {s0 s : State} {k x r c n} (hs : Keeps s0 s) :
    Keeps s0 (State.chainTry s k x r c n) := by
  unfold State.chainTry
  repeat' (with_reducible first
    | assumption | extract_lets | refine State.defer_keeps ?_ | refine State.chainPass_keeps ?_ | refine IfSome.get (by assumption) ?_
    | split)

theorem execChainChunkReceived_keeps {s0 s : State} {k} (hs : Keeps s0 s) :
    IfNext (Keeps s0) (execChainChunkReceived k s) := by
  unfold execChainChunkReceived
  repeat' (with_reducible first | assumption | extract_lets | refine IfNext.next ?_ | refine State.chainTry_keeps ?_ | split)

theorem State.refetch_keeps {s0 s : State} {k c a t x5} (hs : Keeps s0 s) :
    Keeps s0 (State.refetch s k c a t x5) := by
  fun_induction State.refetch s k c a t x5
  all_goals repeat' (with_reducible first | refine State.request_keeps ?_ | apply_assumption)

theorem State.chunkPiece_keeps {s0 s : State} {k target b} (hs : Keeps s0 s) :
    Keeps s0 (State.chunkPiece s k target b) := by
  unfold State.chunkPiece
  repeat' (with_reducible first
    | assumption | extract_lets | refine State.collWrites_keeps ?_ | refine State.collEnds_keeps ?_
    | refine IfOk.get (by assumption) ?_ | split)

theorem State.chunkCheck_keeps {s0 s : State} {k c n x again addr} (hs : Keeps s0 s) :
    Keeps s0 (State.chunkCheck s k c n x again addr) := by
  unfold State.chunkCheck
  repeat' (with_reducible first
    | assumption | refine State.collEnds_keeps ?_ | refine State.refetch_keeps ?_ | refine State.modRun_keeps ?_ | split)

theorem State.chunkTry_keeps {s0 s : State} {k chunk n x r} (hs : Keeps s0 s) :
    Keeps s0 (State.chunkTry s k chunk n x r) := by
  unfold State.chunkTry
  repeat' (with_reducible first
    | assumption | extract_lets | refine State.defer_keeps ?_ | refine State.chunkCheck_keeps ?_
    | refine IfSome.get (by assumption) ?_ | split)

theorem execChunkVerified_keeps {s0 s : State} {k chunk} (hs : Keeps s0 s) :
    IfNext (Keeps s0) (execChunkVerified k chunk s) := by
  unfold execChunkVerified
  repeat' (with_reducible first | assumption | extract_lets | refine IfNext.next ?_ | refine State.chunkTry_keeps ?_ | split)

theorem State.collsEnd_keeps {s0 s : State} {p st x3} (hs : Keeps s0 s) :
    Keeps s0 (State.collsEnd s p st x3) := by
  induction x3 generalizing s p st with
  | nil => rw [State.collsEnd] <;> repeat' (with_reducible first | refine State.collEnds_keeps ?_ | split | apply_assumption)
  | cons y t ih =>
    rw [State.collsEnd]
    repeat' (with_reducible first | refine State.collEnds_keeps ?_ | split | apply_assumption)

theorem State.collsAssocDown_keeps {s0 s : State} {dev} (hs : Keeps s0 s) :
    Keeps s0 (State.collsAssocDown s dev) := by
  unfold State.collsAssocDown
  repeat' (with_reducible first | assumption | refine State.collsEnd_keeps ?_)

theorem State.collsWiped_keeps {s0 s : State} {a len} (hs : Keeps s0 s) :
    Keeps s0 (State.collsWiped s a len) := by
  unfold State.collsWiped
  repeat' (with_reducible first | assumption | refine State.collsEnd_keeps ?_)

theorem State.collPostReads_keeps {s0 s : State} {addr} (hs : Keeps s0 s) :
    Keeps s0 (State.collPostReads s addr) := by
  unfold State.collPostReads
  repeat' (with_reducible first | assumption | refine State.countFirst_keeps ?_)

theorem State.collPlace_keeps {s0 s : State} {x} (hs : Keeps s0 s) :
    IfOk (KeepsR s0) (State.collPlace s x) := by
  unfold State.collPlace
  repeat' (with_reducible first
    | assumption | extract_lets | refine IfOk.ok ?_ | exact IfOk.error | refine State.setColl_keeps ?_ | split | refine KeepsR.mk ?_)

theorem State.collPost_keeps {s0 s : State} {addr} (hs : Keeps s0 s) :
    IfOk (KeepsR s0) (State.collPost s addr) := by
  unfold State.collPost
  repeat' (with_reducible first | assumption | extract_lets | exact IfOk.error | refine State.collPlace_keeps ?_ | split)

theorem State.collRunCmd_keeps {s0 s : State} {k} (hs : Keeps s0 s) :
    IfOk (Keeps s0) (State.collRunCmd s k) := by
  unfold State.collRunCmd
  repeat' (with_reducible first
    | assumption | dsimp only | refine IfOk.ok ?_ | exact IfOk.error | refine State.collStart_keeps ?_ | refine State.setColl_keeps ?_
    | refine State.subtract_keeps ?_ | split)

theorem State.collCancel_keeps {s0 s : State} {k} (hs : Keeps s0 s) :
    IfOk (Keeps s0) (State.collCancel s k) := by
  unfold State.collCancel
  repeat' (with_reducible first
    | assumption | extract_lets | refine IfOk.ok ?_ | exact IfOk.error | refine State.setMapping_keeps ?_
    | refine State.collEnds_keeps ?_ | split)

theorem State.prodForget_keeps {s0 s : State} {f} (hs : Keeps s0 s) :
    Keeps s0 (State.prodForget s f) := hs.upd rfl rfl rfl rfl

theorem State.collRelease_keeps {s0 s : State} {k} (hs : Keeps s0 s) :
    IfOk (Keeps s0) (State.collRelease s k) := by
  unfold State.collRelease
  repeat' (with_reducible first
    | assumption | extract_lets | refine IfOk.ok ?_ | exact IfOk.error | refine State.prodForget_keeps ?_ | split
    | refine Keeps.upd ?_ rfl rfl rfl rfl)

theorem State.mappingPlace_keeps {s0 s : State} {m r} (hs : Keeps s0 s) :
    IfOk (Keeps s0) (State.mappingPlace s m r) := by
  unfold State.mappingPlace
  repeat' (with_reducible first
    | assumption | extract_lets | refine IfOk.ok ?_ | exact IfOk.error | refine State.setMapping_keeps ?_ | split)

theorem State.mappingPostReads_keeps {s0 s : State} {addr} (hs : Keeps s0 s) :
    Keeps s0 (State.mappingPostReads s addr) := by
  unfold State.mappingPostReads
  repeat' (with_reducible first | assumption | refine State.countFirst_keeps ?_)

theorem State.mappingPostCmd_keeps {s0 s : State} {m addr} (hs : Keeps s0 s) :
    IfOk (Keeps s0) (State.mappingPostCmd s m addr) := by
  unfold State.mappingPostCmd
  repeat' (with_reducible first | assumption | exact IfOk.error | refine State.mappingPlace_keeps ?_ | split)

theorem State.mappingReleaseCmd_keeps {s0 s : State} {m} (hs : Keeps s0 s) :
    IfOk (Keeps s0) (State.mappingReleaseCmd s m) := by
  unfold State.mappingReleaseCmd
  repeat' (with_reducible first
    | assumption | refine IfOk.ok ?_ | exact IfOk.error | refine State.prodForget_keeps ?_ | split
    | refine Keeps.upd ?_ rfl rfl rfl rfl)

theorem State.collsGo_keeps {s0 s : State} {x1} (hs : Keeps s0 s) :
    Keeps s0 (State.collsGo s x1) := by
  induction x1 generalizing s with
  | nil => rw [State.collsGo] <;> repeat' (with_reducible first | refine State.collMore_keeps ?_ | split | apply_assumption)
  | cons y t ih =>
    rw [State.collsGo]
    repeat' (with_reducible first | refine State.collMore_keeps ?_ | split | apply_assumption)

theorem State.collsResume_keeps {s0 s : State} (hs : Keeps s0 s) :
    Keeps s0 (State.collsResume s) := by
  unfold State.collsResume
  repeat' (with_reducible first | assumption | refine State.collsGo_keeps ?_)

theorem execMigratePassDone_keeps {s0 s : State} {fail} (hs : Keeps s0 s) :
    IfNext (Keeps s0) (execMigratePassDone fail s) := by
  unfold execMigratePassDone
  repeat' (with_reducible first
    | assumption | refine IfNext.next ?_ | refine State.migratePass_keeps ?_ | refine State.collsResume_keeps ?_)

theorem execMigrateComplete_keeps {s0 s : State} {fail} (hs : Keeps s0 s) :
    IfNext (Keeps s0) (execMigrateComplete fail s) := by
  unfold execMigrateComplete
  repeat' (with_reducible first
    | assumption | refine IfNext.next ?_ | refine State.collsResume_keeps ?_ | refine State.migrateLast_keeps ?_)

end Sys2Proof.Machine
end

