-- ==== Sys2Proof/Laws/KeepsRoot.lean ====
section
/-! SUPPORT. What the operations of Root leave alone: each keeps the
relation Keeps to an earlier state, whatever its operands. -/

namespace Sys2Proof.Machine

theorem State.placeJob_keeps {s0 s : State} {j x2} (hs : Keeps s0 s) :
    Keeps s0 (State.placeJob s j x2) := by
  fun_induction State.placeJob s j x2
  all_goals repeat' (with_reducible first | refine State.modEngine_keeps ?_ | apply_assumption)

theorem State.refuseJob_keeps {s0 s : State} {t st} (hs : Keeps s0 s) :
    Keeps s0 (State.refuseJob s t st) := by
  unfold State.refuseJob
  repeat' (with_reducible first | assumption | refine State.modEngine_keeps ?_ | split)

theorem State.acceptJob_keeps {s0 s : State} {d prio sub own} (hs : Keeps s0 s) :
    KeepsL s0 (State.acceptJob s d prio sub own) := by
  unfold State.acceptJob
  repeat' (with_reducible first
    | assumption | refine State.placeJob_keeps ?_ | refine State.refuseJob_keeps ?_ | refine State.doorCount_keeps ?_ | split
    | refine KeepsL.mk ?_ | refine Keeps.upd ?_ rfl rfl rfl rfl)

theorem State.modJob_keeps {s0 s : State} {j f} (hs : Keeps s0 s) :
    Keeps s0 (State.modJob s j f) := hs.upd rfl rfl rfl rfl

theorem State.setRunning_keeps {s0 s : State} {v wait x3} (hs : Keeps s0 s) :
    Keeps s0 (State.setRunning s v wait x3) := by
  fun_induction State.setRunning s v wait x3
  all_goals repeat' (with_reducible first | refine State.modEngine_keeps ?_ | apply_assumption)

theorem State.putUnit_keeps {s0 s : State} {a b} (hs : Keeps s0 s) :
    Keeps s0 (State.putUnit s a b) := by
  unfold State.putUnit
  repeat' (with_reducible first | assumption | refine State.writeMem_keeps ?_ | refine IfOk.get (by assumption) ?_ | split)

theorem State.writeCodes.go_keeps {s0 s : State} {e addr cols pitch cs k} (hs : Keeps s0 s) :
    Keeps s0 (State.writeCodes.go e addr cols pitch cs k s) := by
  induction cs generalizing k s with
  | nil => exact hs
  | cons v t ih => exact ih (State.putUnit_keeps hs)

theorem State.writeCodes_keeps {s0 s : State} {e addr cols pitch cs} (hs : Keeps s0 s) :
    Keeps s0 (State.writeCodes s e addr cols pitch cs) := State.writeCodes.go_keeps hs

theorem State.writeOut_keeps {s0 s : State} {d cs} (hs : Keeps s0 s) :
    Keeps s0 (State.writeOut s d cs) := by
  unfold State.writeOut
  repeat' (with_reducible first | assumption | refine State.writeCodes_keeps ?_)

theorem State.partialOut_keeps {s0 s : State} {d} (hs : Keeps s0 s) :
    Keeps s0 (State.partialOut s d) := by
  unfold State.partialOut
  repeat' (with_reducible first | assumption | refine State.fresh_keeps ?_ | refine State.writeOut_keeps ?_)

theorem State.useWork_keeps {s0 s : State} {d} (hs : Keeps s0 s) :
    Keeps s0 (State.useWork s d) := by
  unfold State.useWork
  repeat' (with_reducible first | assumption | refine State.scribble_keeps ?_)

theorem State.keepSlot_keeps {s0 s : State} {j cs} (hs : Keeps s0 s) :
    Keeps s0 (State.keepSlot s j cs) := by
  unfold State.keepSlot
  repeat' (with_reducible first
    | assumption | refine State.modEngine_keeps ?_ | refine State.writeCodes_keeps ?_ | split | refine Keeps.upd ?_ rfl rfl rfl rfl)

theorem State.writeIterate_keeps {s0 s : State} {j} (hs : Keeps s0 s) :
    Keeps s0 (State.writeIterate s j) := by
  unfold State.writeIterate
  repeat' (with_reducible first | assumption | refine State.writeOut_keeps ?_ | refine State.keepSlot_keeps ?_)

theorem State.rootNotice_keeps {s0 s : State} {q t d prio st valid seq iters} (hs : Keeps s0 s) :
    Keeps s0 (State.rootNotice s q t d prio st valid seq iters) := hs.upd rfl rfl rfl rfl

theorem State.discardReply_keeps {s0 s : State} {c kind oldGen newGen peer} (hs : Keeps s0 s) :
    Keeps s0 (State.discardReply s c kind oldGen newGen peer) := hs.upd rfl rfl rfl rfl

theorem State.rootCueEnds_keeps {s0 s : State} {c seq st} (hs : Keeps s0 s) :
    Keeps s0 (State.rootCueEnds s c seq st) := by
  unfold State.rootCueEnds
  repeat' (with_reducible first | assumption | refine State.modCore_keeps ?_ | refine State.signal_keeps ?_ | split)

theorem State.tellSubmitter_keeps {s0 s : State} {j st record} (hs : Keeps s0 s) :
    Keeps s0 (State.tellSubmitter s j st record) := by
  unfold State.tellSubmitter
  repeat' (with_reducible first
    | assumption | refine State.modCore_keeps ?_ | refine State.workEnds_keeps ?_ | refine State.rootCueEnds_keeps ?_
    | refine State.discardReply_keeps ?_ | refine State.refreshJobEnds_keeps ?_ | split)

theorem State.forgetJob_keeps {s0 s : State} {seq x2} (hs : Keeps s0 s) :
    Keeps s0 (State.forgetJob s seq x2) := by
  fun_induction State.forgetJob s seq x2
  all_goals repeat' (with_reducible first | refine State.modEngine_keeps ?_ | apply_assumption)

theorem State.writeEigvals_keeps {s0 s : State} {j} (hs : Keeps s0 s) :
    Keeps s0 (State.writeEigvals s j) := by
  unfold State.writeEigvals
  repeat' (with_reducible first | assumption | refine State.writeCodes_keeps ?_ | split)

theorem State.endJob_keeps {s0 s : State} {j x} (hs : Keeps s0 s) :
    Keeps s0 (State.endJob s j x) := by
  unfold State.endJob
  repeat' (with_reducible first
    | assumption | refine State.modEngine_keeps ?_ | refine State.writeEigvals_keeps ?_ | refine State.writeOut_keeps ?_
    | refine State.tellSubmitter_keeps ?_ | refine State.partialOut_keeps ?_ | refine State.putUnit_keeps ?_
    | refine State.rootNotice_keeps ?_ | refine State.keepSlot_keeps ?_ | refine State.forgetJob_keeps ?_ | split
    | refine Keeps.upd ?_ rfl rfl rfl rfl)

theorem State.beginAsm_keeps {s0 s : State} {t j} (hs : Keeps s0 s) :
    Keeps s0 (State.beginAsm s t j) := by
  unfold State.beginAsm
  repeat' (with_reducible first | assumption | dsimp only | refine State.modEngine_keeps ?_ | refine State.modJob_keeps ?_ | split)

theorem execRootAssemblyStart_keeps {s0 s : State} {t} (hs : Keeps s0 s) :
    IfNext (Keeps s0) (execRootAssemblyStart t s) := by
  unfold execRootAssemblyStart
  repeat' (with_reducible first | assumption | refine IfNext.next ?_ | refine State.beginAsm_keeps ?_ | split)

theorem State.assembleNow_keeps {s0 s : State} {j} (hs : Keeps s0 s) :
    Keeps s0 (State.assembleNow s j) := by
  unfold State.assembleNow
  repeat' (with_reducible first
    | assumption | extract_lets | refine State.modEngine_keeps ?_ | refine State.useWork_keeps ?_ | refine State.modJob_keeps ?_
    | refine State.countFirst_keeps ?_ | split)

theorem execRootAssemblyComplete_keeps {s0 s : State} {t} (hs : Keeps s0 s) :
    IfNext (Keeps s0) (execRootAssemblyComplete t s) := by
  unfold execRootAssemblyComplete
  repeat' (with_reducible first
    | assumption | refine IfNext.next ?_ | refine State.modEngine_keeps ?_ | refine State.assembleNow_keeps ?_ | split)

theorem execAssemblyGroupEnd_keeps {s0 s : State} {t} (hs : Keeps s0 s) :
    IfNext (Keeps s0) (execAssemblyGroupEnd t s) := by
  unfold execAssemblyGroupEnd
  repeat' (with_reducible first
    | assumption | dsimp only | refine IfNext.next ?_ | refine State.modEngine_keeps ?_ | refine State.modJob_keeps ?_
    | refine State.beginAsm_keeps ?_ | split)

theorem State.requestEval_keeps {s0 s : State} {j x} (hs : Keeps s0 s) :
    Keeps s0 (State.requestEval s j x) := by
  unfold State.requestEval
  repeat' (with_reducible first
    | assumption | refine State.modJob_keeps ?_ | refine State.setRunning_keeps ?_ | refine State.writeCodes_keeps ?_
    | refine State.signalUnit_keeps ?_ | split | refine Keeps.upd ?_ rfl rfl rfl rfl)

theorem State.takeStart_keeps {s0 s : State} {j} (hs : Keeps s0 s) :
    Keeps s0 (State.takeStart s j) := by
  unfold State.takeStart
  repeat' (with_reducible first
    | assumption | extract_lets | refine State.modEngine_keeps ?_ | refine State.modJob_keeps ?_ | refine State.countFirst_keeps ?_
    | refine State.writeIterate_keeps ?_ | split | refine Keeps.upd ?_ rfl rfl rfl rfl)

theorem State.nextTrial_keeps {s0 s : State} {j} (hs : Keeps s0 s) :
    Keeps s0 (State.nextTrial s j) := by
  unfold State.nextTrial
  repeat' (with_reducible first
    | assumption | extract_lets | refine State.modJob_keeps ?_ | refine State.requestEval_keeps ?_ | split)

theorem State.runJob_keeps {s0 s : State} {j} (hs : Keeps s0 s) :
    Keeps s0 (State.runJob s j) := by
  unfold State.runJob
  repeat' (with_reducible first
    | assumption | extract_lets | exact Keeps.refl _ | refine State.nextTrial_keeps ?_ | refine State.takeStart_keeps ?_
    | refine State.modJob_keeps ?_ | refine State.requestEval_keeps ?_ | refine State.writeIterate_keeps ?_ | split)

theorem State.rootRefused_keeps {s0 s : State} {c cue ref prio d st} (hs : Keeps s0 s) :
    Keeps s0 (State.rootRefused s c cue ref prio d st) := by
  unfold State.rootRefused
  repeat' (with_reducible first
    | assumption | refine State.modCore_keeps ?_ | refine State.signal_keeps ?_ | refine State.rootNotice_keeps ?_)

theorem State.submitRoot_keeps {s0 s : State} {c cue ref q} (hs : Keeps s0 s) :
    Keeps s0 (State.submitRoot s c cue ref q) := by
  unfold State.submitRoot
  repeat' (with_reducible first
    | assumption | extract_lets | refine State.acceptJob_keeps ?_ | refine State.modCore_keeps ?_ | refine State.refuseJob_keeps ?_
    | refine State.rootRefused_keeps ?_ | refine State.countFirst_keeps ?_ | refine KeepsL.get (by assumption) ?_
    | exact KeepsL.fst (p := (_, _)) (by assumption) | split)

theorem State.submitAll_keeps {s0 s : State} {c x2} (hs : Keeps s0 s) :
    Keeps s0 (State.submitAll s c x2) := by
  fun_induction State.submitAll s c x2
  all_goals repeat' (with_reducible first | refine State.submitRoot_keeps ?_ | apply_assumption)

theorem State.rootPump_keeps {s0 s : State} {c} (hs : Keeps s0 s) :
    Keeps s0 (State.rootPump s c) := by
  unfold State.rootPump
  repeat' (with_reducible first | assumption | extract_lets | refine State.submitAll_keeps ?_ | refine State.setCore_keeps ?_ | split)

theorem State.rootPumpAll_keeps {s0 s : State} {x1} (hs : Keeps s0 s) :
    Keeps s0 (State.rootPumpAll s x1) := by
  fun_induction State.rootPumpAll s x1
  all_goals repeat' (with_reducible first | refine State.rootPump_keeps ?_ | apply_assumption)

theorem State.queueRoot_keeps {s0 s : State} {c cue ref q waits} (hs : Keeps s0 s) :
    Keeps s0 (State.queueRoot s c cue ref q waits) := by
  unfold State.queueRoot
  repeat' (with_reducible first | assumption | refine State.modCore_keeps ?_ | refine State.rootPump_keeps ?_ | split)

theorem State.issueRoot_keeps {s0 s : State} {c q waits} (hs : Keeps s0 s) :
    Keeps s0 (State.issueRoot s c q waits) := by
  unfold State.issueRoot
  repeat' (with_reducible first
    | assumption | extract_lets | refine State.queueRoot_keeps ?_ | refine State.fresh_keeps ?_ | refine State.modCore_keeps ?_
    | refine State.setCore_keeps ?_ | refine State.signal_keeps ?_ | split)

theorem execRootCue_keeps {s0 s : State} {c} (hs : Keeps s0 s) :
    IfNext (Keeps s0) (execRootCue c s) := by
  unfold execRootCue
  repeat' (with_reducible first
    | assumption | refine IfNext.next ?_ | refine State.attempt_keeps ?_ ?_ | refine State.issueRoot_keeps ?_ | (intro _))

theorem execRootJobStart_keeps {s0 s : State} {t} (hs : Keeps s0 s) :
    IfNext (Keeps s0) (execRootJobStart t s) := by
  unfold execRootJobStart
  repeat' (with_reducible first
    | assumption | extract_lets | refine IfNext.next ?_ | refine State.rootPumpAll_keeps ?_ | refine State.modEngine_keeps ?_
    | refine State.setRunning_keeps ?_ | refine State.runJob_keeps ?_ | split)

theorem State.boundary_keeps {s0 s : State} {j} (hs : Keeps s0 s) :
    Keeps s0 (State.boundary s j) := by
  unfold State.boundary
  repeat' (with_reducible first
    | assumption | refine State.fresh_keeps ?_ | refine State.modEngine_keeps ?_ | refine State.useWork_keeps ?_
    | refine State.modJob_keeps ?_ | refine State.partialOut_keeps ?_ | refine State.writeIterate_keeps ?_ | split
    | refine Keeps.upd ?_ rfl rfl rfl rfl)

theorem State.setSwitching_keeps {s0 s : State} {x1} (hs : Keeps s0 s) :
    Keeps s0 (State.setSwitching s x1) := by
  fun_induction State.setSwitching s x1
  all_goals repeat' (with_reducible first | refine State.modEngine_keeps ?_ | apply_assumption)

theorem State.preempt_keeps {s0 s : State} {j} (hs : Keeps s0 s) :
    Keeps s0 (State.preempt s j) := by
  unfold State.preempt
  repeat' (with_reducible first
    | assumption | extract_lets | refine State.setSwitching_keeps ?_ | refine State.modEngine_keeps ?_ | refine State.modJob_keeps ?_
    | refine State.scribble_keeps ?_ | refine State.setRunning_keeps ?_ | split)

theorem execRootJobBoundary_keeps {s0 s : State} {t} (hs : Keeps s0 s) :
    IfNext (Keeps s0) (execRootJobBoundary t s) := by
  unfold execRootJobBoundary
  repeat' (with_reducible first
    | assumption | extract_lets | exact Keeps.refl _ | refine IfNext.next ?_ | refine State.nextTrial_keeps ?_
    | refine State.preempt_keeps ?_ | refine State.boundary_keeps ?_ | refine State.modJob_keeps ?_ | split)

theorem execRootJobEnd_keeps {s0 s : State} {t} (hs : Keeps s0 s) :
    IfNext (Keeps s0) (execRootJobEnd t s) := by
  unfold execRootJobEnd
  repeat' (with_reducible first
    | assumption | extract_lets | exact Keeps.refl _ | refine IfNext.next ?_ | refine State.endJob_keeps ?_ | split)

theorem execRootDeadlineMiss_keeps {s0 s : State} {t seq} (hs : Keeps s0 s) :
    IfNext (Keeps s0) (execRootDeadlineMiss t seq s) := by
  unfold execRootDeadlineMiss
  repeat' (with_reducible first
    | assumption | extract_lets | exact Keeps.refl _ | refine IfNext.next ?_ | refine State.endJob_keeps ?_ | split)

theorem State.resetJobs_keeps {s0 s : State} {x1} (hs : Keeps s0 s) :
    Keeps s0 (State.resetJobs s x1) := by
  fun_induction State.resetJobs s x1
  all_goals repeat' (with_reducible first
    | assumption | extract_lets | exact Keeps.refl _ | refine State.endJob_keeps ?_ | split | apply_assumption)

theorem State.resetEngine_keeps {s0 s : State} {t} (hs : Keeps s0 s) :
    Keeps s0 (State.resetEngine s t) := by
  unfold State.resetEngine
  repeat' (with_reducible first | assumption | refine State.modEngine_keeps ?_ | refine State.resetJobs_keeps ?_)

theorem execSlotClear_keeps {s0 s : State} {t mask} (hs : Keeps s0 s) :
    IfNext (Keeps s0) (execSlotClear t mask s) := by
  unfold execSlotClear
  repeat' (with_reducible first
    | assumption | refine IfNext.next ?_ | refine State.modEngine_keeps ?_ | refine State.doorCount_keeps ?_ | split)

end Sys2Proof.Machine
end

