-- ==== Sys2Proof/Laws/KeepsUnits.lean ====
section
/-! SUPPORT. What the operations of Conservator, Units, Sessions leave alone: each keeps the
relation Keeps to an earlier state, whatever its operands. -/

namespace Sys2Proof.Machine

theorem State.noteErr_keeps {s0 s : State} {e} (hs : Keeps s0 s) :
    Keeps s0 (State.noteErr s e) := by
  unfold State.noteErr
  repeat' (with_reducible first | assumption | refine State.countWrite_keeps ?_ | refine State.countRead_keeps ?_ | split)

theorem State.awaitCons_keeps {s0 s : State} {n k} (hs : Keeps s0 s) :
    Keeps s0 (State.awaitCons s n k) := hs.upd rfl rfl rfl rfl

theorem State.putPackets_keeps {s0 s : State} {p k fwd t b x6} (hs : Keeps s0 s) :
    Keeps s0 (State.putPackets s p k fwd t b x6) := by
  fun_induction State.putPackets s p k fwd t b x6
  all_goals repeat' (with_reducible first | refine State.request_keeps ?_ | apply_assumption)

theorem State.consWrite_keeps {s0 s : State} {n fab addr b} (hs : Keeps s0 s) :
    IfOk (Keeps s0) (State.consWrite s n fab addr b) := by
  unfold State.consWrite
  repeat' (with_reducible first
    | assumption | refine IfOk.ok ?_ | exact IfOk.error | refine State.writeMem_keeps ?_ | refine State.putPackets_keeps ?_
    | refine State.markDirty_keeps ?_ | refine State.awaitCons_keeps ?_ | refine IfOk.get (by assumption) ?_ | split)

theorem State.consCopy_keeps {s0 s : State} {c fabFrom src fabTo dst n} (hs : Keeps s0 s) :
    IfOk (Keeps s0) (State.consCopy s c fabFrom src fabTo dst n) := by
  unfold State.consCopy
  repeat' (with_reducible first | assumption | exact IfOk.error | refine State.consWrite_keeps ?_ | split)

theorem State.writeTiles_keeps {s0 s : State} {n fab base x4} (hs : Keeps s0 s) :
    IfOk (Keeps s0) (State.writeTiles s n fab base x4) := by
  fun_induction State.writeTiles s n fab base x4
  all_goals repeat' (with_reducible first
    | assumption | refine IfOk.ok ?_ | exact IfOk.error | refine State.consWrite_keeps ?_ | refine IfOk.get (by assumption) ?_
    | apply_assumption)

theorem State.writeWork_keeps {s0 s : State} {c a x ctr x5 x6} (hs : Keeps s0 s) :
    IfOk (KeepsL s0) (State.writeWork s c a x ctr x5 x6) := by
  fun_induction State.writeWork s c a x ctr x5 x6
  all_goals repeat' (with_reducible first
    | refine IfOk.ok ?_ | exact IfOk.error | refine State.consWrite_keeps ?_ | refine IfOk.get (by assumption) ?_ | apply_assumption)

theorem State.halt_keeps {s0 s : State} {n i st close} (hs : Keeps s0 s) :
    Keeps s0 (State.halt s n i st close) := by
  unfold State.halt
  repeat' (with_reducible first
    | assumption | refine State.sweepNotice_keeps ?_ | refine State.modShard_keeps ?_ | refine State.rLast_keeps ?_
    | refine State.modCon_keeps ?_ | refine State.recSet_keeps ?_)

theorem State.haltWith_keeps {s0 s : State} {n i st close} (hs : Keeps s0 s) :
    Keeps s0 (State.haltWith s n i st close) := by
  unfold State.haltWith
  repeat' (with_reducible first
    | assumption | refine State.halt_keeps ?_ | refine State.fresh_keeps ?_ | refine State.modShard_keeps ?_
    | refine State.modCon_keeps ?_ | split)

theorem State.haltOn_keeps {s0 s : State} {n i e close} (hs : Keeps s0 s) :
    Keeps s0 (State.haltOn s n i e close) := by
  unfold State.haltOn
  repeat' (with_reducible first | assumption | refine State.noteErr_keeps ?_ | refine State.haltWith_keeps ?_)

theorem State.closeStall_keeps {s0 s : State} {n i} (hs : Keeps s0 s) :
    Keeps s0 (State.closeStall s n i) := by
  unfold State.closeStall
  repeat' (with_reducible first | assumption | refine State.sweepNotice_keeps ?_ | refine State.modShard_keeps ?_ | split)

theorem State.stallEnds_keeps {s0 s : State} {n i} (hs : Keeps s0 s) :
    Keeps s0 (State.stallEnds s n i) := by
  unfold State.stallEnds
  repeat' (with_reducible first | assumption | refine State.modShard_keeps ?_ | refine State.modCon_keeps ?_ | split)

theorem State.copyOnce_keeps {s0 s : State} {fail : MemErr → State} {n copy} (hs : Keeps s0 s) (hcopy : IfOk (Keeps s0) copy)
    (kfail : ∀ y0, Keeps s0 (fail y0)) : KeepsL s0 (State.copyOnce s n copy fail) := by
  unfold State.copyOnce
  split
  · exact hs
  · split
    · exact kfail _
    · exact KeepsL.mk (State.modCon_keeps (hcopy _ rfl))

theorem State.closeCopy_keeps {s0 s : State} {n i} (hs : Keeps s0 s) :
    IfOk (Keeps s0) (State.closeCopy s n i) := by
  unfold State.closeCopy
  repeat' (with_reducible first | assumption | refine State.consCopy_keeps ?_)

theorem State.closeBegin_keeps {s0 s : State} {n i} (hs : Keeps s0 s) :
    Keeps s0 (State.closeBegin s n i) := by
  unfold State.closeBegin
  repeat' (with_reducible first
    | assumption | extract_lets | refine State.copyOnce_keeps ?_ ?_ ?_ | refine State.closeCopy_keeps ?_
    | refine State.modCon_keeps ?_ | refine State.haltOn_keeps ?_ | split | (intro _) | refine KeepsL.fst ?_)

theorem execGradientClose_keeps {s0 s : State} {n i} (hs : Keeps s0 s) :
    IfNext (Keeps s0) (execGradientClose n i s) := by
  unfold execGradientClose
  repeat' (with_reducible first
    | assumption | extract_lets | refine IfNext.next ?_ | refine State.closeStall_keeps ?_ | refine State.stallEnds_keeps ?_
    | refine State.closeBegin_keeps ?_ | refine State.recSet_keeps ?_ | split)

theorem execCloseCopyDone_keeps {s0 s : State} {n} (hs : Keeps s0 s) :
    IfNext (Keeps s0) (execCloseCopyDone n s) := by
  unfold execCloseCopyDone
  repeat' (with_reducible first
    | assumption | extract_lets | refine IfNext.next ?_ | refine State.copyOnce_keeps ?_ ?_ ?_ | refine State.closeCopy_keeps ?_
    | refine State.modShard_keeps ?_ | refine State.recSet_keeps ?_ | refine State.haltOn_keeps ?_
    | refine KeepsL.get (by assumption) ?_ | split | (intro _) | refine Keeps.upd ?_ rfl rfl rfl rfl)

theorem State.refreshDue_keeps {s0 s : State} {n i c k} (hs : Keeps s0 s) :
    Keeps s0 (State.refreshDue s n i c k) := by
  unfold State.refreshDue
  repeat' (with_reducible first
    | assumption | extract_lets | refine State.sweepNotice_keeps ?_ | refine State.modShard_keeps ?_ | refine State.modCon_keeps ?_
    | split)

theorem execCloseZeroDone_keeps {s0 s : State} {n} (hs : Keeps s0 s) :
    IfNext (Keeps s0) (execCloseZeroDone n s) := by
  unfold execCloseZeroDone
  repeat' (with_reducible first
    | assumption | extract_lets | refine IfNext.next ?_ | refine State.zeroMem_keeps ?_ | refine State.noteErr_keeps ?_
    | refine State.sweepNotice_keeps ?_ | refine State.refreshDue_keeps ?_ | refine State.modShard_keeps ?_
    | refine State.rLast_keeps ?_ | refine State.modCon_keeps ?_ | refine State.recSet_keeps ?_ | split
    | refine Keeps.upd ?_ rfl rfl rfl rfl)

theorem execSweepStart_keeps {s0 s : State} {n i} (hs : Keeps s0 s) :
    IfNext (Keeps s0) (execSweepStart n i s) := by
  unfold execSweepStart
  repeat' (with_reducible first
    | assumption | extract_lets | refine IfNext.next ?_ | refine State.halt_keeps ?_ | refine State.sweepNotice_keeps ?_
    | refine State.modCon_keeps ?_ | refine State.haltOn_keeps ?_ | split | refine Keeps.upd ?_ rfl rfl rfl rfl)

theorem State.holdNote_keeps {s0 s : State} {n i w} (hs : Keeps s0 s) :
    Keeps s0 (State.holdNote s n i w) := by
  unfold State.holdNote
  repeat' (with_reducible first | assumption | refine State.sweepNotice_keeps ?_ | refine State.modShard_keeps ?_ | split)

theorem State.skipCopy_keeps {s0 s : State} {n i} (hs : Keeps s0 s) :
    IfOk (Keeps s0) (State.skipCopy s n i) := by
  unfold State.skipCopy
  repeat' (with_reducible first
    | assumption | extract_lets | refine IfOk.ok ?_ | exact IfOk.error | refine State.consCopy_keeps ?_ | refine State.fresh_keeps ?_
    | refine State.writeWork_keeps ?_ | refine State.modCon_keeps ?_ | refine IfOk.get (by assumption) ?_
    | refine IfOk.getL (by assumption) ?_ | split)

theorem State.skipBegin_keeps {s0 s : State} {n i} (hs : Keeps s0 s) :
    Keeps s0 (State.skipBegin s n i) := by
  unfold State.skipBegin
  repeat' (with_reducible first
    | assumption | extract_lets | refine State.copyOnce_keeps ?_ ?_ ?_ | refine State.skipCopy_keeps ?_ | refine State.modCon_keeps ?_
    | refine State.haltOn_keeps ?_ | split | (intro _) | refine KeepsL.fst ?_)

theorem execSweepPassStart_keeps {s0 s : State} {n} (hs : Keeps s0 s) :
    IfNext (Keeps s0) (execSweepPassStart n s) := by
  unfold execSweepPassStart
  repeat' (with_reducible first
    | assumption | extract_lets | refine IfNext.next ?_ | refine State.modShard_keeps ?_ | refine State.skipBegin_keeps ?_
    | refine State.modCon_keeps ?_ | refine State.holdNote_keeps ?_ | refine State.recSet_keeps ?_ | split)

theorem State.writeBlock_keeps {s0 s : State} {n i b w m v k} (hs : Keeps s0 s) :
    IfOk (Keeps s0) (State.writeBlock s n i b w m v k) := by
  unfold State.writeBlock
  repeat' (with_reducible first
    | assumption | dsimp only | refine IfOk.ok ?_ | exact IfOk.error | refine State.fresh_keeps ?_ | refine State.writeTiles_keeps ?_
    | refine State.writeWork_keeps ?_ | refine State.modCon_keeps ?_ | refine IfOk.get (by assumption) ?_
    | refine IfOk.getL (by assumption) ?_ | exact KeepsL.fst (p := (_, _)) (by assumption) | split)

theorem State.statAdd_keeps {s0 s : State} {region tb x3 m x5} (hs : Keeps s0 s) :
    Keeps s0 (State.statAdd s region tb x3 m x5) := by
  fun_induction State.statAdd s region tb x3 m x5
  all_goals repeat' (with_reducible first | refine State.addAll_keeps ?_ | apply_assumption)

theorem State.gradStats_keeps {s0 s : State} {n i b g} (hs : Keeps s0 s) :
    KeepsL s0 (State.gradStats s n i b g) := by
  unfold State.gradStats
  repeat' (with_reducible first | assumption | refine State.statAdd_keeps ?_ | refine KeepsL.mk ?_)

theorem State.nonFinite_keeps {s0 s : State} {n i} (hs : Keeps s0 s) :
    Keeps s0 (State.nonFinite s n i) := by
  unfold State.nonFinite
  repeat' (with_reducible first | assumption | refine State.halt_keeps ?_ | refine State.skipBegin_keeps ?_ | split)

theorem execSweepBlockDone_keeps {s0 s : State} {n} (hs : Keeps s0 s) :
    IfNext (Keeps s0) (execSweepBlockDone n s) := by
  unfold execSweepBlockDone
  repeat' (with_reducible first
    | assumption | extract_lets | refine IfNext.next ?_ | refine State.writeBlock_keeps ?_ | refine State.fresh_keeps ?_
    | refine State.gradStats_keeps ?_ | refine State.modCon_keeps ?_ | refine State.nonFinite_keeps ?_ | refine State.haltOn_keeps ?_
    | refine IfOk.get (by assumption) ?_ | refine KeepsL.get (by assumption) ?_ | split | refine KeepsL.mk ?_)

theorem State.commitWrite_keeps {s0 s : State} {n i} (hs : Keeps s0 s) :
    Keeps s0 (State.commitWrite s n i) := by
  unfold State.commitWrite
  repeat' (with_reducible first
    | assumption | extract_lets | refine State.store_keeps ?_ | refine State.modShard_keeps ?_ | refine State.stallEnds_keeps ?_
    | refine State.modCon_keeps ?_ | split)

theorem State.bumpRows_keeps {s0 s : State} {a} (hs : Keeps s0 s) :
    Keeps s0 (State.bumpRows s a) := by
  unfold State.bumpRows
  repeat' (with_reducible first | assumption | refine State.pokeNum_keeps ?_)

theorem State.commitEnds_keeps {s0 s : State} {n i} (hs : Keeps s0 s) :
    Keeps s0 (State.commitEnds s n i) := by
  unfold State.commitEnds
  repeat' (with_reducible first
    | assumption | refine State.sweepNotice_keeps ?_ | refine State.refreshDue_keeps ?_ | refine State.modCon_keeps ?_
    | refine State.recSet_keeps ?_ | refine State.signalUnit_keeps ?_ | split | refine Keeps.upd ?_ rfl rfl rfl rfl)

theorem State.install_keeps {s0 s : State} {n i} (hs : Keeps s0 s) :
    IfOk (Keeps s0) (State.install s n i) := by
  unfold State.install
  repeat' (with_reducible first | assumption | refine State.consCopy_keeps ?_)

theorem State.installed_keeps {s0 s : State} {n i} (hs : Keeps s0 s) :
    Keeps s0 (State.installed s n i) := by
  unfold State.installed
  repeat' (with_reducible first | assumption | refine State.recSet_keeps ?_)

theorem State.installFails_keeps {s0 s : State} {n e} (hs : Keeps s0 s) :
    Keeps s0 (State.installFails s n e) := by
  unfold State.installFails
  repeat' (with_reducible first | assumption | refine State.noteErr_keeps ?_ | refine State.modCon_keeps ?_ | split)

theorem State.afterCommit_keeps {s0 s : State} {n} (hs : Keeps s0 s) :
    Keeps s0 (State.afterCommit s n) := by
  unfold State.afterCommit
  repeat' (with_reducible first
    | assumption | extract_lets | refine State.copyOnce_keeps ?_ ?_ ?_ | refine State.installed_keeps ?_
    | refine State.installFails_keeps ?_ | refine State.install_keeps ?_ | refine State.commitEnds_keeps ?_
    | refine KeepsL.get (by assumption) ?_ | refine IfOk.get (by assumption) ?_ | exact KeepsL.fst (p := (_, _)) (by assumption)
    | split | (intro _))

theorem execSweepCommit_keeps {s0 s : State} {n} (hs : Keeps s0 s) :
    IfNext (Keeps s0) (execSweepCommit n s) := by
  unfold execSweepCommit
  repeat' (with_reducible first
    | assumption | extract_lets | refine IfNext.next ?_ | refine State.commitWrite_keeps ?_ | refine State.bumpRows_keeps ?_
    | refine State.afterCommit_keeps ?_ | split | refine Keeps.upd ?_ rfl rfl rfl rfl)

theorem execSkipCopyDone_keeps {s0 s : State} {n} (hs : Keeps s0 s) :
    IfNext (Keeps s0) (execSkipCopyDone n s) := by
  unfold execSkipCopyDone
  repeat' (with_reducible first
    | assumption | extract_lets | refine IfNext.next ?_ | refine State.copyOnce_keeps ?_ ?_ ?_ | refine State.skipCopy_keeps ?_
    | refine State.commitWrite_keeps ?_ | refine State.sweepNotice_keeps ?_ | refine State.modCon_keeps ?_
    | refine State.afterCommit_keeps ?_ | refine State.haltOn_keeps ?_ | refine KeepsL.get (by assumption) ?_ | split | (intro _))

theorem State.consAnswer_keeps {s0 s : State} {n round st} (hs : Keeps s0 s) :
    Keeps s0 (State.consAnswer s n round st) := by
  unfold State.consAnswer
  repeat' (with_reducible first | assumption | extract_lets | refine State.haltWith_keeps ?_ | refine State.modCon_keeps ?_ | split)

theorem execCompareDone_keeps {s0 s : State} {n} (hs : Keeps s0 s) :
    IfNext (Keeps s0) (execCompareDone n s) := by
  unfold execCompareDone
  repeat' (with_reducible first
    | assumption | extract_lets | refine IfNext.next ?_ | refine State.noteErr_keeps ?_ | refine State.fresh_keeps ?_
    | refine State.sweepNotice_keeps ?_ | refine State.modShard_keeps ?_ | refine State.recSet_keeps ?_ | split)

theorem State.foldFactor_keeps {s0 s : State} {c a u region at_ x6 n rows} (hs : Keeps s0 s) :
    IfOk (Keeps s0) (State.foldFactor s c a u region at_ x6 n rows) := by
  unfold State.foldFactor
  repeat' (with_reducible first | assumption | extract_lets | exact IfOk.error | refine State.consWrite_keeps ?_ | split)

theorem State.foldAll_keeps {s0 s : State} {c a u rows x5} (hs : Keeps s0 s) :
    IfOk (Keeps s0) (State.foldAll s c a u rows x5) := by
  fun_induction State.foldAll s c a u rows x5
  all_goals repeat' (with_reducible first
    | assumption | refine IfOk.ok ?_ | exact IfOk.error | refine State.foldFactor_keeps ?_ | refine IfOk.get (by assumption) ?_
    | split | apply_assumption)

theorem State.clearStats_keeps {s0 s : State} {a region count} (hs : Keeps s0 s) :
    Keeps s0 (State.clearStats s a region count) := by
  unfold State.clearStats
  repeat' (with_reducible first | assumption | refine State.zeroMem_keeps ?_ | refine State.pokeNum_keeps ?_)

theorem State.submitRoots_keeps {s0 s : State} {n i u troupe x5} (hs : Keeps s0 s) :
    Keeps s0 (State.submitRoots s n i u troupe x5) := by
  induction x5 generalizing s n i u troupe with
  | nil => rw [State.submitRoots] <;> repeat' (with_reducible first
    | refine State.acceptJob_keeps ?_ | refine State.refreshFails_keeps ?_ | refine State.modShard_keeps ?_
    | refine State.refuseJob_keeps ?_ | refine KeepsL.get (by assumption) ?_ | split | apply_assumption)
  | cons y t ih =>
    rw [State.submitRoots]
    repeat' (with_reducible first
      | refine State.acceptJob_keeps ?_ | refine State.refreshFails_keeps ?_ | refine State.modShard_keeps ?_
      | refine State.refuseJob_keeps ?_ | refine KeepsL.get (by assumption) ?_ | split | apply_assumption)

theorem State.refresh_keeps {s0 s : State} {n i u} (hs : Keeps s0 s) :
    Keeps s0 (State.refresh s n i u) := by
  unfold State.refresh
  repeat' (with_reducible first
    | assumption | refine State.noteErr_keeps ?_ | refine State.fresh_keeps ?_ | refine State.foldAll_keeps ?_
    | refine State.refreshFails_keeps ?_ | refine State.modShard_keeps ?_ | refine State.refreshOver_keeps ?_
    | refine State.modCon_keeps ?_ | refine State.submitRoots_keeps ?_ | refine State.clearStats_keeps ?_
    | refine State.recSet_keeps ?_ | refine IfOk.get (by assumption) ?_ | split | refine Keeps.upd ?_ rfl rfl rfl rfl)

theorem execFactorFoldDone_keeps {s0 s : State} {n} (hs : Keeps s0 s) :
    IfNext (Keeps s0) (execFactorFoldDone n s) := by
  unfold execFactorFoldDone
  repeat' (with_reducible first
    | assumption | extract_lets | refine IfNext.next ?_ | refine State.noteErr_keeps ?_ | refine State.refreshFails_keeps ?_
    | refine State.modShard_keeps ?_ | refine State.refreshOver_keeps ?_ | refine State.refresh_keeps ?_ | split)

theorem State.modDescJob_keeps {s0 s : State} {id f} (hs : Keeps s0 s) :
    Keeps s0 (State.modDescJob s id f) := hs.upd rfl rfl rfl rfl

theorem State.jobAnswers_keeps {s0 s : State} {j st b} (hs : Keeps s0 s) :
    Keeps s0 (State.jobAnswers s j st b) := by
  unfold State.jobAnswers
  repeat' (with_reducible first
    | assumption | refine State.workEnds_keeps ?_ | refine State.respond_keeps ?_ | split | refine Keeps.upd ?_ rfl rfl rfl rfl)

theorem State.jobSettle_keeps {s0 s : State} {id} (hs : Keeps s0 s) :
    Keeps s0 (State.jobSettle s id) := by
  unfold State.jobSettle
  repeat' (with_reducible first | assumption | exact Keeps.refl _ | refine State.jobAnswers_keeps ?_ | split)

theorem State.describeAnswer_keeps {s0 s : State} {id u st b} (hs : Keeps s0 s) :
    Keeps s0 (State.describeAnswer s id u st b) := by
  unfold State.describeAnswer
  repeat' (with_reducible first
    | assumption | refine State.modDescJob_keeps ?_ | refine State.jobAnswers_keeps ?_ | refine State.jobSettle_keeps ?_ | split)

theorem State.jobAsk_keeps {s0 s : State} {id bounds x3} (hs : Keeps s0 s) :
    Keeps s0 (State.jobAsk s id bounds x3) := by
  fun_induction State.jobAsk s id bounds x3
  all_goals repeat' (with_reducible first
    | refine State.request_keeps ?_ | refine State.describeAnswer_keeps ?_ | split | apply_assumption
    | refine Keeps.upd ?_ rfl rfl rfl rfl)

theorem State.describeStart_keeps {s0 s : State} {j bounds} (hs : Keeps s0 s) :
    Keeps s0 (State.describeStart s j bounds) := by
  unfold State.describeStart
  repeat' (with_reducible first
    | assumption | refine State.jobAsk_keeps ?_ | refine State.request_keeps ?_ | refine State.jobAnswers_keeps ?_ | split
    | refine Keeps.upd ?_ rfl rfl rfl rfl)

theorem State.jobMissing_keeps {s0 s : State} {id dev x3} (hs : Keeps s0 s) :
    Keeps s0 (State.jobMissing s id dev x3) := by
  induction x3 generalizing s id dev with
  | nil => rw [State.jobMissing] <;> repeat' (with_reducible first | refine State.describeAnswer_keeps ?_ | split | apply_assumption)
  | cons y t ih =>
    rw [State.jobMissing]
    repeat' (with_reducible first | refine State.describeAnswer_keeps ?_ | split | apply_assumption)

theorem execDescribeMemberTimeout_keeps {s0 s : State} {job device} (hs : Keeps s0 s) :
    IfNext (Keeps s0) (execDescribeMemberTimeout job device s) := by
  unfold execDescribeMemberTimeout
  repeat' (with_reducible first | assumption | refine IfNext.next ?_ | refine State.jobMissing_keeps ?_ | split)

theorem State.serveDescribe_keeps {s0 s : State} {r} (hs : Keeps s0 s) :
    Keeps s0 (State.serveDescribe s r) := by
  unfold State.serveDescribe
  repeat' (with_reducible first
    | assumption | extract_lets | exact Keeps.refl _ | refine State.reply_keeps ?_ | refine State.describeStart_keeps ?_ | split)

theorem execMioderUnitDescribe_keeps {s0 s : State} {r} (hs : Keeps s0 s) :
    IfNext (Keeps s0) (execMioderUnitDescribe r s) := by
  unfold execMioderUnitDescribe
  repeat' (with_reducible first
    | assumption | refine IfNext.next ?_ | refine State.receive_keeps ?_ | refine State.serveDescribe_keeps ?_ | split
    | refine KeepsL.fst ?_)

theorem State.defineEnsemble_keeps {s0 s : State} {ms tag locked} (hs : Keeps s0 s) :
    IfOk (KeepsR s0) (State.defineEnsemble s ms tag locked) := by
  unfold State.defineEnsemble
  repeat' (with_reducible first
    | assumption | extract_lets | refine IfOk.ok ?_ | exact IfOk.error | refine State.setEnsemble_keeps ?_ | split
    | refine KeepsR.mk ?_)

theorem State.editEnsemble_keeps {s0 s : State} {u add remove} (hs : Keeps s0 s) :
    IfOk (Keeps s0) (State.editEnsemble s u add remove) := by
  unfold State.editEnsemble
  repeat' (with_reducible first
    | assumption | extract_lets | refine IfOk.ok ?_ | exact IfOk.error | refine State.setEnsemble_keeps ?_ | split)

theorem State.deleteEnsemble_keeps {s0 s : State} {u} (hs : Keeps s0 s) :
    IfOk (Keeps s0) (State.deleteEnsemble s u) := by
  unfold State.deleteEnsemble
  repeat' (with_reducible first | assumption | refine IfOk.ok ?_ | exact IfOk.error | split | refine Keeps.upd ?_ rfl rfl rfl rfl)

theorem State.relayAnswer_keeps {s0 s : State} {a id op part st gen b} (hs : Keeps s0 s) :
    Keeps s0 (State.relayAnswer s a id op part st gen b) := by
  unfold State.relayAnswer
  repeat' (with_reducible first | assumption | refine State.respond_keeps ?_ | split | refine Keeps.upd ?_ rfl rfl rfl rfl)

theorem State.restoreAnswer_keeps {s0 s : State} {k seq st} (hs : Keeps s0 s) :
    Keeps s0 (State.restoreAnswer s k seq st) := by
  unfold State.restoreAnswer
  repeat' (with_reducible first | assumption | extract_lets | refine State.setSlot_keeps ?_ | refine State.workEnds_keeps ?_ | split)

theorem State.answerReq_keeps {s0 s : State} {r st gen b} (hs : Keeps s0 s) :
    Keeps s0 (State.answerReq s r st gen b) := by
  unfold State.answerReq
  repeat' (with_reducible first
    | assumption | refine State.answerMsg_keeps ?_ | refine State.modCore_keeps ?_ | refine State.collEnds_keeps ?_
    | refine State.modRun_keeps ?_ | refine State.migAnswer_keeps ?_ | refine State.relayAnswer_keeps ?_
    | refine State.streamAnswer_keeps ?_ | refine State.driveXfer_keeps ?_ | refine State.restoreAnswer_keeps ?_
    | refine State.describeAnswer_keeps ?_ | refine State.chunkPiece_keeps ?_ | refine State.consAnswer_keeps ?_ | split)

theorem State.completeReq_keeps {s0 s : State} {k r st gen b} (hs : Keeps s0 s) :
    Keeps s0 (State.completeReq s k r st gen b) := by
  unfold State.completeReq
  repeat' (with_reducible first | assumption | refine State.answerReq_keeps ?_ | refine State.discardReply_keeps ?_ | split)

theorem execMioderResponse_keeps {s0 s : State} {x} (hs : Keeps s0 s) :
    IfNext (Keeps s0) (execMioderResponse x s) := by
  unfold execMioderResponse
  repeat' (with_reducible first
    | assumption | extract_lets | refine IfNext.next ?_ | refine State.pump_keeps ?_ | refine State.receive_keeps ?_
    | refine State.completeReq_keeps ?_ | refine State.setAssoc_keeps ?_ | refine KeepsL.get (by assumption) ?_ | split)

theorem State.endReqs_keeps {s0 s : State} {x1 x2} (hs : Keeps s0 s) :
    Keeps s0 (State.endReqs s x1 x2) := by
  induction x2 generalizing s x1 with
  | nil => rw [State.endReqs] <;> repeat' (with_reducible first | refine State.answerReq_keeps ?_ | split | apply_assumption)
  | cons y t ih =>
    rw [State.endReqs]
    repeat' (with_reducible first | refine State.answerReq_keeps ?_ | split | apply_assumption)

theorem State.migPeerLost_keeps {s0 s : State} {dev} (hs : Keeps s0 s) :
    Keeps s0 (State.migPeerLost s dev) := by
  unfold State.migPeerLost
  repeat' (with_reducible first | assumption | extract_lets | refine State.migFail_keeps ?_ | split)

theorem State.assocLost_keeps {s0 s : State} {a} (hs : Keeps s0 s) :
    Keeps s0 (State.assocLost s a) := by
  unfold State.assocLost
  repeat' (with_reducible first
    | assumption | refine State.collsResume_keeps ?_ | refine State.migPeerLost_keeps ?_ | refine State.collsAssocDown_keeps ?_
    | refine State.endReqs_keeps ?_)

theorem State.assocDown_keeps {s0 s : State} {k} (hs : Keeps s0 s) :
    Keeps s0 (State.assocDown s k) := by
  unfold State.assocDown
  repeat' (with_reducible first
    | assumption | extract_lets | refine State.link_keeps ?_ | refine State.assocLost_keeps ?_ | refine State.setAssoc_keeps ?_
    | split)

theorem execAssocTimeout_keeps {s0 s : State} {a} (hs : Keeps s0 s) :
    IfNext (Keeps s0) (execAssocTimeout a s) := by
  unfold execAssocTimeout
  repeat' (with_reducible first | assumption | refine IfNext.next ?_ | refine State.assocDown_keeps ?_)

theorem State.assocsDown_keeps {s0 s : State} {p x2} (hs : Keeps s0 s) :
    Keeps s0 (State.assocsDown s p x2) := by
  induction x2 generalizing s p with
  | nil => rw [State.assocsDown] <;> repeat' (with_reducible first | refine State.assocDown_keeps ?_ | split | apply_assumption)
  | cons y t ih =>
    rw [State.assocsDown]
    repeat' (with_reducible first | refine State.assocDown_keeps ?_ | split | apply_assumption)

theorem State.replyOld_keeps {s0 s : State} {c r} (hs : Keeps s0 s) :
    Keeps s0 (State.replyOld s c r) := by
  unfold State.replyOld
  repeat' (with_reducible first
    | assumption | extract_lets | refine State.answerMsg_keeps ?_ | refine State.modCore_keeps ?_ | refine State.rootCueEnds_keeps ?_
    | refine State.discardReply_keeps ?_ | split)

theorem execReplyDiscarded_keeps {s0 s : State} {c r} (hs : Keeps s0 s) :
    IfNext (Keeps s0) (execReplyDiscarded c r s) := by
  unfold execReplyDiscarded
  repeat' (with_reducible first | assumption | refine IfNext.next ?_ | refine State.replyOld_keeps ?_ | split)

theorem State.secNotice_keeps {s0 s : State} {i} (hs : Keeps s0 s) :
    Keeps s0 (State.secNotice s i) := hs.upd rfl rfl rfl rfl

theorem State.measure_keeps {s0 s : State} (hs : Keeps s0 s) :
    Keeps s0 (State.measure s) := hs.upd rfl rfl rfl rfl

theorem State.dropSlot_keeps {s0 s : State} {k} (hs : Keeps s0 s) :
    Keeps s0 (State.dropSlot s k) := hs.upd rfl rfl rfl rfl

theorem State.claim_keeps {s0 s : State} {k h2 op nq w} (hs : Keeps s0 s) :
    Keeps s0 (State.claim s k h2 op nq w) := hs.upd rfl rfl rfl rfl

theorem State.slotEnds_keeps {s0 s : State} {k st fs} (hs : Keeps s0 s) :
    Keeps s0 (State.slotEnds s k st fs) := by
  unfold State.slotEnds
  repeat' (with_reducible first
    | assumption | extract_lets | refine State.setSlot_keeps ?_ | refine State.raise_keeps ?_ | refine State.dropSlot_keeps ?_ | split)

theorem execResultSlotExpire_keeps {s0 s : State} {k} (hs : Keeps s0 s) :
    IfNext (Keeps s0) (execResultSlotExpire k s) := by
  unfold execResultSlotExpire
  repeat' (with_reducible first
    | assumption | refine IfNext.next ?_ | refine State.dropSlot_keeps ?_ | split | refine Keeps.upd ?_ rfl rfl rfl rfl)

theorem State.closeSession_keeps {s0 s : State} {n} (hs : Keeps s0 s) : Keeps s0 (State.closeSession s n) := by
  unfold State.closeSession
  split
  · exact hs
  · extract_lets c u
    have hu : Keeps s0 u := hs.trans ⟨rfl, id, rfl, rfl, rfl, fun x => ⟨x, List.prefix_rfl⟩, Nat.le_refl _, List.prefix_rfl, id,
      fun x => Nat.le_trans (List.length_filter_le _ _) x⟩
    clear_value u
    split
    · exact State.assocsDown_keeps hu
    · exact hu

theorem State.closeSessions_keeps {s0 s : State} {x1} (hs : Keeps s0 s) :
    Keeps s0 (State.closeSessions s x1) := by
  fun_induction State.closeSessions s x1
  all_goals repeat' (with_reducible first | refine State.closeSession_keeps ?_ | apply_assumption)

theorem execSessionIdleTimeout_keeps {s0 s : State} {n} (hs : Keeps s0 s) :
    IfNext (Keeps s0) (execSessionIdleTimeout n s) := by
  unfold execSessionIdleTimeout
  repeat' (with_reducible first | assumption | refine IfNext.next ?_ | refine State.closeSession_keeps ?_)

theorem execSessionCounterClose_keeps {s0 s : State} {n} (hs : Keeps s0 s) :
    IfNext (Keeps s0) (execSessionCounterClose n s) := by
  unfold execSessionCounterClose
  repeat' (with_reducible first | assumption | refine IfNext.next ?_ | refine State.closeSession_keeps ?_)

theorem State.credWrite_keeps {s0 s : State} {e c event} (hs : Keeps s0 s) :
    Keeps s0 (State.credWrite s e c event) := hs.upd rfl rfl rfl rfl

theorem State.credStatus_keeps {s0 s : State} {st} (hs : Keeps s0 s) :
    Keeps s0 (State.credStatus s st) := hs.upd rfl rfl rfl rfl

theorem State.credApply_keeps {s0 s : State} {n} (hs : Keeps s0 s) :
    Keeps s0 (State.credApply s n) := by
  unfold State.credApply
  repeat' (with_reducible first
    | assumption | extract_lets | refine State.credWrite_keeps ?_ | refine State.credStatus_keeps ?_ | split)

theorem State.credGo_keeps {s0 s : State} {n v} (hs : Keeps s0 s) :
    Keeps s0 (State.credGo s n v) := by
  unfold State.credGo
  repeat' (with_reducible first | assumption | refine State.credApply_keeps ?_ | refine Keeps.upd ?_ rfl rfl rfl rfl)

theorem State.ownerRelease_keeps {s0 s : State} {n} (hs : Keeps s0 s) :
    Keeps s0 (State.ownerRelease s n) := by
  unfold State.ownerRelease
  repeat' (with_reducible first
    | assumption | refine State.secNotice_keeps ?_ | refine State.closeSessions_keeps ?_ | refine State.measure_keeps ?_
    | refine State.credStatus_keeps ?_ | split | refine Keeps.upd ?_ rfl rfl rfl rfl)

end Sys2Proof.Machine
end

