-- ==== Sys2Proof/Laws/KeepsRegs.lean ====
section
/-! SUPPORT. What the operations of Regs leave alone: each keeps the
relation Keeps to an earlier state, whatever its operands. -/

namespace Sys2Proof.Machine

theorem State.regCount_keeps {s0 s : State} {a e} (hs : Keeps s0 s) :
    Keeps s0 (State.regCount s a e) := by
  unfold State.regCount
  repeat' (with_reducible first | assumption | refine State.doorCount_keeps ?_ | split)

theorem State.curatorClear_keeps {s0 s : State} {off} (hs : Keeps s0 s) :
    Keeps s0 (State.curatorClear s off) := by
  unfold State.curatorClear
  repeat' (with_reducible first | assumption | refine State.modNq_keeps ?_ | split | refine Keeps.upd ?_ rfl rfl rfl rfl)

theorem State.mioderClear_keeps {s0 s : State} {off} (hs : Keeps s0 s) :
    Keeps s0 (State.mioderClear s off) := by
  unfold State.mioderClear
  repeat' (with_reducible first | assumption | split | refine Keeps.upd ?_ rfl rfl rfl rfl)

theorem State.stageClear_keeps {s0 s : State} {st off} (hs : Keeps s0 s) :
    Keeps s0 (State.stageClear s st off) := by
  unfold State.stageClear
  repeat' (with_reducible first | assumption | refine State.modStage_keeps ?_ | refine State.modDie_keeps ?_ | split)

theorem State.regClear_keeps {s0 s : State} {b off} (hs : Keeps s0 s) :
    Keeps s0 (State.regClear s b off) := by
  unfold State.regClear
  repeat' (with_reducible first
    | assumption | refine State.modPort_keeps ?_ | refine State.modGroup_keeps ?_ | refine State.mioderClear_keeps ?_
    | refine State.modTroupe_keeps ?_ | refine State.modCore_keeps ?_ | refine State.modEngine_keeps ?_
    | refine State.stageClear_keeps ?_ | refine State.modCon_keeps ?_ | refine State.curatorClear_keeps ?_ | split
    | refine Keeps.upd ?_ rfl rfl rfl rfl)

theorem State.regRead_keeps {s0 s : State} {a} (hs : Keeps s0 s) :
    Both (KeepsR s0) (KeepsR s0) (State.regRead s a) := by
  unfold State.regRead
  repeat' (with_reducible first
    | assumption | refine Both.ok ?_ | refine Both.error ?_ | refine State.regCount_keeps ?_ | refine State.regClear_keeps ?_ | split
    | refine KeepsR.mk ?_)

theorem State.coreStore_keeps {s0 s : State} {c off v} (hs : Keeps s0 s) :
    Keeps s0 (State.coreStore s c off v) := by
  unfold State.coreStore
  repeat' (with_reducible first
    | assumption | refine State.inject_keeps ?_ | refine State.strPump_keeps ?_ | refine State.setCore_keeps ?_ | split)

theorem State.troupeStore_keeps {s0 s : State} {t off v} (hs : Keeps s0 s) :
    Keeps s0 (State.troupeStore s t off v) := by
  unfold State.troupeStore
  repeat' (with_reducible first | assumption | refine State.modTroupe_keeps ?_ | split)

theorem State.mioderStore_keeps {s0 s : State} {off v} (hs : Keeps s0 s) :
    Keeps s0 (State.mioderStore s off v) := by
  unfold State.mioderStore
  repeat' (with_reducible first | assumption | split | refine Keeps.upd ?_ rfl rfl rfl rfl)

theorem State.credCtl_keeps {s0 s : State} {who v} (hs : Keeps s0 s) :
    Keeps s0 (State.credCtl s who v) := by
  unfold State.credCtl
  repeat' (with_reducible first
    | assumption | refine State.ownerRelease_keeps ?_ | refine State.credGo_keeps ?_ | refine State.credStatus_keeps ?_ | split
    | refine Keeps.upd ?_ rfl rfl rfl rfl)

theorem State.securityStore_keeps {s0 s : State} {who off v} (hs : Keeps s0 s) :
    Keeps s0 (State.securityStore s who off v) := by
  unfold State.securityStore
  repeat' (with_reducible first
    | assumption | extract_lets | exact Keeps.refl _ | refine State.credCtl_keeps ?_ | split | refine Keeps.upd ?_ rfl rfl rfl rfl)

theorem State.regStore_keeps {s0 s : State} {who b off v} (hs : Keeps s0 s) :
    Keeps s0 (State.regStore s who b off v) := by
  unfold State.regStore
  repeat' (with_reducible first
    | assumption | refine State.modGroup_keeps ?_ | refine State.mioderStore_keeps ?_ | refine State.modEngine_keeps ?_
    | refine State.coreStore_keeps ?_ | refine State.modCon_keeps ?_ | refine State.securityStore_keeps ?_
    | refine State.troupeStore_keeps ?_ | refine State.nqRegWrite_keeps ?_ | split | refine Keeps.upd ?_ rfl rfl rfl rfl)

theorem State.regWriteTo_keeps {s0 s : State} {who a v} (hs : Keeps s0 s) :
    Both (KeepsR s0) (Keeps s0) (State.regWriteTo s who a v) := by
  unfold State.regWriteTo
  repeat' (with_reducible first
    | assumption | refine Both.ok ?_ | refine Both.error ?_ | refine State.regCount_keeps ?_ | refine State.regStore_keeps ?_ | split
    | refine KeepsR.mk ?_)

theorem execRegisterWrite_keeps {s0 s : State} {a v} (hs : Keeps s0 s) : IfNext (Keeps s0) (execRegisterWrite a v s) := by
  unfold execRegisterWrite
  split
  · exact IfNext.next (State.hold_keeps hs)
  · have h := State.regWriteTo_keeps (who := none) (a := a.toNat) (v := v) hs
    split
    · rename_i e
      exact IfNext.next (h.1 _ e)
    · rename_i e
      exact IfNext.next (h.2 _ e)

theorem execRegisterReadClear_keeps {s0 s : State} {a} (hs : Keeps s0 s) : IfNext (Keeps s0) (execRegisterReadClear a s) := by
  unfold execRegisterReadClear
  split
  · exact IfNext.next (State.hold_keeps hs)
  · have h := State.regRead_keeps (a := a.toNat) hs
    split
    · rename_i e
      exact IfNext.next (h.1 _ e)
    · rename_i e
      exact IfNext.next (h.2 _ e)

theorem execCredGo_keeps {s0 s : State} {n v} (hs : Keeps s0 s) :
    IfNext (Keeps s0) (execCredGo n v s) := by
  unfold execCredGo
  repeat' (with_reducible first | assumption | refine IfNext.next ?_ | refine State.credGo_keeps ?_ | split)

theorem execOwnerRelease_keeps {s0 s : State} {n} (hs : Keeps s0 s) :
    IfNext (Keeps s0) (execOwnerRelease n s) := by
  unfold execOwnerRelease
  repeat' (with_reducible first | assumption | refine IfNext.next ?_ | refine State.ownerRelease_keeps ?_)

theorem State.forceRing_keeps {s0 s : State} {c ch v} (hs : Keeps s0 s) :
    Keeps s0 (State.forceRing s c ch v) := hs.upd rfl rfl rfl rfl

theorem State.coreForce_keeps {s0 s : State} {c off v} (hs : Keeps s0 s) :
    Keeps s0 (State.coreForce s c off v) := by
  unfold State.coreForce
  repeat' (with_reducible first
    | assumption | refine State.coreStore_keeps ?_ | refine State.setCore_keeps ?_ | refine State.forceRing_keeps ?_ | split)

theorem State.troupeForce_keeps {s0 s : State} {t off v} (hs : Keeps s0 s) :
    Keeps s0 (State.troupeForce s t off v) := by
  unfold State.troupeForce
  repeat' (with_reducible first
    | assumption | refine State.entropyPasses_keeps ?_ | refine State.modTroupe_keeps ?_ | refine State.entropyFails_keeps ?_
    | refine State.troupeStore_keeps ?_ | split)

theorem State.regForceTo_keeps {s0 s : State} {who a v} (hs : Keeps s0 s) :
    Both (KeepsR s0) (Keeps s0) (State.regForceTo s who a v) := by
  unfold State.regForceTo
  repeat' (with_reducible first
    | assumption | exact Keeps.refl _ | refine Both.ok ?_ | refine Both.error ?_ | refine State.coreForce_keeps ?_
    | refine State.regCount_keeps ?_ | refine State.regStore_keeps ?_ | refine State.troupeForce_keeps ?_ | split
    | refine KeepsR.mk ?_)

theorem State.serveReg_keeps {s0 s : State} {op r a} (hs : Keeps s0 s) : KeepsR3 s0 (State.serveReg s op r a) := by
  unfold State.serveReg
  split
  · have h := State.regRead_keeps (a := a) hs
    split
    · rename_i e
      exact h.1 _ e
    · rename_i e
      exact h.2 _ e
  · split
    · exact hs
    · have h := State.regWriteTo_keeps (who := none) (a := a) (v := BitVec.ofNat 64 (ofLe r.data)) hs
      split
      · rename_i e
        exact h.1 _ e
      · rename_i e
        exact h.2 _ e

theorem State.serveRegister_keeps {s0 s : State} {op r} (hs : Keeps s0 s) : Keeps s0 (State.serveRegister s op r) := by
  unfold State.serveRegister
  split
  · exact State.reply_keeps hs
  · split
    · exact State.reply_keeps hs
    · split
      · rename_i a _
        have h : KeepsR3 s0 (s.serveReg op r a) := State.serveReg_keeps hs
        exact State.reply_keeps h
      · exact State.reply_keeps hs
      · exact hs
      · exact State.request_keeps hs

theorem State.mioRegister_keeps {s0 s : State} {op r i} (hs : Keeps s0 s) :
    Keeps s0 (State.mioRegister s op r i) := by
  unfold State.mioRegister
  repeat' (with_reducible first
    | assumption | refine State.receive_keeps ?_ | refine State.migHold_keeps ?_ | refine State.hold_keeps ?_
    | refine State.serveRegister_keeps ?_ | refine KeepsL.get (by assumption) ?_ | split | refine Keeps.upd ?_ rfl rfl rfl rfl)

theorem execMioderRegRead_keeps {s0 s : State} {r} (hs : Keeps s0 s) :
    IfNext (Keeps s0) (execMioderRegRead r s) := by
  unfold execMioderRegRead
  repeat' (with_reducible first | assumption | extract_lets | refine IfNext.next ?_ | refine State.mioRegister_keeps ?_)

theorem execMioderRegWrite_keeps {s0 s : State} {r} (hs : Keeps s0 s) :
    IfNext (Keeps s0) (execMioderRegWrite r s) := by
  unfold execMioderRegWrite
  repeat' (with_reducible first | assumption | extract_lets | refine IfNext.next ?_ | refine State.mioRegister_keeps ?_)

end Sys2Proof.Machine
end

