-- ==== Sys2Proof/Laws/KeepsCommands.lean ====
section
/-! SUPPORT. What the operations of Commands, Jobs, FabricCmds leave alone: each keeps the
relation Keeps to an earlier state, whatever its operands. -/

namespace Sys2Proof.Machine

theorem State.modSession_keeps {s0 s : State} {n f} (hs : Keeps s0 s) : Keeps s0 (State.modSession s n f) :=
  hs.trans ⟨rfl, id, rfl, rfl, rfl, fun x => ⟨x, List.prefix_rfl⟩, Nat.le_refl _, List.prefix_rfl, id,
    fun x => Nat.le_trans (Nat.le_of_eq (List.length_map _)) x⟩

theorem State.sendReply_keeps {s0 s : State} {lane r} (hs : Keeps s0 s) :
    Keeps s0 (State.sendReply s lane r) := by
  unfold State.sendReply
  repeat' (with_reducible first
    | assumption | refine State.modSession_keeps ?_ | refine Keeps.push ?_ rfl rfl rfl rfl (by with_unfolding_all rfl))

theorem State.keepReply_keeps {s0 s : State} {n k} (hs : Keeps s0 s) :
    Keeps s0 (State.keepReply s n k) := by
  unfold State.keepReply
  repeat' (with_reducible first | assumption | refine State.modSession_keeps ?_)

theorem State.waitAt_keeps {s0 s : State} {c n i} (hs : Keeps s0 s) :
    Keeps s0 (State.waitAt s c n i) := by
  unfold State.waitAt
  repeat' (with_reducible first | assumption | refine State.hold_keeps ?_ | split | refine Keeps.upd ?_ rfl rfl rfl rfl)

theorem State.perform_keeps {s0 s : State} {act : State → State × Ans} {h1 key op} (hs : Keeps s0 s) (kact : ∀ y0, Keeps s0 y0 → KeepsL s0 (act y0)) :
    Keeps s0 (State.perform s h1 key op act) := by
  unfold State.perform
  repeat' (with_reducible first | refine State.sendReply_keeps ?_ | refine State.keepReply_keeps ?_ | apply_assumption)

theorem State.refuse_keeps {s0 s : State} {h1 op st} (hs : Keeps s0 s) :
    Keeps s0 (State.refuse s h1 op st) := by
  unfold State.refuse
  repeat' (with_reducible first | assumption | refine State.sendReply_keeps ?_)

theorem State.serve_keeps {s0 s : State} {door : State → Option Nat} {act : State → State × Ans} {h1 mk op} (hs : Keeps s0 s) (kact : ∀ y0, Keeps s0 y0 → KeepsL s0 (act y0)) :
    Keeps s0 (State.serve s h1 mk op door act) := by
  unfold State.serve
  repeat' (with_reducible first
    | extract_lets | refine State.refuse_keeps ?_ | refine State.sendReply_keeps ?_ | refine State.perform_keeps ?_ ?_
    | refine State.waitAt_keeps ?_ | split | (intro _) | apply_assumption)

theorem State.arriveCmd_keeps {s0 s : State} {go : State → State} {h1 i} (hs : Keeps s0 s) (kgo : ∀ y0, Keeps s0 y0 → Keeps s0 (go y0)) :
    Keeps s0 (State.arriveCmd s h1 i go) := by
  unfold State.arriveCmd
  repeat' (with_reducible first | extract_lets | refine State.waitAt_keeps ?_ | split | apply_assumption)

theorem State.command_keeps {s0 s : State} {act : State → State × Ans} {h1 mk op} (hs : Keeps s0 s) (kact : ∀ y0, Keeps s0 y0 → KeepsL s0 (act y0)) :
    Keeps s0 (State.command s h1 mk op act) := by
  unfold State.command
  repeat' (with_reducible first
    | assumption | extract_lets | exact Keeps.refl _ | refine State.serve_keeps ?_ ?_ | refine State.arriveCmd_keeps ?_ ?_ | split
    | (intro _))

theorem State.doorCommand_keeps {s0 s : State} {door : State → Option Nat} {act : State → State × Ans} {h1 mk op} (hs : Keeps s0 s) (kact : ∀ y0, Keeps s0 y0 → KeepsL s0 (act y0)) :
    Keeps s0 (State.doorCommand s h1 mk op door act) := by
  unfold State.doorCommand
  repeat' (with_reducible first
    | assumption | extract_lets | exact Keeps.refl _ | refine State.serve_keeps ?_ ?_ | refine State.arriveCmd_keeps ?_ ?_ | split
    | (intro _))

theorem answer_keeps {s0 s : State} {α : Type} {r : Except Status α} {ok} (hs : Keeps s0 s) (kok : ∀ y, r = .ok y → KeepsL s0 (ok y)) :
    KeepsL s0 (answer s r ok) := by
  unfold answer
  split
  · exact hs
  · exact kok _ rfl

theorem answerState_keeps {s0 s : State} {r} (hs : Keeps s0 s) (hr : IfOk (Keeps s0) r) : KeepsL s0 (answerState s r) :=
  answer_keeps hs fun y h => hr y h

theorem refused_keeps {s0 s : State} {st} (hs : Keeps s0 s) :
    KeepsL s0 (refused s st) := hs.upd rfl rfl rfl rfl

theorem State.async_keeps {s0 s : State} {h0 op nq go} (hs : Keeps s0 s) (kgo : ∀ y0 y1, Keeps s0 y0 → IfOk (KeepsL s0) (go y0 y1)) :
    KeepsL s0 (State.async s h0 op nq go) := by
  unfold State.async
  split
  · exact hs
  · split
    · exact hs
    · split
      · exact hs
      · rename_i e
        exact KeepsL.mk (State.claim_keeps (IfOk.getL e (kgo _ _ hs)))

theorem State.cmdDrop_keeps {s0 s : State} (hs : Keeps s0 s) :
    Keeps s0 (State.cmdDrop s) := hs.upd rfl rfl rfl rfl

theorem execCommandPacketRejected_keeps {s0 s : State} {h0 op why} (hs : Keeps s0 s) :
    IfNext (Keeps s0) (execCommandPacketRejected h0 op why s) := by
  unfold execCommandPacketRejected
  repeat' (with_reducible first
    | assumption | refine IfNext.next ?_ | refine State.serve_keeps ?_ ?_ | refine State.refuse_keeps ?_
    | refine State.sendReply_keeps ?_ | refine State.cmdDrop_keeps ?_ | refine State.perform_keeps ?_ ?_ | refine refused_keeps ?_
    | refine State.arriveCmd_keeps ?_ ?_ | refine KeepsL.get (by assumption) ?_ | split | (intro _)
    | refine Keeps.push ?_ rfl rfl rfl rfl (by with_unfolding_all rfl))

theorem execCmdFragmentTimeout_keeps {s0 s : State} {x} (hs : Keeps s0 s) :
    IfNext (Keeps s0) (execCmdFragmentTimeout x s) := by
  unfold execCmdFragmentTimeout
  repeat' (with_reducible first | assumption | refine IfNext.next ?_ | refine State.cmdDrop_keeps ?_ | split)

theorem execDiscover_keeps {s0 s : State} {h0} (hs : Keeps s0 s) :
    IfNext (Keeps s0) (execDiscover h0 s) := by
  unfold execDiscover
  repeat' (with_reducible first
    | assumption | refine IfNext.next ?_ | refine State.command_keeps ?_ ?_ | (intro _) | refine KeepsL.mk ?_)

theorem execInventory_keeps {s0 s : State} {h0} (hs : Keeps s0 s) :
    IfNext (Keeps s0) (execInventory h0 s) := by
  unfold execInventory
  repeat' (with_reducible first
    | assumption | refine IfNext.next ?_ | refine State.command_keeps ?_ ?_ | (intro _) | refine KeepsL.mk ?_)

theorem execUnitDescribe_keeps {s0 s : State} {h0 u} (hs : Keeps s0 s) :
    IfNext (Keeps s0) (execUnitDescribe h0 u s) := by
  unfold execUnitDescribe
  repeat' (with_reducible first
    | assumption | refine IfNext.next ?_ | refine State.describeStart_keeps ?_ | refine State.command_keeps ?_ ?_
    | refine State.claim_keeps ?_ | refine refused_keeps ?_ | split | (intro _) | refine KeepsL.mk ?_)

theorem execEnsembleDefine_keeps {s0 s : State} {h0 ms tag} (hs : Keeps s0 s) :
    IfNext (Keeps s0) (execEnsembleDefine h0 ms tag s) := by
  unfold execEnsembleDefine
  repeat' (with_reducible first
    | assumption | refine IfNext.next ?_ | refine State.command_keeps ?_ ?_ | refine answer_keeps ?_ ?_
    | refine State.defineEnsemble_keeps ?_ | refine IfOk.getR (by assumption) ?_ | (intro _) | refine KeepsL.mk ?_)

theorem execEnsembleEdit_keeps {s0 s : State} {h0 u ms remove} (hs : Keeps s0 s) :
    IfNext (Keeps s0) (execEnsembleEdit h0 u ms remove s) := by
  unfold execEnsembleEdit
  repeat' (with_reducible first
    | assumption | refine IfNext.next ?_ | refine State.command_keeps ?_ ?_ | refine answerState_keeps ?_ ?_
    | refine State.editEnsemble_keeps ?_ | (intro _))

theorem execEnsembleDelete_keeps {s0 s : State} {h0 u} (hs : Keeps s0 s) :
    IfNext (Keeps s0) (execEnsembleDelete h0 u s) := by
  unfold execEnsembleDelete
  repeat' (with_reducible first
    | assumption | refine IfNext.next ?_ | refine State.command_keeps ?_ ?_ | refine answerState_keeps ?_ ?_
    | refine State.deleteEnsemble_keeps ?_ | (intro _))

theorem execMemRead_keeps {s0 s : State} {h0 a n} (hs : Keeps s0 s) :
    IfNext (Keeps s0) (execMemRead h0 a n s) := by
  unfold execMemRead
  repeat' (with_reducible first
    | assumption | refine IfNext.next ?_ | refine State.doorCommand_keeps ?_ ?_ | refine refused_keeps ?_
    | refine State.countRead_keeps ?_ | split | (intro _) | refine KeepsL.mk ?_)

theorem execMemWrite_keeps {s0 s : State} {h0 a b} (hs : Keeps s0 s) :
    IfNext (Keeps s0) (execMemWrite h0 a b s) := by
  unfold execMemWrite
  repeat' (with_reducible first
    | assumption | refine IfNext.next ?_ | refine State.writeMem_keeps ?_ | refine State.doorCommand_keeps ?_ ?_
    | refine refused_keeps ?_ | refine State.countWrite_keeps ?_ | refine IfOk.get (by assumption) ?_ | split | (intro _)
    | refine KeepsL.mk ?_)

theorem execMemFill_keeps {s0 s : State} {h0 a n v nq} (hs : Keeps s0 s) :
    IfNext (Keeps s0) (execMemFill h0 a n v nq s) := by
  unfold execMemFill
  repeat' (with_reducible first
    | assumption | refine IfOk.ok ?_ | exact IfOk.error | refine IfNext.next ?_ | refine State.command_keeps ?_ ?_
    | refine State.async_keeps ?_ ?_ | split | (intro _) | refine KeepsL.mk ?_)

theorem execRegRead_keeps {s0 s : State} {h0 a} (hs : Keeps s0 s) : IfNext (Keeps s0) (execRegRead h0 a s) := by
  refine IfNext.next (State.doorCommand_keeps hs fun s h => ?_)
  have k := State.regRead_keeps (a := a.toNat) h
  split
  · rename_i e
    exact k.1 _ e
  · rename_i e
    exact k.2 _ e

theorem execRegWrite_keeps {s0 s : State} {h0 a v} (hs : Keeps s0 s) : IfNext (Keeps s0) (execRegWrite h0 a v s) := by
  refine IfNext.next (State.doorCommand_keeps hs fun s h => ?_)
  have k := State.regWriteTo_keeps (who := some h0.session) (a := a.toNat) (v := v) h
  split
  · rename_i e
    exact k.1 _ e
  · rename_i e
    exact k.2 _ e

theorem execRehearsalEnter_keeps {s0 s : State} {h0} (hs : Keeps s0 s) :
    IfNext (Keeps s0) (execRehearsalEnter h0 s) := by
  unfold execRehearsalEnter
  repeat' (with_reducible first
    | assumption | refine IfNext.next ?_ | refine State.command_keeps ?_ ?_ | refine State.measure_keeps ?_ | refine refused_keeps ?_
    | split | (intro _) | refine KeepsL.mk ?_ | refine Keeps.upd ?_ rfl rfl rfl rfl)

theorem State.leaveRehearsal_keeps {s0 s : State} (hs : Keeps s0 s) :
    Keeps s0 (State.leaveRehearsal s) := hs.upd rfl rfl rfl rfl

theorem execRehearsalLeave_keeps {s0 s : State} {h0} (hs : Keeps s0 s) :
    IfNext (Keeps s0) (execRehearsalLeave h0 s) := by
  unfold execRehearsalLeave
  repeat' (with_reducible first
    | assumption | refine IfNext.next ?_ | refine State.command_keeps ?_ ?_ | refine State.leaveRehearsal_keeps ?_
    | refine State.measure_keeps ?_ | refine refused_keeps ?_ | split | (intro _) | refine KeepsL.mk ?_)

theorem execAccumRead_keeps {s0 s : State} {h0 u k} (hs : Keeps s0 s) :
    IfNext (Keeps s0) (execAccumRead h0 u k s) := by
  unfold execAccumRead
  repeat' (with_reducible first
    | assumption | extract_lets | refine IfNext.next ?_ | refine State.doorCommand_keeps ?_ ?_ | refine refused_keeps ?_
    | refine State.doorCount_keeps ?_ | split | (intro _) | refine KeepsL.mk ?_)

theorem execRegForce_keeps {s0 s : State} {h0 a v} (hs : Keeps s0 s) : IfNext (Keeps s0) (execRegForce h0 a v s) := by
  refine IfNext.next (State.doorCommand_keeps hs fun s h => ?_)
  split
  · exact h
  · have k := State.regForceTo_keeps (who := h0.session) (a := a.toNat) (v := v) h
    split
    · rename_i e
      exact k.1 _ e
    · rename_i e
      exact k.2 _ e

theorem execNqConfigure_keeps {s0 s : State} {h0 k v} (hs : Keeps s0 s) :
    IfNext (Keeps s0) (execNqConfigure h0 k v s) := by
  unfold execNqConfigure
  repeat' (with_reducible first
    | assumption | refine IfNext.next ?_ | refine State.command_keeps ?_ ?_ | refine State.nqRegWrite_keeps ?_
    | refine refused_keeps ?_ | split | (intro _) | refine KeepsL.mk ?_)

theorem State.nqCount_keeps {s0 s : State} {q n} (hs : Keeps s0 s) :
    Keeps s0 (State.nqCount s q n) := by
  unfold State.nqCount
  repeat' (with_reducible first | assumption | refine State.countFirst_keeps ?_)

theorem execNqRead_keeps {s0 s : State} {h0 k n} (hs : Keeps s0 s) :
    IfNext (Keeps s0) (execNqRead h0 k n s) := by
  unfold execNqRead
  repeat' (with_reducible first
    | assumption | refine IfNext.next ?_ | refine State.command_keeps ?_ ?_ | refine State.nqCount_keeps ?_ | refine refused_keeps ?_
    | split | (intro _) | refine KeepsL.mk ?_)

theorem execNqAdvance_keeps {s0 s : State} {h0 k v} (hs : Keeps s0 s) :
    IfNext (Keeps s0) (execNqAdvance h0 k v s) := by
  unfold execNqAdvance
  repeat' (with_reducible first
    | assumption | refine IfNext.next ?_ | refine State.command_keeps ?_ ?_ | refine State.nqRegWrite_keeps ?_
    | refine refused_keeps ?_ | split | (intro _) | refine KeepsL.mk ?_)

theorem execNqFlushCmd_keeps {s0 s : State} {h0 k} (hs : Keeps s0 s) :
    IfNext (Keeps s0) (execNqFlushCmd h0 k s) := by
  unfold execNqFlushCmd
  repeat' (with_reducible first
    | assumption | refine IfNext.next ?_ | refine State.command_keeps ?_ ?_ | refine State.nqRegWrite_keeps ?_
    | refine refused_keeps ?_ | split | (intro _) | refine KeepsL.mk ?_)

theorem execNqAnnounce_keeps {s0 s : State} {h0 k a} (hs : Keeps s0 s) :
    IfNext (Keeps s0) (execNqAnnounce h0 k a s) := by
  unfold execNqAnnounce
  repeat' (with_reducible first
    | assumption | refine IfNext.next ?_ | refine State.command_keeps ?_ ?_ | refine State.nqRegWrite_keeps ?_
    | refine refused_keeps ?_ | split | (intro _) | refine KeepsL.mk ?_)

theorem execResultRead_keeps {s0 s : State} {h0 k seq} (hs : Keeps s0 s) :
    IfNext (Keeps s0) (execResultRead h0 k seq s) := by
  unfold execResultRead
  repeat' (with_reducible first
    | assumption | refine IfNext.next ?_ | refine State.command_keeps ?_ ?_ | refine State.setSlot_keeps ?_ | refine refused_keeps ?_
    | split | (intro _) | refine KeepsL.mk ?_)

theorem execResultRelease_keeps {s0 s : State} {h0 k seq} (hs : Keeps s0 s) :
    IfNext (Keeps s0) (execResultRelease h0 k seq s) := by
  unfold execResultRelease
  repeat' (with_reducible first
    | assumption | refine IfNext.next ?_ | refine State.command_keeps ?_ ?_ | refine State.setSlot_keeps ?_ | refine refused_keeps ?_
    | refine State.dropSlot_keeps ?_ | split | (intro _) | refine KeepsL.mk ?_)

theorem collIndex_keeps {α : Type} {P : α → Prop} {k f} (kf : ∀ i, IfOk P (f i)) : IfOk P (collIndex k f) := by
  unfold collIndex
  split
  · exact IfOk.error
  · exact kf _

theorem State.shardLoad_keeps {s0 s : State} {n a} (hs : Keeps s0 s) :
    IfOk (KeepsR s0) (State.shardLoad s n a) := by
  unfold State.shardLoad
  repeat' (with_reducible first
    | assumption | refine IfOk.ok ?_ | exact IfOk.error | refine State.modShard_keeps ?_ | split | refine KeepsR.mk ?_
    | refine Keeps.upd ?_ rfl rfl rfl rfl)

theorem State.shardEmpty_keeps {s0 s : State} {n i} (hs : Keeps s0 s) :
    Keeps s0 (State.shardEmpty s n i) := hs.upd rfl rfl rfl rfl

theorem State.shardUnload_keeps {s0 s : State} {n i} (hs : Keeps s0 s) :
    IfOk (Keeps s0) (State.shardUnload s n i) := by
  unfold State.shardUnload
  repeat' (with_reducible first | assumption | refine IfOk.ok ?_ | exact IfOk.error | refine State.shardEmpty_keeps ?_ | split)

theorem State.shardResume_keeps {s0 s : State} {n i discard} (hs : Keeps s0 s) :
    IfOk (Keeps s0) (State.shardResume s n i discard) := by
  unfold State.shardResume
  repeat' (with_reducible first
    | assumption | refine IfOk.ok ?_ | exact IfOk.error | refine State.modShard_keeps ?_ | refine State.recSet_keeps ?_ | split)

theorem State.shardCompare_keeps {s0 s : State} {n i} (hs : Keeps s0 s) :
    IfOk (Keeps s0) (State.shardCompare s n i) := by
  unfold State.shardCompare
  repeat' (with_reducible first | assumption | refine IfOk.ok ?_ | exact IfOk.error | refine State.modShard_keeps ?_ | split)

theorem execShardLoad_keeps {s0 s : State} {h0 n a} (hs : Keeps s0 s) :
    IfNext (Keeps s0) (execShardLoad h0 n a s) := by
  unfold execShardLoad
  repeat' (with_reducible first
    | assumption | refine IfNext.next ?_ | refine State.command_keeps ?_ ?_ | refine answer_keeps ?_ ?_ | refine refused_keeps ?_
    | refine State.shardLoad_keeps ?_ | refine IfOk.getR (by assumption) ?_ | split | (intro _) | refine KeepsL.mk ?_)

theorem execShardResumeRetry_keeps {s0 s : State} {h0 n i} (hs : Keeps s0 s) :
    IfNext (Keeps s0) (execShardResumeRetry h0 n i s) := by
  unfold execShardResumeRetry
  repeat' (with_reducible first
    | assumption | refine IfNext.next ?_ | refine State.command_keeps ?_ ?_ | refine answerState_keeps ?_ ?_
    | refine State.shardResume_keeps ?_ | (intro _))

theorem execShardResumeDiscard_keeps {s0 s : State} {h0 n i} (hs : Keeps s0 s) :
    IfNext (Keeps s0) (execShardResumeDiscard h0 n i s) := by
  unfold execShardResumeDiscard
  repeat' (with_reducible first
    | assumption | refine IfNext.next ?_ | refine State.command_keeps ?_ ?_ | refine answerState_keeps ?_ ?_
    | refine State.shardResume_keeps ?_ | (intro _))

theorem execShardUnload_keeps {s0 s : State} {h0 n i} (hs : Keeps s0 s) :
    IfNext (Keeps s0) (execShardUnload h0 n i s) := by
  unfold execShardUnload
  repeat' (with_reducible first
    | assumption | refine IfNext.next ?_ | refine State.command_keeps ?_ ?_ | refine answerState_keeps ?_ ?_
    | refine State.shardUnload_keeps ?_ | (intro _))

theorem execShardCompare_keeps {s0 s : State} {h0 n i} (hs : Keeps s0 s) :
    IfNext (Keeps s0) (execShardCompare h0 n i s) := by
  unfold execShardCompare
  repeat' (with_reducible first
    | assumption | refine IfNext.next ?_ | refine State.command_keeps ?_ ?_ | refine answerState_keeps ?_ ?_
    | refine State.shardCompare_keeps ?_ | (intro _))

theorem State.rootSubmit_keeps {s0 s : State} {h1 a prio nq} (hs : Keeps s0 s) :
    KeepsL s0 (State.rootSubmit s h1 a prio nq) := by
  unfold State.rootSubmit
  repeat' (with_reducible first
    | assumption | refine State.acceptJob_keeps ?_ | refine State.claim_keeps ?_ | refine refused_keeps ?_
    | refine KeepsL.get (by assumption) ?_ | split | refine KeepsL.mk ?_)

theorem execRootSubmit_keeps {s0 s : State} {h0 a prio nq} (hs : Keeps s0 s) :
    IfNext (Keeps s0) (execRootSubmit h0 a prio nq s) := by
  unfold execRootSubmit
  repeat' (with_reducible first
    | assumption | refine IfNext.next ?_ | refine State.command_keeps ?_ ?_ | refine State.rootSubmit_keeps ?_ | (intro _))

theorem State.rootCancel_keeps {s0 s : State} {v} (hs : Keeps s0 s) :
    IfOk (Keeps s0) (State.rootCancel s v) := by
  unfold State.rootCancel
  repeat' (with_reducible first
    | assumption | refine IfOk.ok ?_ | exact IfOk.error | refine State.modJob_keeps ?_ | refine State.endJob_keeps ?_ | split)

theorem execRootCancel_keeps {s0 s : State} {h0 v} (hs : Keeps s0 s) :
    IfNext (Keeps s0) (execRootCancel h0 v s) := by
  unfold execRootCancel
  repeat' (with_reducible first
    | assumption | refine IfNext.next ?_ | refine State.command_keeps ?_ ?_ | refine answerState_keeps ?_ ?_
    | refine State.rootCancel_keeps ?_ | (intro _))

theorem execCollectivePost_keeps {s0 s : State} {h0 a} (hs : Keeps s0 s) :
    IfNext (Keeps s0) (execCollectivePost h0 a s) := by
  unfold execCollectivePost
  repeat' (with_reducible first
    | assumption | refine IfNext.next ?_ | refine State.command_keeps ?_ ?_ | refine answer_keeps ?_ ?_
    | refine State.collPost_keeps ?_ | refine State.collPostReads_keeps ?_ | refine refused_keeps ?_
    | refine IfOk.getR (by assumption) ?_ | split | (intro _) | refine KeepsL.mk ?_)

theorem execCollectiveRun_keeps {s0 s : State} {h0 k} (hs : Keeps s0 s) :
    IfNext (Keeps s0) (execCollectiveRun h0 k s) := by
  unfold execCollectiveRun
  repeat' (with_reducible first
    | assumption | refine IfNext.next ?_ | refine collIndex_keeps ?_ | refine State.command_keeps ?_ ?_
    | refine answerState_keeps ?_ ?_ | refine State.collRunCmd_keeps ?_ | (intro _))

theorem execCollectiveCancel_keeps {s0 s : State} {h0 k} (hs : Keeps s0 s) :
    IfNext (Keeps s0) (execCollectiveCancel h0 k s) := by
  unfold execCollectiveCancel
  repeat' (with_reducible first
    | assumption | refine IfNext.next ?_ | refine collIndex_keeps ?_ | refine State.command_keeps ?_ ?_
    | refine State.collCancel_keeps ?_ | refine answerState_keeps ?_ ?_ | (intro _))

theorem execCollectiveRelease_keeps {s0 s : State} {h0 k} (hs : Keeps s0 s) :
    IfNext (Keeps s0) (execCollectiveRelease h0 k s) := by
  unfold execCollectiveRelease
  repeat' (with_reducible first
    | assumption | refine IfNext.next ?_ | refine collIndex_keeps ?_ | refine State.command_keeps ?_ ?_
    | refine answerState_keeps ?_ ?_ | refine State.collRelease_keeps ?_ | (intro _))

theorem execMappingPost_keeps {s0 s : State} {h0 k a} (hs : Keeps s0 s) :
    IfNext (Keeps s0) (execMappingPost h0 k a s) := by
  unfold execMappingPost
  repeat' (with_reducible first
    | assumption | refine IfNext.next ?_ | refine State.mappingPostReads_keeps ?_ | refine State.command_keeps ?_ ?_
    | refine answerState_keeps ?_ ?_ | refine State.mappingPostCmd_keeps ?_ | refine refused_keeps ?_ | split | (intro _))

theorem execMappingRelease_keeps {s0 s : State} {h0 k} (hs : Keeps s0 s) :
    IfNext (Keeps s0) (execMappingRelease h0 k s) := by
  unfold execMappingRelease
  repeat' (with_reducible first
    | assumption | refine IfNext.next ?_ | refine State.command_keeps ?_ ?_ | refine answerState_keeps ?_ ?_
    | refine State.mappingReleaseCmd_keeps ?_ | refine refused_keeps ?_ | split | (intro _))

theorem assocIndex_keeps {α : Type} {P : α → Prop} {k f} (kf : ∀ i, IfOk P (f i)) : IfOk P (assocIndex k f) := by
  unfold assocIndex
  split
  · exact IfOk.error
  · exact kf _

theorem accIndex_keeps {α : Type} {P : α → Prop} {k f} (kf : ∀ i, IfOk P (f i)) : IfOk P (accIndex k f) := by
  unfold accIndex
  split
  · exact IfOk.error
  · exact kf _

theorem State.subsDown_keeps {s0 s : State} {p x2} (hs : Keeps s0 s) :
    Keeps s0 (State.subsDown s p x2) := by
  induction x2 generalizing s p with
  | nil => rw [State.subsDown] <;> repeat' (with_reducible first | refine State.subDown_keeps ?_ | split | apply_assumption)
  | cons y t ih =>
    rw [State.subsDown]
    repeat' (with_reducible first | refine State.subDown_keeps ?_ | split | apply_assumption)

theorem State.portConfigure_keeps {s0 s : State} {k v} (hs : Keeps s0 s) :
    IfOk (Keeps s0) (State.portConfigure s k v) := by
  unfold State.portConfigure
  repeat' (with_reducible first
    | assumption | refine IfOk.ok ?_ | exact IfOk.error | refine State.modPort_keeps ?_ | refine State.subsDown_keeps ?_ | split)

theorem execPortConfigure_keeps {s0 s : State} {h0 k v} (hs : Keeps s0 s) :
    IfNext (Keeps s0) (execPortConfigure h0 k v s) := by
  unfold execPortConfigure
  repeat' (with_reducible first
    | assumption | refine IfNext.next ?_ | refine State.command_keeps ?_ ?_ | refine answerState_keeps ?_ ?_
    | refine State.portConfigure_keeps ?_ | (intro _))

theorem State.portAddress_keeps {s0 s : State} {k ip} (hs : Keeps s0 s) :
    IfOk (Keeps s0) (State.portAddress s k ip) := by
  unfold State.portAddress
  repeat' (with_reducible first
    | assumption | refine IfOk.ok ?_ | exact IfOk.error | refine State.modPort_keeps ?_ | split | refine Keeps.upd ?_ rfl rfl rfl rfl)

theorem execPortAddress_keeps {s0 s : State} {h0 k ip} (hs : Keeps s0 s) :
    IfNext (Keeps s0) (execPortAddress h0 k ip s) := by
  unfold execPortAddress
  repeat' (with_reducible first
    | assumption | refine IfNext.next ?_ | refine State.command_keeps ?_ ?_ | refine answerState_keeps ?_ ?_
    | refine State.portAddress_keeps ?_ | (intro _))

theorem State.setId_keeps {s0 s : State} {d} (hs : Keeps s0 s) :
    IfOk (Keeps s0) (State.setId s d) := by
  unfold State.setId
  repeat' (with_reducible first | assumption | refine IfOk.ok ?_ | exact IfOk.error | split | refine Keeps.upd ?_ rfl rfl rfl rfl)

theorem execFabricSetId_keeps {s0 s : State} {h0 d} (hs : Keeps s0 s) :
    IfNext (Keeps s0) (execFabricSetId h0 d s) := by
  unfold execFabricSetId
  repeat' (with_reducible first
    | assumption | refine IfNext.next ?_ | refine State.command_keeps ?_ ?_ | refine answerState_keeps ?_ ?_
    | refine State.setId_keeps ?_ | refine KeepsL.get (by assumption) ?_ | (intro _))

theorem State.hsOut_keeps {s0 s : State} {k m} (hs : Keeps s0 s) :
    Keeps s0 (State.hsOut s k m) := by
  unfold State.hsOut
  repeat' (with_reducible first
    | assumption | refine State.pktOut_keeps ?_ | split | refine Keeps.push ?_ rfl rfl rfl rfl (by with_unfolding_all rfl))

theorem State.probePaths_keeps {s0 s : State} {k size x3} (hs : Keeps s0 s) :
    Keeps s0 (State.probePaths s k size x3) := by
  fun_induction State.probePaths s k size x3
  all_goals repeat' (with_reducible first | refine State.pktOut_keeps ?_ | apply_assumption)

theorem State.hsStart_keeps {s0 s : State} {k} (hs : Keeps s0 s) :
    Keeps s0 (State.hsStart s k) := by
  unfold State.hsStart
  repeat' (with_reducible first
    | assumption | extract_lets | refine State.fresh_keeps ?_ | refine State.setAssoc_keeps ?_ | refine State.hsOut_keeps ?_ | split)

theorem State.hsFails_keeps {s0 s : State} {k id} (hs : Keeps s0 s) :
    Keeps s0 (State.hsFails s k id) := by
  unfold State.hsFails
  repeat' (with_reducible first
    | assumption | refine State.secNotice_keeps ?_ | refine State.hsOut_keeps ?_ | refine State.openFails_keeps ?_
    | refine Keeps.upd ?_ rfl rfl rfl rfl)

theorem State.assocUp_keeps {s0 s : State} {k tx rx reduced} (hs : Keeps s0 s) :
    Keeps s0 (State.assocUp s k tx rx reduced) := by
  unfold State.assocUp
  repeat' (with_reducible first
    | assumption | refine State.probePaths_keeps ?_ | refine State.link_keeps ?_ | refine State.workEnds_keeps ?_
    | refine State.setAssoc_keeps ?_ | split | refine Keeps.upd ?_ rfl rfl rfl rfl)

theorem State.hsInitArrives_keeps {s0 s : State} {k src id c} (hs : Keeps s0 s) :
    Keeps s0 (State.hsInitArrives s k src id c) := by
  unfold State.hsInitArrives
  repeat' (with_reducible first
    | assumption | extract_lets | refine State.fresh_keeps ?_ | refine State.setAssoc_keeps ?_ | refine State.hsOut_keeps ?_
    | refine State.hsFails_keeps ?_ | split)

theorem State.hsRespArrives_keeps {s0 s : State} {k src id c reduced} (hs : Keeps s0 s) :
    Keeps s0 (State.hsRespArrives s k src id c reduced) := by
  unfold State.hsRespArrives
  repeat' (with_reducible first
    | assumption | extract_lets | refine State.assocUp_keeps ?_ | refine State.setAssoc_keeps ?_ | refine State.hsOut_keeps ?_
    | refine State.hsFails_keeps ?_ | split)

theorem State.hsFinishArrives_keeps {s0 s : State} {k id sig reduced} (hs : Keeps s0 s) :
    Keeps s0 (State.hsFinishArrives s k id sig reduced) := by
  unfold State.hsFinishArrives
  repeat' (with_reducible first
    | assumption | extract_lets | exact Keeps.refl _ | refine State.assocUp_keeps ?_ | refine State.hsFails_keeps ?_ | split)

theorem State.hsAbortArrives_keeps {s0 s : State} {k id st} (hs : Keeps s0 s) :
    Keeps s0 (State.hsAbortArrives s k id st) := by
  unfold State.hsAbortArrives
  repeat' (with_reducible first | assumption | extract_lets | refine State.openFails_keeps ?_ | split)

theorem execAssocHandshake_keeps {s0 s : State} {a m reduced} (hs : Keeps s0 s) :
    IfNext (Keeps s0) (execAssocHandshake a m reduced s) := by
  unfold execAssocHandshake
  repeat' (with_reducible first
    | assumption | refine IfNext.next ?_ | refine State.hsAbortArrives_keeps ?_ | refine State.hsFinishArrives_keeps ?_
    | refine State.hsInitArrives_keeps ?_ | refine State.hsRespArrives_keeps ?_ | split)

theorem State.makePaths_keeps {s0 s : State} {subs addrs x3} (hs : Keeps s0 s) :
    KeepsR s0 (State.makePaths s subs addrs x3) := by
  fun_induction State.makePaths s subs addrs x3
  all_goals repeat' (with_reducible first
    | assumption | refine State.fresh_keeps ?_ | refine KeepsR.get (by assumption) ?_ | refine KeepsR.mk ?_)

theorem State.assocOpen_keeps {s0 s : State} {n d ip kc slot} (hs : Keeps s0 s) :
    IfOk (KeepsL s0) (State.assocOpen s n d ip kc slot) := by
  unfold State.assocOpen
  repeat' (with_reducible first
    | assumption | refine IfOk.ok ?_ | exact IfOk.error | refine State.makePaths_keeps ?_ | refine State.probePaths_keeps ?_
    | refine State.hsStart_keeps ?_ | refine State.setAssoc_keeps ?_ | split | refine KeepsL.mk ?_ | refine KeepsR.snd ?_)

theorem execAssocOpen_keeps {s0 s : State} {h0 d ip kc nq} (hs : Keeps s0 s) :
    IfNext (Keeps s0) (execAssocOpen h0 d ip kc nq s) := by
  unfold execAssocOpen
  repeat' (with_reducible first
    | assumption | refine IfNext.next ?_ | refine State.command_keeps ?_ ?_ | refine State.async_keeps ?_ ?_
    | refine State.assocOpen_keeps ?_ | (intro _))

theorem State.assocClose_keeps {s0 s : State} {k} (hs : Keeps s0 s) :
    IfOk (Keeps s0) (State.assocClose s k) := by
  unfold State.assocClose
  repeat' (with_reducible first
    | assumption | extract_lets | refine IfOk.ok ?_ | exact IfOk.error | refine State.assocLost_keeps ?_
    | refine State.openFails_keeps ?_ | split | refine Keeps.upd ?_ rfl rfl rfl rfl)

theorem execAssocClose_keeps {s0 s : State} {h0 k} (hs : Keeps s0 s) :
    IfNext (Keeps s0) (execAssocClose h0 k s) := by
  unfold execAssocClose
  repeat' (with_reducible first
    | assumption | refine IfNext.next ?_ | refine assocIndex_keeps ?_ | refine State.command_keeps ?_ ?_
    | refine answerState_keeps ?_ ?_ | refine State.assocClose_keeps ?_ | (intro _))

theorem State.assocRekey_keeps {s0 s : State} {k} (hs : Keeps s0 s) :
    IfOk (Keeps s0) (State.assocRekey s k) := by
  unfold State.assocRekey
  repeat' (with_reducible first | assumption | refine IfOk.ok ?_ | exact IfOk.error | refine State.rekey_keeps ?_ | split)

theorem execAssocRekey_keeps {s0 s : State} {h0 k} (hs : Keeps s0 s) :
    IfNext (Keeps s0) (execAssocRekey h0 k s) := by
  unfold execAssocRekey
  repeat' (with_reducible first
    | assumption | refine IfNext.next ?_ | refine assocIndex_keeps ?_ | refine State.command_keeps ?_ ?_
    | refine answerState_keeps ?_ ?_ | refine State.assocRekey_keeps ?_ | (intro _))

theorem execAssocDescribe_keeps {s0 s : State} {h0 k} (hs : Keeps s0 s) :
    IfNext (Keeps s0) (execAssocDescribe h0 k s) := by
  unfold execAssocDescribe
  repeat' (with_reducible first
    | assumption | refine IfNext.next ?_ | refine State.command_keeps ?_ ?_ | refine answer_keeps ?_ ?_ | (intro _)
    | refine KeepsL.mk ?_)

theorem State.setAcc_keeps {s0 s : State} {k e} (hs : Keeps s0 s) :
    Keeps s0 (State.setAcc s k e) := hs.upd rfl rfl rfl rfl

theorem State.accSet_keeps {s0 s : State} {b k} (hs : Keeps s0 s) :
    IfOk (Keeps s0) (State.accSet s b k) := by
  unfold State.accSet
  repeat' (with_reducible first | assumption | refine IfOk.ok ?_ | exact IfOk.error | refine State.setAcc_keeps ?_ | split)

theorem execAccessionSet_keeps {s0 s : State} {h0 k b} (hs : Keeps s0 s) :
    IfNext (Keeps s0) (execAccessionSet h0 k b s) := by
  unfold execAccessionSet
  repeat' (with_reducible first
    | assumption | refine IfNext.next ?_ | refine accIndex_keeps ?_ | refine State.command_keeps ?_ ?_ | refine State.accSet_keeps ?_
    | refine answerState_keeps ?_ ?_ | (intro _))

theorem execAccessionClear_keeps {s0 s : State} {h0 k} (hs : Keeps s0 s) : IfNext (Keeps s0) (execAccessionClear h0 k s) := by
  refine IfNext.next (State.command_keeps hs fun s h => answerState_keeps h (accIndex_keeps fun i => ?_))
  split
  · exact IfOk.error
  · exact IfOk.ok (State.setAcc_keeps h)

theorem State.migrate_keeps {s0 s : State} {k d a slot} (hs : Keeps s0 s) :
    IfOk (KeepsL s0) (State.migrate s k d a slot) := by
  unfold State.migrate
  repeat' (with_reducible first
    | assumption | extract_lets | refine IfOk.ok ?_ | exact IfOk.error | refine State.fresh_keeps ?_ | refine State.setAcc_keeps ?_
    | split | refine KeepsL.mk ?_ | refine Keeps.upd ?_ rfl rfl rfl rfl)

theorem execSegmentMigrate_keeps {s0 s : State} {h0 k d a nq} (hs : Keeps s0 s) :
    IfNext (Keeps s0) (execSegmentMigrate h0 k d a nq s) := by
  unfold execSegmentMigrate
  repeat' (with_reducible first
    | assumption | refine IfNext.next ?_ | refine accIndex_keeps ?_ | refine State.command_keeps ?_ ?_
    | refine State.async_keeps ?_ ?_ | refine State.migrate_keeps ?_ | refine KeepsL.get (by assumption) ?_
    | exact KeepsL.fst (p := (_, _)) (by assumption) | (intro _))

theorem execAccessionRead_keeps {s0 s : State} {h0 k} (hs : Keeps s0 s) :
    IfNext (Keeps s0) (execAccessionRead h0 k s) := by
  unfold execAccessionRead
  repeat' (with_reducible first
    | assumption | refine IfNext.next ?_ | refine State.command_keeps ?_ ?_ | refine answer_keeps ?_ ?_ | (intro _)
    | refine KeepsL.mk ?_)

end Sys2Proof.Machine
end

