-- ==== Sys2Proof/Laws/KeepsSecurity.lean ====
section
/-! SUPPORT. What the operations of Security, CueCheck, Productions, Services leave alone: each keeps the
relation Keeps to an earlier state, whatever its operands. -/

namespace Sys2Proof.Machine

theorem State.sessionInit_keeps {s0 s : State} {lane b} (hs : Keeps s0 s) :
    KeepsL s0 (State.sessionInit s lane b) := by
  unfold State.sessionInit
  repeat' (with_reducible first
    | assumption | extract_lets | refine State.fresh_keeps ?_ | refine refused_keeps ?_ | split | refine KeepsL.mk ?_
    | refine Keeps.upd ?_ rfl rfl rfl rfl)

theorem execSessionOpenInit_keeps {s0 s : State} {h0 b} (hs : Keeps s0 s) :
    IfNext (Keeps s0) (execSessionOpenInit h0 b s) := by
  unfold execSessionOpenInit
  repeat' (with_reducible first
    | assumption | exact Keeps.refl _ | refine IfNext.next ?_ | refine State.sessionInit_keeps ?_ | refine State.command_keeps ?_ ?_
    | (intro _))

theorem State.claimOwner_keeps {s0 s : State} {key} (hs : Keeps s0 s) : Keeps s0 (State.claimOwner s key) :=
  State.credWrite_keeps (hs.upd rfl rfl rfl rfl)

theorem State.claimOwner_sessions (s : State) (key : List Byte) : (s.claimOwner key).cur.sessions = s.cur.sessions := rfl

theorem State.openSession_keeps {s0 s : State} {x role} (hl : s.cur.sessions.length < 64) (hs : Keeps s0 s) :
    KeepsL s0 (State.openSession s x role) :=
  hs.trans ⟨rfl, id, rfl, rfl, rfl, fun x => ⟨x, List.prefix_rfl⟩, Nat.le_refl _, List.prefix_rfl, id,
    fun _ => Nat.le_trans (Nat.le_of_eq (List.length_append ..)) (Nat.succ_le_of_lt hl)⟩

theorem State.sessionFinish_keeps {s0 s : State} {id sig} (hs : Keeps s0 s) : KeepsL s0 (State.sessionFinish s id sig) := by
  unfold State.sessionFinish
  split
  · exact hs
  · split
    · exact hs
    · rename_i hl
      have hl : s.cur.sessions.length < 64 := Nat.lt_of_not_le hl
      extract_lets +onlyGivenNames c t
      have ht : Keeps s0 t := hs.upd rfl rfl rfl rfl
      have hk : t.cur.sessions.length < 64 := hl
      clear_value t
      split
      · exact ht
      · extract_lets +onlyGivenNames d
        split
        · exact ht
        · split
          · exact ht
          · extract_lets u
            refine State.openSession_keeps ?_ ?_
            · simp only [u]
              split
              · exact (congrArg (fun l => l.length < 64) (State.claimOwner_sessions t _)).mpr hk
              · exact hk
            · simp only [u]
              split
              · exact State.claimOwner_keeps ht
              · exact ht

theorem execSessionOpenFinish_keeps {s0 s : State} {h0 id sig} (hs : Keeps s0 s) :
    IfNext (Keeps s0) (execSessionOpenFinish h0 id sig s) := by
  unfold execSessionOpenFinish
  repeat' (with_reducible first
    | assumption | refine IfNext.next ?_ | refine State.command_keeps ?_ ?_ | refine State.sessionFinish_keeps ?_ | (intro _))

theorem execSessionClose_keeps {s0 s : State} {h0} (hs : Keeps s0 s) :
    IfNext (Keeps s0) (execSessionClose h0 s) := by
  unfold execSessionClose
  repeat' (with_reducible first
    | assumption | refine IfNext.next ?_ | refine State.command_keeps ?_ ?_ | refine State.closeSession_keeps ?_ | (intro _)
    | refine KeepsL.mk ?_)

theorem execHandshakeExpire_keeps {s0 s : State} {id} (hs : Keeps s0 s) :
    IfNext (Keeps s0) (execHandshakeExpire id s) := by
  unfold execHandshakeExpire
  repeat' (with_reducible first | assumption | refine IfNext.next ?_ | refine Keeps.upd ?_ rfl rfl rfl rfl)

theorem State.attest_keeps {s0 s : State} {nonce options} (hs : Keeps s0 s) :
    KeepsL s0 (State.attest s nonce options) := by
  unfold State.attest
  repeat' (with_reducible first
    | assumption | refine refused_keeps ?_ | split | refine KeepsL.mk ?_ | refine Keeps.upd ?_ rfl rfl rfl rfl)

theorem execAttest_keeps {s0 s : State} {h0 nonce options} (hs : Keeps s0 s) :
    IfNext (Keeps s0) (execAttest h0 nonce options s) := by
  unfold execAttest
  repeat' (with_reducible first
    | assumption | exact Keeps.refl _ | refine IfNext.next ?_ | refine State.command_keeps ?_ ?_ | refine State.attest_keeps ?_
    | (intro _))

theorem State.setFolio_keeps {s0 s : State} {k f} (hs : Keeps s0 s) :
    Keeps s0 (State.setFolio s k f) := hs.upd rfl rfl rfl rfl

theorem State.folioKey_keeps {s0 s : State} {k b} (hs : Keeps s0 s) :
    KeepsL s0 (State.folioKey s k b) := by
  unfold State.folioKey
  repeat' (with_reducible first
    | assumption | refine State.secNotice_keeps ?_ | refine refused_keeps ?_ | refine State.setFolio_keeps ?_ | split
    | refine KeepsL.mk ?_ | refine Keeps.upd ?_ rfl rfl rfl rfl)

theorem execFolioKey_keeps {s0 s : State} {h0 k b} (hs : Keeps s0 s) :
    IfNext (Keeps s0) (execFolioKey h0 k b s) := by
  unfold execFolioKey
  repeat' (with_reducible first
    | assumption | refine IfNext.next ?_ | refine State.command_keeps ?_ ?_ | refine State.folioKey_keeps ?_ | (intro _))

theorem execFolioDecryptDone_keeps {s0 s : State} {k} (hs : Keeps s0 s) :
    IfNext (Keeps s0) (execFolioDecryptDone k s) := by
  unfold execFolioDecryptDone
  repeat' (with_reducible first
    | assumption | refine IfNext.next ?_ | refine State.secNotice_keeps ?_ | refine State.poke_keeps ?_
    | refine State.setFolio_keeps ?_ | split)

theorem State.folioClose_keeps {s0 s : State} {k f} (hs : Keeps s0 s) :
    Keeps s0 (State.folioClose s k f) := by
  unfold State.folioClose
  repeat' (with_reducible first
    | assumption | refine State.zeroMem_keeps ?_ | refine State.secNotice_keeps ?_ | split | refine Keeps.upd ?_ rfl rfl rfl rfl)

theorem execFolioUnload_keeps {s0 s : State} {h0 k} (hs : Keeps s0 s) :
    IfNext (Keeps s0) (execFolioUnload h0 k s) := by
  unfold execFolioUnload
  repeat' (with_reducible first
    | assumption | refine IfNext.next ?_ | refine State.command_keeps ?_ ?_ | refine State.folioClose_keeps ?_
    | refine refused_keeps ?_ | split | (intro _) | refine KeepsL.mk ?_ | refine Keeps.upd ?_ rfl rfl rfl rfl)

theorem State.vaultRotate_keeps {s0 s : State} (hs : Keeps s0 s) :
    IfOk (KeepsL s0) (State.vaultRotate s) := by
  unfold State.vaultRotate
  repeat' (with_reducible first
    | assumption | refine IfOk.ok ?_ | exact IfOk.error | refine State.secNotice_keeps ?_ | refine State.sweepDone_keeps ?_
    | refine State.sweepStartAll_keeps ?_ | split | refine KeepsL.mk ?_ | refine Keeps.upd ?_ rfl rfl rfl rfl)

theorem execVaultRotate_keeps {s0 s : State} {h0} (hs : Keeps s0 s) :
    IfNext (Keeps s0) (execVaultRotate h0 s) := by
  unfold execVaultRotate
  repeat' (with_reducible first
    | assumption | exact IfOk.error | refine IfNext.next ?_ | refine State.command_keeps ?_ ?_ | refine State.vaultRotate_keeps ?_
    | refine answer_keeps ?_ ?_ | refine IfOk.getL (by assumption) ?_ | refine KeepsL.get (by assumption) ?_
    | exact KeepsL.fst (p := (_, _)) (by assumption) | (intro _) | refine KeepsL.mk ?_)

theorem State.hostEnter_keeps {s0 s : State} {ds} (hs : Keeps s0 s) :
    Keeps s0 (State.hostEnter s ds) := by
  unfold State.hostEnter
  repeat' (with_reducible first
    | assumption | refine State.secNotice_keeps ?_ | refine State.closeSessions_keeps ?_ | refine State.assocsDown_keeps ?_
    | refine State.measure_keeps ?_ | refine Keeps.upd ?_ rfl rfl rfl rfl)

theorem execHostModeEnter_keeps {s0 s : State} {h0 ds} (hs : Keeps s0 s) :
    IfNext (Keeps s0) (execHostModeEnter h0 ds s) := by
  unfold execHostModeEnter
  repeat' (with_reducible first
    | assumption | refine IfNext.next ?_ | refine State.command_keeps ?_ ?_ | refine State.hostEnter_keeps ?_
    | refine refused_keeps ?_ | split | (intro _) | refine KeepsL.mk ?_)

theorem execHostModeLeave_keeps {s0 s : State} {h0} (hs : Keeps s0 s) :
    IfNext (Keeps s0) (execHostModeLeave h0 s) := by
  unfold execHostModeLeave
  repeat' (with_reducible first
    | assumption | refine IfNext.next ?_ | refine State.secNotice_keeps ?_ | refine State.command_keeps ?_ ?_
    | refine State.measure_keeps ?_ | split | (intro _) | refine KeepsL.mk ?_ | refine Keeps.upd ?_ rfl rfl rfl rfl)

theorem State.loadEnsembles_keeps {s0 s : State} {p x2} (hs : Keeps s0 s) :
    IfOk (KeepsL s0) (State.loadEnsembles s p x2) := by
  fun_induction State.loadEnsembles s p x2
  all_goals repeat' (with_reducible first
    | refine IfOk.ok ?_ | exact IfOk.error | refine State.defineEnsemble_keeps ?_ | refine IfOk.getR (by assumption) ?_
    | apply_assumption)

theorem State.loadRegs_keeps {s0 s : State} {l} (hs : Keeps s0 s) : KeepsL s0 (State.loadRegs s l) := by
  induction l generalizing s with
  | nil => exact hs
  | cons y t ih =>
    rw [State.loadRegs]
    have k := State.regWriteTo_keeps (who := none) (a := y.1) (v := BitVec.ofNat 64 (ofLe y.2)) hs
    split
    · rename_i e
      exact k.2 _ e
    · rename_i e
      exact ih (k.1 _ e)

/-- Where a load ends. -/
abbrev KeepsE (s : State) (r : LoadEnd) : Prop := Keeps s r.1.1

theorem State.loadShards_keeps {s0 s : State} {p a l} (hs : Keeps s0 s) : KeepsE s0 (State.loadShards s p a l) := by
  induction l generalizing s p a with
  | nil => exact hs
  | cons y t ih =>
    rw [State.loadShards]
    split
    · exact hs
    · rename_i e
      have h1 := IfOk.get e (State.writeMem_keeps hs)
      split
      · exact h1
      · rename_i f
        exact ih (IfOk.getR f (State.shardLoad_keeps h1))

theorem loadEnd_keeps {s0 s : State} {p r} (hs : Keeps s0 s) (hr : IfOk (KeepsL s0) r) : KeepsE s0 (loadEnd s p r) := by
  cases r with
  | error e => exact hs
  | ok x => exact hr x rfl

theorem IfOk.map {ε α β : Type} {P : α → Prop} {Q : β → Prop} {r : Except ε α} {f : α → β} (h : IfOk P r) (k : ∀ a, P a → Q (f a)) :
    IfOk Q (r.map f) := by
  cases r with
  | error e => exact IfOk.error
  | ok a => exact IfOk.ok (k a (h a rfl))

theorem KeepsE.mk {s0 s : State} {p e} (h : Keeps s0 s) : KeepsE s0 ((s, p), e) := h

theorem KeepsE.ite {s0 : State} {c : Prop} [Decidable c] {a b : LoadEnd} (h : KeepsE s0 a) (k : KeepsE s0 b) :
    KeepsE s0 (if c then a else b) := by
  split
  · exact h
  · exact k

theorem State.loadSection_keeps {s0 s : State} {p x} (hs : Keeps s0 s) : KeepsE s0 (State.loadSection s p x) := by
  unfold State.loadSection
  extract_lets +onlyGivenNames c onCore
  have hc : ∀ f, KeepsE s0 (onCore f) := fun f => State.modCore_keeps hs
  clear_value onCore
  refine KeepsE.ite (hc _) (KeepsE.ite (hc _) (KeepsE.ite (hc _) (KeepsE.ite ?_ (KeepsE.ite (KeepsE.mk (State.modCore_keeps hs))
    (KeepsE.ite (loadEnd_keeps hs (State.loadEnsembles_keeps hs)) (KeepsE.ite (State.loadShards_keeps hs) (KeepsE.ite
      (loadEnd_keeps hs (IfOk.map (State.collPlace_keeps hs) fun _ h => h)) (KeepsE.ite
        (loadEnd_keeps hs (IfOk.map (State.mappingPlace_keeps hs) fun _ h => h)) (KeepsE.ite (State.loadRegs_keeps hs)
          (loadEnd_keeps hs (IfOk.map (State.writeMem_keeps hs) fun _ h => h)))))))))))
  split
  · exact hs
  · exact State.setCore_keeps hs

theorem State.loadSections_keeps {s0 s : State} {p l} (hs : Keeps s0 s) : KeepsE s0 (State.loadSections s p l) := by
  induction l generalizing s p with
  | nil => exact hs
  | cons y t ih =>
    rw [State.loadSections]
    have k : KeepsE s0 (s.loadSection p y) := State.loadSection_keeps hs
    split
    · rename_i e
      rw [e] at k
      exact k
    · rename_i e
      rw [e] at k
      exact ih k

theorem State.dropShards_keeps {s0 s : State} {x1} (hs : Keeps s0 s) :
    Keeps s0 (State.dropShards s x1) := by
  fun_induction State.dropShards s x1
  all_goals repeat' (with_reducible first | refine State.shardEmpty_keeps ?_ | apply_assumption)

theorem State.releaseCores_keeps {s0 s : State} {x1} (hs : Keeps s0 s) :
    Keeps s0 (State.releaseCores s x1) := by
  fun_induction State.releaseCores s x1
  all_goals repeat' (with_reducible first | refine State.modCore_keeps ?_ | apply_assumption)

theorem State.prodRemove_keeps {s0 s : State} {p} (hs : Keeps s0 s) :
    Keeps s0 (State.prodRemove s p) := by
  unfold State.prodRemove
  repeat' (with_reducible first
    | assumption | refine State.dropShards_keeps ?_ | refine State.releaseCores_keeps ?_ | refine Keeps.upd ?_ rfl rfl rfl rfl)

theorem State.prodLoad_keeps {s0 s : State} {b} (hs : Keeps s0 s) : Both (KeepsR s0) (KeepsR3 s0) (State.prodLoad s b) := by
  unfold State.prodLoad
  split
  · exact Both.error hs
  · split
    · exact Both.error hs
    · split
      · exact Both.error hs
      · split
        · exact Both.error hs
        · extract_lets +onlyGivenNames cores
          split
          · exact Both.error hs
          · extract_lets +onlyGivenNames p
            have k : ∀ l, KeepsE s0 (s.loadSections p l) := fun l => State.loadSections_keeps hs
            split
            · rename_i e
              exact Both.error (State.prodRemove_keeps (by have h := k (by assumption : ProdImage).sections; rw [e] at h; exact h))
            · rename_i e
              have h := k (by assumption : ProdImage).sections
              rw [e] at h
              exact Both.ok (State.measure_keeps (Keeps.upd h rfl rfl rfl rfl))

theorem State.prodEnd_keeps {s0 s : State} {k a n} (hs : Keeps s0 s) : Keeps s0 (State.prodEnd s k a n) := by
  unfold State.prodEnd
  split
  · exact State.slotEnds_keeps (State.countRead_keeps hs)
  · rename_i b _
    split
    · exact hs
    · have h := State.prodLoad_keeps (b := b) hs
      split
      · rename_i e
        exact State.slotEnds_keeps (h.2 _ e)
      · rename_i e
        exact State.slotEnds_keeps (h.1 _ e)

theorem execProductionLoad_keeps {s0 s : State} {h0 a n nq} (hs : Keeps s0 s) :
    IfNext (Keeps s0) (execProductionLoad h0 a n nq s) := by
  unfold execProductionLoad
  repeat' (with_reducible first
    | assumption | refine IfNext.next ?_ | refine IfOk.ok ?_ | exact IfOk.error | refine State.command_keeps ?_ ?_
    | refine State.async_keeps ?_ ?_ | split | (intro _) | refine KeepsL.mk ?_)

theorem State.runCores_keeps {s0 s : State} {f x2} (hs : Keeps s0 s) :
    Keeps s0 (State.runCores s f x2) := by
  fun_induction State.runCores s f x2
  all_goals repeat' (with_reducible first | refine State.modCore_keeps ?_ | apply_assumption)

theorem State.prodRun_keeps {s0 s : State} {k u} (hs : Keeps s0 s) :
    IfOk (KeepsR s0) (State.prodRun s k u) := by
  unfold State.prodRun
  repeat' (with_reducible first
    | assumption | refine IfOk.ok ?_ | exact IfOk.error | refine State.runCores_keeps ?_ | split | refine KeepsR.mk ?_)

theorem execProductionRun_keeps {s0 s : State} {h0 k u} (hs : Keeps s0 s) :
    IfNext (Keeps s0) (execProductionRun h0 k u s) := by
  unfold execProductionRun
  repeat' (with_reducible first
    | assumption | refine IfNext.next ?_ | refine State.command_keeps ?_ ?_ | refine answer_keeps ?_ ?_
    | refine State.prodRun_keeps ?_ | refine IfOk.getR (by assumption) ?_ | (intro _) | refine KeepsL.mk ?_)

theorem State.prodStop_keeps {s0 s : State} {k u} (hs : Keeps s0 s) : IfOk (Keeps s0) (State.prodStop s k u) := by
  unfold State.prodStop
  split
  · exact IfOk.error
  · exact IfOk.map (P := fun _ => True) (fun _ _ => trivial) fun _ _ => State.runCores_keeps hs

theorem execProductionStop_keeps {s0 s : State} {h0 k u} (hs : Keeps s0 s) :
    IfNext (Keeps s0) (execProductionStop h0 k u s) := by
  unfold execProductionStop
  repeat' (with_reducible first
    | assumption | refine IfNext.next ?_ | refine State.command_keeps ?_ ?_ | refine answerState_keeps ?_ ?_
    | refine State.prodStop_keeps ?_ | (intro _))

theorem State.prodUnload_keeps {s0 s : State} {k} (hs : Keeps s0 s) :
    IfOk (Keeps s0) (State.prodUnload s k) := by
  unfold State.prodUnload
  repeat' (with_reducible first
    | assumption | refine IfOk.ok ?_ | exact IfOk.error | refine State.prodRemove_keeps ?_ | refine State.measure_keeps ?_ | split
    | refine Keeps.upd ?_ rfl rfl rfl rfl)

theorem execProductionUnload_keeps {s0 s : State} {h0 k} (hs : Keeps s0 s) :
    IfNext (Keeps s0) (execProductionUnload h0 k s) := by
  unfold execProductionUnload
  repeat' (with_reducible first
    | assumption | refine IfNext.next ?_ | refine State.command_keeps ?_ ?_ | refine State.prodUnload_keeps ?_
    | refine answerState_keeps ?_ ?_ | split | (intro _))

theorem execProductionList_keeps {s0 s : State} {h0} (hs : Keeps s0 s) :
    IfNext (Keeps s0) (execProductionList h0 s) := by
  unfold execProductionList
  repeat' (with_reducible first
    | assumption | refine IfNext.next ?_ | refine State.command_keeps ?_ ?_ | (intro _) | refine KeepsL.mk ?_)

theorem State.storeEnds_keeps {s0 s : State} {k st fs} (hs : Keeps s0 s) :
    Keeps s0 (State.storeEnds s k st fs) := by
  unfold State.storeEnds
  repeat' (with_reducible first | assumption | refine State.slotEnds_keeps ?_ | refine Keeps.upd ?_ rfl rfl rfl rfl)

theorem State.storesGone_keeps {s0 s : State} {x1} (hs : Keeps s0 s) :
    Keeps s0 (State.storesGone s x1) := by
  fun_induction State.storesGone s x1
  all_goals repeat' (with_reducible first | refine State.storeEnds_keeps ?_ | apply_assumption)

theorem State.attachGone_keeps {s0 s : State} {a} (hs : Keeps s0 s) :
    Keeps s0 (State.attachGone s a) := by
  unfold State.attachGone
  repeat' (with_reducible first | assumption | refine State.storesGone_keeps ?_ | refine Keeps.upd ?_ rfl rfl rfl rfl)

theorem execStoreAttach_keeps {s0 s : State} {h0 ip l4 nqn action nq} (hs : Keeps s0 s) :
    IfNext (Keeps s0) (execStoreAttach h0 ip l4 nqn action nq s) := by
  unfold execStoreAttach
  repeat' (with_reducible first
    | assumption | refine IfNext.next ?_ | refine IfOk.ok ?_ | exact IfOk.error | refine State.command_keeps ?_ ?_
    | refine State.async_keeps ?_ ?_ | split | (intro _) | refine KeepsL.mk ?_)

theorem execStoreDetach_keeps {s0 s : State} {h0 k} (hs : Keeps s0 s) :
    IfNext (Keeps s0) (execStoreDetach h0 k s) := by
  unfold execStoreDetach
  repeat' (with_reducible first
    | assumption | refine IfNext.next ?_ | refine State.command_keeps ?_ ?_ | refine State.attachGone_keeps ?_
    | refine refused_keeps ?_ | split | (intro _) | refine KeepsL.mk ?_)

theorem State.storeOut_keeps {s0 s : State} {k write nsid lba blocks b} (hs : Keeps s0 s) :
    Keeps s0 (State.storeOut s k write nsid lba blocks b) := hs.push rfl rfl rfl rfl rfl

theorem execStoreRead_keeps {s0 s : State} {h0 k nsid lba blocks a nq} (hs : Keeps s0 s) :
    IfNext (Keeps s0) (execStoreRead h0 k nsid lba blocks a nq s) := by
  unfold execStoreRead
  repeat' (with_reducible first
    | assumption | extract_lets | refine IfNext.next ?_ | refine IfOk.ok ?_ | exact IfOk.error | refine State.command_keeps ?_ ?_
    | refine State.async_keeps ?_ ?_ | refine State.storeOut_keeps ?_ | split | (intro _) | refine KeepsL.mk ?_)

theorem execStoreWrite_keeps {s0 s : State} {h0 k nsid lba a n nq} (hs : Keeps s0 s) :
    IfNext (Keeps s0) (execStoreWrite h0 k nsid lba a n nq s) := by
  unfold execStoreWrite
  repeat' (with_reducible first
    | assumption | refine IfNext.next ?_ | refine IfOk.ok ?_ | exact IfOk.error | refine State.command_keeps ?_ ?_
    | refine State.async_keeps ?_ ?_ | refine State.countRead_keeps ?_ | refine State.storeOut_keeps ?_ | split | (intro _)
    | refine KeepsL.mk ?_)

theorem execStoreConnectionLost_keeps {s0 s : State} {k} (hs : Keeps s0 s) :
    IfNext (Keeps s0) (execStoreConnectionLost k s) := by
  unfold execStoreConnectionLost
  repeat' (with_reducible first | assumption | refine IfNext.next ?_ | refine State.attachGone_keeps ?_)

theorem State.folioRegister_keeps {s0 s : State} {k a m only} (hs : Keeps s0 s) :
    KeepsL s0 (State.folioRegister s k a m only) := hs.upd rfl rfl rfl rfl

theorem State.folioTake_keeps {s0 s : State} {a only b} (hs : Keeps s0 s) :
    IfOk (KeepsL s0) (State.folioTake s a only b) := by
  unfold State.folioTake
  repeat' (with_reducible first
    | assumption | refine IfOk.ok ?_ | exact IfOk.error | refine State.writeMem_keeps ?_ | refine State.folioRegister_keeps ?_
    | refine IfOk.get (by assumption) ?_ | split)

theorem execFolioLoad_keeps {s0 s : State} {h0 k nsid lba a options nq} (hs : Keeps s0 s) :
    IfNext (Keeps s0) (execFolioLoad h0 k nsid lba a options nq s) := by
  unfold execFolioLoad
  repeat' (with_reducible first
    | assumption | refine IfNext.next ?_ | refine IfOk.ok ?_ | exact IfOk.error | refine State.command_keeps ?_ ?_
    | refine State.async_keeps ?_ ?_ | refine State.storeOut_keeps ?_ | split | (intro _) | refine KeepsL.mk ?_)

theorem State.ckptWrite_keeps {s0 s : State} {k nsid x lba l} (hs : Keeps s0 s) :
    KeepsL s0 (State.ckptWrite s k nsid x lba l) := by
  unfold State.ckptWrite
  repeat' (with_reducible first
    | assumption | refine State.fresh_keeps ?_ | refine State.countFirst_keeps ?_ | refine State.storeOut_keeps ?_ | split
    | refine KeepsL.mk ?_ | refine Keeps.upd ?_ rfl rfl rfl rfl)

theorem execCheckpointWrite_keeps {s0 s : State} {h0 k nsid lba a nq} (hs : Keeps s0 s) :
    IfNext (Keeps s0) (execCheckpointWrite h0 k nsid lba a nq s) := by
  unfold execCheckpointWrite
  repeat' (with_reducible first
    | assumption | refine IfNext.next ?_ | refine IfOk.ok ?_ | exact IfOk.error | refine State.async_keeps ?_ ?_
    | refine State.doorCommand_keeps ?_ ?_ | refine State.countFirst_keeps ?_ | refine State.ckptWrite_keeps ?_
    | refine KeepsL.get (by assumption) ?_ | split | (intro _) | refine KeepsL.mk ?_)

theorem execCheckpointRestore_keeps {s0 s : State} {h0 k nsid lba nq} (hs : Keeps s0 s) :
    IfNext (Keeps s0) (execCheckpointRestore h0 k nsid lba nq s) := by
  unfold execCheckpointRestore
  repeat' (with_reducible first
    | assumption | refine IfNext.next ?_ | refine IfOk.ok ?_ | exact IfOk.error | refine State.command_keeps ?_ ?_
    | refine State.async_keeps ?_ ?_ | refine State.storeOut_keeps ?_ | split | (intro _) | refine KeepsL.mk ?_)

theorem State.ckptPiece_keeps {s0 s : State} {k p b} (hs : Keeps s0 s) :
    IfOk (KeepsL s0) (State.ckptPiece s k p b) := by
  unfold State.ckptPiece
  repeat' (with_reducible first
    | assumption | refine IfOk.ok ?_ | exact IfOk.error | refine State.writeMem_keeps ?_ | refine State.putPackets_keeps ?_
    | refine State.markDirty_keeps ?_ | refine IfOk.get (by assumption) ?_ | split | refine KeepsL.mk ?_)

theorem State.ckptPut_keeps {s0 s : State} {k x2 x3 x4} (hs : Keeps s0 s) :
    KeepsL s0 (State.ckptPut s k x2 x3 x4) := by
  fun_induction State.ckptPut s k x2 x3 x4
  all_goals repeat' (with_reducible first | refine State.ckptPiece_keeps ?_ | refine IfOk.getL (by assumption) ?_ | apply_assumption)

theorem State.ckptTake_keeps {s0 s : State} {k img} (hs : Keeps s0 s) :
    IfSome (KeepsL s0) (State.ckptTake s k img) := by
  unfold State.ckptTake
  repeat' (with_reducible first
    | assumption | extract_lets | refine IfSome.some ?_ | exact IfSome.none | refine State.ckptPut_keeps ?_
    | refine KeepsL.get (by assumption) ?_ | split | refine KeepsL.mk ?_)

theorem State.fillEnd_keeps {s0 s : State} {k a n v} (hs : Keeps s0 s) :
    Keeps s0 (State.fillEnd s k a n v) := by
  unfold State.fillEnd
  repeat' (with_reducible first
    | assumption | refine State.writeMem_keeps ?_ | refine State.slotEnds_keeps ?_ | refine State.countWrite_keeps ?_
    | refine IfOk.get (by assumption) ?_ | split)

theorem State.storeEnd_keeps {s0 s : State} {k w st b} (hs : Keeps s0 s) :
    Keeps s0 (State.storeEnd s k w st b) := by
  unfold State.storeEnd
  repeat' (with_reducible first
    | assumption | refine State.storeEnds_keeps ?_ | refine State.writeMem_keeps ?_ | refine State.setSlot_keeps ?_
    | refine State.folioTake_keeps ?_ | refine State.slotEnds_keeps ?_ | refine State.ckptTake_keeps ?_
    | refine State.countWrite_keeps ?_ | refine IfOk.getL (by assumption) ?_ | refine IfOk.get (by assumption) ?_
    | refine IfSome.getL (by assumption) ?_ | split | refine Keeps.upd ?_ rfl rfl rfl rfl)

theorem State.asyncEnd_keeps {s0 s : State} {k x env} (hs : Keeps s0 s) :
    Keeps s0 (State.asyncEnd s k x env) := by
  unfold State.asyncEnd
  repeat' (with_reducible first
    | assumption | extract_lets | exact Keeps.refl _ | refine State.fillEnd_keeps ?_ | refine State.prodEnd_keeps ?_
    | refine State.slotEnds_keeps ?_ | refine State.storeEnd_keeps ?_ | split)

theorem execAsyncCommandEnd_keeps {s0 s : State} {k env} (hs : Keeps s0 s) :
    IfNext (Keeps s0) (execAsyncCommandEnd k env s) := by
  unfold execAsyncCommandEnd
  repeat' (with_reducible first | assumption | refine IfNext.next ?_ | refine State.asyncEnd_keeps ?_ | split)

end Sys2Proof.Machine
end

