-- ==== Sys2Proof/Laws/KeepsModule.lean ====
section
/-! SUPPORT. What the operations of Takeover, Resets, Bringup, Module leave alone: each keeps the
relation Keeps to an earlier state, whatever its operands. -/

namespace Sys2Proof.Machine

theorem State.serveDoor_keeps {s0 s : State} {c} (hs : Keeps s0 s) :
    Keeps s0 (State.serveDoor s c) := by
  unfold State.serveDoor
  repeat' (with_reducible first | assumption | refine State.serveHeld_keeps ?_ | refine Keeps.upd ?_ rfl rfl rfl rfl)

theorem State.doorRelease_keeps {s0 s : State} {c} (hs : Keeps s0 s) :
    Keeps s0 (State.doorRelease s c) := by
  unfold State.doorRelease
  repeat' (with_reducible first
    | assumption | refine State.collsResume_keeps ?_ | refine State.retryWrites_keeps ?_ | refine State.serveDoor_keeps ?_
    | refine Keeps.upd ?_ rfl rfl rfl rfl)

theorem State.answerAll_keeps {s0 s : State} {t x2} (hs : Keeps s0 s) :
    Keeps s0 (State.answerAll s t x2) := by
  fun_induction State.answerAll s t x2
  all_goals repeat' (with_reducible first | refine State.answerMsg_keeps ?_ | apply_assumption)

theorem State.answerHeld_keeps {s0 s : State} {c st x3} (hs : Keeps s0 s) :
    Keeps s0 (State.answerHeld s c st x3) := by
  fun_induction State.answerHeld s c st x3
  all_goals repeat' (with_reducible first | refine State.answerHandle_keeps ?_ | apply_assumption)

theorem State.refuseWaiting_keeps {s0 s : State} {c reset} (hs : Keeps s0 s) :
    Keeps s0 (State.refuseWaiting s c reset) := by
  unfold State.refuseWaiting
  repeat' (with_reducible first
    | assumption | refine State.modCore_keeps ?_ | refine State.answerHeld_keeps ?_ | refine State.answerAll_keeps ?_)

theorem State.goDark_keeps {s0 s : State} {c failed entry} (hs : Keeps s0 s) :
    Keeps s0 (State.goDark s c failed entry) := by
  unfold State.goDark
  repeat' (with_reducible first
    | assumption | refine State.fault_keeps ?_ | refine State.refuseWaiting_keeps ?_ | refine State.modCore_keeps ?_
    | refine State.doorRelease_keeps ?_ | refine Keeps.upd ?_ rfl rfl rfl rfl)

theorem State.takenOver_keeps {s0 s : State} {c ns t} (hs : Keeps s0 s) :
    Keeps s0 (State.takenOver s c ns t) := hs.upd rfl rfl rfl rfl

theorem State.recordCore_keeps {s0 s : State} {phys f event} (hs : Keeps s0 s) :
    KeepsL s0 (State.recordCore s phys f event) := by
  unfold State.recordCore
  repeat' (with_reducible first | assumption | refine State.record_keeps ?_ | split)

theorem State.coreFails_keeps {s0 s : State} {c f} (hs : Keeps s0 s) :
    Keeps s0 (State.coreFails s c f) := by
  unfold State.coreFails
  repeat' (with_reducible first
    | assumption | refine State.recordCore_keeps ?_ | refine State.fault_keeps ?_ | refine State.modTroupe_keeps ?_
    | refine State.setTroupe_keeps ?_ | refine State.modCore_keeps ?_ | refine State.takenOver_keeps ?_ | refine State.goDark_keeps ?_
    | refine KeepsL.get (by assumption) ?_ | split | refine KeepsL.fst ?_ | refine Keeps.upd ?_ rfl rfl rfl rfl)

theorem execCoreFaultDetected_keeps {s0 s : State} {c f} (hs : Keeps s0 s) :
    IfNext (Keeps s0) (execCoreFaultDetected c f s) := by
  unfold execCoreFaultDetected
  repeat' (with_reducible first | assumption | extract_lets | refine IfNext.next ?_ | refine State.coreFails_keeps ?_ | split)

theorem State.replayItem_keeps {s0 s : State} {c x2} (hs : Keeps s0 s) :
    Keeps s0 (State.replayItem s c x2) := by
  unfold State.replayItem
  repeat' (with_reducible first
    | assumption | extract_lets | refine State.modCore_keeps ?_ | refine State.tokenRise_keeps ?_ | refine State.enterRing_keeps ?_
    | split)

theorem State.replay_keeps {s0 s : State} {c x2} (hs : Keeps s0 s) :
    Keeps s0 (State.replay s c x2) := by
  fun_induction State.replay s c x2
  all_goals repeat' (with_reducible first | refine State.replayItem_keeps ?_ | apply_assumption)

theorem execTakeoverShadowLoaded_keeps {s0 s : State} {c shadowError} (hs : Keeps s0 s) :
    IfNext (Keeps s0) (execTakeoverShadowLoaded c shadowError s) := by
  unfold execTakeoverShadowLoaded
  repeat' (with_reducible first
    | assumption | extract_lets | refine IfNext.next ?_ | refine State.zeroMem_keeps ?_ | refine State.replay_keeps ?_
    | refine State.seedCore_keeps ?_ | refine State.goDark_keeps ?_ | refine State.setCore_keeps ?_ | split)

theorem execTakeover_keeps {s0 s : State} {c ns} (hs : Keeps s0 s) :
    IfNext (Keeps s0) (execTakeover c ns s) := by
  unfold execTakeover
  repeat' (with_reducible first
    | assumption | extract_lets | refine IfNext.next ?_ | refine State.modCore_keeps ?_ | refine State.takenOver_keeps ?_
    | refine State.releaseHeld_keeps ?_ | refine State.doorRelease_keeps ?_ | split)

theorem execUnderstudyLost_keeps {s0 s : State} {t b} (hs : Keeps s0 s) :
    IfNext (Keeps s0) (execUnderstudyLost t b s) := by
  unfold execUnderstudyLost
  repeat' (with_reducible first
    | assumption | extract_lets | refine IfNext.next ?_ | refine State.fault_keeps ?_ | refine State.setTroupe_keeps ?_ | split)

theorem execPlaneFailover_keeps {s0 s : State} {st ns} (hs : Keeps s0 s) :
    IfNext (Keeps s0) (execPlaneFailover st ns s) := by
  unfold execPlaneFailover
  repeat' (with_reducible first
    | assumption | refine IfNext.next ?_ | refine State.fault_keeps ?_ | refine State.modStage_keeps ?_ | split)

theorem execCuratorFailover_keeps {s0 s : State} {k ns} (hs : Keeps s0 s) :
    IfNext (Keeps s0) (execCuratorFailover k ns s) := by
  unfold execCuratorFailover
  repeat' (with_reducible first
    | assumption | extract_lets | refine IfNext.next ?_ | refine State.fault_keeps ?_ | refine State.record_keeps ?_ | split
    | refine KeepsL.fst ?_ | refine Keeps.upd ?_ rfl rfl rfl rfl)

theorem execPhaseLost_keeps {s0 s : State} {rail phase} (hs : Keeps s0 s) :
    IfNext (Keeps s0) (execPhaseLost rail phase s) := by
  unfold execPhaseLost
  repeat' (with_reducible first
    | assumption | refine IfNext.next ?_ | refine State.fault_keeps ?_ | refine State.record_keeps ?_ | split | refine KeepsL.fst ?_
    | refine Keeps.upd ?_ rfl rfl rfl rfl)

theorem State.each_keeps {s0 s : State} {f : State → Nat → State} {x2} (hs : Keeps s0 s) (kf : ∀ y0 y1, Keeps s0 y0 → Keeps s0 (f y0 y1)) :
    Keeps s0 (State.each s f x2) := by
  fun_induction State.each s f x2
  all_goals repeat' (with_reducible first | apply_assumption)

theorem State.coreShut_keeps {s0 s : State} {c} (hs : Keeps s0 s) :
    Keeps s0 (State.coreShut s c) := by
  unfold State.coreShut
  repeat' (with_reducible first
    | assumption | refine State.refuseWaiting_keeps ?_ | refine State.modCore_keeps ?_ | refine State.takenOver_keeps ?_
    | refine State.doorRelease_keeps ?_ | refine State.coreFails_keeps ?_ | split | refine Keeps.upd ?_ rfl rfl rfl rfl)

theorem State.shutUnits_keeps {s0 s : State} {r} (hs : Keeps s0 s) :
    Keeps s0 (State.shutUnits s r) := by
  unfold State.shutUnits
  repeat' (with_reducible first
    | assumption | extract_lets | refine State.modStage_keeps ?_ | refine State.modTroupe_keeps ?_ | refine State.modCore_keeps ?_
    | refine State.each_keeps ?_ ?_ | refine State.modCon_keeps ?_ | refine State.coreShut_keeps ?_ | split | (intro _)
    | refine Keeps.upd ?_ rfl rfl rfl rfl)

theorem State.resetUnit_keeps {s0 s : State} {wipe ens u} (hs : Keeps s0 s) :
    Keeps s0 (State.resetUnit s wipe ens u) := by
  unfold State.resetUnit
  repeat' (with_reducible first
    | assumption | refine State.modStage_keeps ?_ | refine State.modTroupe_keeps ?_ | refine State.doorNotice_keeps ?_
    | refine State.each_keeps ?_ ?_ | refine State.measure_keeps ?_ | refine State.shutUnits_keeps ?_ | split | (intro _)
    | refine Keeps.upd ?_ rfl rfl rfl rfl)

theorem State.resetUnits_keeps {s0 s : State} {wipe ens x3} (hs : Keeps s0 s) :
    Keeps s0 (State.resetUnits s wipe ens x3) := by
  fun_induction State.resetUnits s wipe ens x3
  all_goals repeat' (with_reducible first
    | assumption | extract_lets | exact Keeps.refl _ | refine State.resetUnit_keeps ?_ | split | apply_assumption)

theorem State.resetFar_keeps {s0 s : State} {bounds x2} (hs : Keeps s0 s) :
    KeepsL s0 (State.resetFar s bounds x2) := by
  fun_induction State.resetFar s bounds x2
  all_goals repeat' (with_reducible first
    | refine State.request_keeps ?_ | refine KeepsL.get (by assumption) ?_ | apply_assumption | refine KeepsL.mk ?_)

theorem State.resetName_keeps {s0 s : State} {bounds wipe u} (hs : Keeps s0 s) :
    KeepsL s0 (State.resetName s bounds wipe u) := by
  unfold State.resetName
  repeat' (with_reducible first
    | assumption | refine State.resetUnits_keeps ?_ | refine State.each_keeps ?_ ?_ | refine State.resetFar_keeps ?_
    | refine State.setEnsemble_keeps ?_ | split | (intro _) | refine KeepsL.mk ?_ | refine KeepsL.fst ?_)

theorem execReset_keeps {s0 s : State} {h0 u options} (hs : Keeps s0 s) :
    IfNext (Keeps s0) (execReset h0 u options s) := by
  unfold execReset
  repeat' (with_reducible first
    | assumption | extract_lets | refine IfNext.next ?_ | refine State.command_keeps ?_ ?_ | refine refused_keeps ?_
    | refine State.resetName_keeps ?_ | refine KeepsL.get (by assumption) ?_ | split | (intro _))

theorem State.serveReset_keeps {s0 s : State} {r} (hs : Keeps s0 s) :
    Keeps s0 (State.serveReset s r) := by
  unfold State.serveReset
  repeat' (with_reducible first
    | assumption | extract_lets | refine State.reply_keeps ?_ | refine State.resetName_keeps ?_ | split | refine KeepsL.fst ?_)

theorem execMioderUnitReset_keeps {s0 s : State} {r} (hs : Keeps s0 s) :
    IfNext (Keeps s0) (execMioderUnitReset r s) := by
  unfold execMioderUnitReset
  repeat' (with_reducible first
    | assumption | refine IfNext.next ?_ | refine State.receive_keeps ?_ | refine State.serveReset_keeps ?_ | split
    | refine KeepsL.fst ?_)

theorem State.modReset_keeps {s0 s : State} {k f} (hs : Keeps s0 s) :
    Keeps s0 (State.modReset s k f) := hs.upd rfl rfl rfl rfl

theorem State.wiping_keeps {s0 s : State} (hs : Keeps s0 s) :
    Keeps s0 (State.wiping s) := hs.upd rfl rfl rfl rfl

theorem execResetQuiesced_keeps {s0 s : State} {k} (hs : Keeps s0 s) :
    IfNext (Keeps s0) (execResetQuiesced k s) := by
  unfold execResetQuiesced
  repeat' (with_reducible first
    | assumption | refine IfNext.next ?_ | refine State.wiping_keeps ?_ | refine State.modReset_keeps ?_
    | refine State.each_keeps ?_ ?_ | refine State.resetEngine_keeps ?_ | split | (intro _))

theorem State.shardLost_keeps {s0 s : State} {n i} (hs : Keeps s0 s) :
    Keeps s0 (State.shardLost s n i) := by
  unfold State.shardLost
  repeat' (with_reducible first | assumption | refine State.shardEmpty_keeps ?_ | refine State.modCon_keeps ?_ | split)

theorem State.wipeShards_keeps {s0 s : State} {l} (hs : Keeps s0 s) :
    Keeps s0 (State.wipeShards s l) := by
  unfold State.wipeShards
  repeat' (with_reducible first | assumption | refine State.shardLost_keeps ?_ | refine Keeps.foldl ?_ ?_ | (intro _))

theorem State.wipeSpan_keeps {s0 s : State} {x} (hs : Keeps s0 s) :
    Keeps s0 (State.wipeSpan s x) := by
  unfold State.wipeSpan
  repeat' (with_reducible first
    | assumption | refine State.zeroMem_keeps ?_ | refine State.galleryWritten_keeps ?_ | refine State.collsWiped_keeps ?_ | split)

theorem execWipeEnd_keeps {s0 s : State} {k} (hs : Keeps s0 s) :
    IfNext (Keeps s0) (execWipeEnd k s) := by
  unfold execWipeEnd
  repeat' (with_reducible first
    | assumption | refine IfNext.next ?_ | refine State.wiping_keeps ?_ | refine State.wipeSpan_keeps ?_
    | refine State.wipeShards_keeps ?_ | refine State.modReset_keeps ?_ | refine Keeps.foldl ?_ ?_ | split | (intro _))

theorem State.coreOpens_keeps {s0 s : State} {c} (hs : Keeps s0 s) :
    Keeps s0 (State.coreOpens s c) := by
  unfold State.coreOpens
  repeat' (with_reducible first | assumption | extract_lets | refine State.seedCore_keeps ?_ | refine State.modCore_keeps ?_ | split)

theorem State.troupeOpens_keeps {s0 s : State} {t} (hs : Keeps s0 s) :
    Keeps s0 (State.troupeOpens s t) := hs.upd rfl rfl rfl rfl

theorem State.openUnits_keeps {s0 s : State} {r} (hs : Keeps s0 s) :
    Keeps s0 (State.openUnits s r) := by
  unfold State.openUnits
  repeat' (with_reducible first
    | assumption | refine State.troupeOpens_keeps ?_ | refine State.modStage_keeps ?_ | refine State.coreOpens_keeps ?_
    | refine State.each_keeps ?_ ?_ | refine State.modCon_keeps ?_ | split | (intro _) | refine Keeps.upd ?_ rfl rfl rfl rfl)

theorem execDoorOpen_keeps {s0 s : State} {k} (hs : Keeps s0 s) :
    IfNext (Keeps s0) (execDoorOpen k s) := by
  unfold execDoorOpen
  repeat' (with_reducible first
    | assumption | extract_lets | exact Keeps.refl _ | refine IfNext.next ?_ | refine State.doorNotice_keeps ?_
    | refine State.openUnits_keeps ?_ | split | refine Keeps.upd ?_ rfl rfl rfl rfl)

/-- The cap after reset. -/

theorem capOk : 1200 ≤ (2400#12).toNat ∧ (2400#12).toNat ≤ 2400 := by decide

theorem State.blank_keeps {s0 s : State} (hs : Keeps s0 s) : Keeps s0 (State.blank s) :=
  hs.trans ⟨rfl, fun _ => rfl, rfl, rfl, rfl, fun x => ⟨x, List.prefix_rfl⟩, Nat.le_refl _, List.prefix_rfl,
    fun _ => ⟨fun _ => rfl, fun _ => rfl, capOk.1, capOk.2⟩, fun _ => Nat.zero_le _⟩

theorem State.beginCold_keeps {s0 s : State} {straps} (ht : s.mod.sound → s.mod.tripped = false) (hs : Keeps s0 s) :
    Keeps s0 (State.beginCold s straps) :=
  hs.trans ⟨rfl, fun _ => rfl, rfl, rfl, rfl, fun x => ⟨x, List.prefix_rfl⟩, Nat.le_refl _, List.prefix_rfl,
    fun x => ⟨nofun, fun h => absurd (h.symm.trans (ht x)) nofun, capOk.1, capOk.2⟩, fun _ => Nat.zero_le _⟩

theorem execColdStart_keeps {s0 s : State} {straps} (hs : Keeps s0 s) : IfNext (Keeps s0) (execColdStart straps s) := by
  unfold execColdStart
  refine IfNext.next ?_
  split
  · rename_i h
    refine State.beginCold_keeps (fun x => ?_) hs
    rcases h with h | h
    · cases ht : s.mod.tripped with
      | false => rfl
      | true => exact absurd (h.symm.trans (x.2.1 ht)) nofun
    · simpa using h.2.2
  · exact hs

theorem State.endPhase_keeps {s0 s : State} {k next} (hs : Keeps s0 s) :
    Keeps s0 (State.endPhase s k next) := hs.upd rfl rfl rfl rfl

theorem State.bringupStops_keeps {s0 s : State} {k st} (hs : Keeps s0 s) :
    Keeps s0 (State.bringupStops s k st) := hs.upd rfl rfl rfl rfl

theorem State.bringupFails_keeps {s0 s : State} {k st} (hs : Keeps s0 s) :
    Keeps s0 (State.bringupFails s k st) := hs.upd rfl rfl rfl rfl

theorem State.endOrFail_keeps {s0 s : State} {k fatal next} (hs : Keeps s0 s) :
    Keeps s0 (State.endOrFail s k fatal next) := by
  unfold State.endOrFail
  repeat' (with_reducible first | assumption | refine State.endPhase_keeps ?_ | refine State.bringupFails_keeps ?_ | split)

theorem State.checkRuntime_keeps {s0 s : State} (hs : Keeps s0 s) :
    Keeps s0 (State.checkRuntime s) := by
  unfold State.checkRuntime
  repeat' (with_reducible first | assumption | refine State.fault_keeps ?_ | split | refine Keeps.upd ?_ rfl rfl rfl rfl)

theorem State.curatorReady_keeps {s0 s : State} (hp : s.mod.power = .on) (hs : Keeps s0 s) : Keeps s0 (State.curatorReady s) :=
  State.fresh_keeps (hs.trans ⟨rfl, id, rfl, rfl, rfl, fun x => ⟨x, List.prefix_rfl⟩, Nat.le_refl _, List.prefix_rfl,
    fun x => ⟨fun h => absurd (hp.symm.trans h) nofun, x.2.1, x.2.2⟩, id⟩)

theorem State.endCurator_keeps {s0 s : State} {fatal} (hp : s.mod.power = .on) (hs : Keeps s0 s) : Keeps s0 (State.endCurator s fatal) := by
  unfold State.endCurator
  extract_lets +onlyGivenNames b
  split
  · exact State.bringupStops_keeps hs
  · extract_lets f u
    have hu : Keeps s0 u := hs.upd rfl rfl rfl rfl
    have hq : u.mod.power = .on := hp
    clear_value u
    split
    · exact State.bringupFails_keeps hu
    · exact State.endPhase_keeps (State.checkRuntime_keeps (State.curatorReady_keeps hq hu))

theorem State.applyChannel_keeps {s0 s : State} {w} (hs : Keeps s0 s) :
    Keeps s0 (State.applyChannel s w) := by
  unfold State.applyChannel
  repeat' (with_reducible first
    | assumption | extract_lets | refine State.modGroup_keeps ?_ | refine State.checkLost_keeps ?_ | split)

theorem State.applyPage_keeps {s0 s : State} {w} (hs : Keeps s0 s) :
    Keeps s0 (State.applyPage s w) := hs.upd rfl rfl rfl rfl

theorem State.bankOut_keeps {s0 s : State} {d b} (hs : Keeps s0 s) :
    Keeps s0 (State.bankOut s d b) := by
  unfold State.bankOut
  repeat' (with_reducible first | assumption | refine State.vaultNotice_keeps ?_ | refine State.modDie_keeps ?_ | split)

theorem State.applyRow_keeps {s0 s : State} {w} (hs : Keeps s0 s) :
    Keeps s0 (State.applyRow s w) := by
  unfold State.applyRow
  repeat' (with_reducible first | assumption | extract_lets | refine State.bankOut_keeps ?_ | refine State.modDie_keeps ?_ | split)

theorem State.recordRow_keeps {s0 s : State} {x} (hs : Keeps s0 s) :
    Keeps s0 (State.recordRow s x) := by
  unfold State.recordRow
  repeat' (with_reducible first
    | assumption | extract_lets | refine State.applyRow_keeps ?_ | refine State.record_keeps ?_ | split | refine KeepsL.fst ?_)

theorem State.portUp_keeps {s0 s : State} {p} (hs : Keeps s0 s) :
    Keeps s0 (State.portUp s p) := hs.upd rfl rfl rfl rfl

theorem State.endMemory_keeps {s0 s : State} {rows} (hs : Keeps s0 s) :
    Keeps s0 (State.endMemory s rows) := by
  unfold State.endMemory
  repeat' (with_reducible first
    | assumption | refine State.portUp_keeps ?_ | refine State.zeroMem_keeps ?_ | refine State.applyChannel_keeps ?_
    | refine State.applyRow_keeps ?_ | refine State.each_keeps ?_ ?_ | refine State.recordRow_keeps ?_
    | refine State.endPhase_keeps ?_ | refine State.applyPage_keeps ?_ | refine Keeps.foldl ?_ ?_ | (intro _)
    | refine Keeps.upd ?_ rfl rfl rfl rfl)

theorem execBringupPhaseEnd_keeps {s0 s : State} {e} (hs : Keeps s0 s) : IfNext (Keeps s0) (execBringupPhaseEnd e s) := by
  unfold execBringupPhaseEnd
  split
  · exact IfNext.next hs
  · rename_i hp
    have hp : s.mod.power = .on := Classical.not_not.mp hp
    split
    · exact IfNext.next (State.endCurator_keeps hp hs)
    · exact IfNext.next (State.endOrFail_keeps hs)
    · exact IfNext.next (State.endOrFail_keeps hs)
    · exact IfNext.next (State.endMemory_keeps hs)
    · refine IfNext.next ?_
      split
      · exact hs
      · exact State.endPhase_keeps hs
    · refine IfNext.next ?_
      split
      · exact State.endPhase_keeps hs
      · exact hs
    · exact IfNext.next hs
    · exact IfNext.next hs

theorem State.coreStarts_keeps {s0 s : State} {t k} (hs : Keeps s0 s) :
    Keeps s0 (State.coreStarts s t k) := by
  unfold State.coreStarts
  repeat' (with_reducible first | assumption | extract_lets | refine State.seedCore_keeps ?_ | refine State.modCore_keeps ?_ | split)

theorem State.troupeStarts_keeps {s0 s : State} {failed t} (hs : Keeps s0 s) :
    Keeps s0 (State.troupeStarts s failed t) := by
  unfold State.troupeStarts
  repeat' (with_reducible first
    | assumption | refine State.coreStarts_keeps ?_ | refine State.modTroupe_keeps ?_ | refine State.record_keeps ?_
    | refine State.each_keeps ?_ ?_ | refine Keeps.foldl ?_ ?_ | (intro _) | refine KeepsL.fst ?_)

theorem execTroupeWaveStart_keeps {s0 s : State} {w failed} (hs : Keeps s0 s) :
    IfNext (Keeps s0) (execTroupeWaveStart w failed s) := by
  unfold execTroupeWaveStart
  repeat' (with_reducible first
    | assumption | refine IfNext.next ?_ | refine State.each_keeps ?_ ?_ | refine State.troupeStarts_keeps ?_ | split | (intro _)
    | refine Keeps.upd ?_ rfl rfl rfl rfl)

theorem execBringupStatus_keeps {s0 s : State} {h0} (hs : Keeps s0 s) :
    IfNext (Keeps s0) (execBringupStatus h0 s) := by
  unfold execBringupStatus
  repeat' (with_reducible first
    | assumption | refine IfNext.next ?_ | refine State.command_keeps ?_ ?_ | (intro _) | refine KeepsL.mk ?_)

theorem execCatalogueRead_keeps {s0 s : State} {h0 index first} (hs : Keeps s0 s) :
    IfNext (Keeps s0) (execCatalogueRead h0 index first s) := by
  unfold execCatalogueRead
  repeat' (with_reducible first
    | assumption | refine IfNext.next ?_ | refine State.command_keeps ?_ ?_ | refine refused_keeps ?_ | split | (intro _)
    | refine KeepsL.mk ?_)

theorem State.firmwareStage_keeps {s0 s : State} {a n} (hs : Keeps s0 s) : IfOk (Keeps s0) (State.firmwareStage s a n) := by
  unfold State.firmwareStage
  split
  · exact IfOk.error
  · split
    · exact IfOk.error
    · split
      · exact IfOk.error
      · split
        · exact IfOk.error
        · split
          · exact IfOk.error
          · refine IfOk.ok (State.measure_keeps ?_)
            cases h : s.flash.bank <;> exact hs.upd rfl rfl rfl rfl

theorem execFirmwareStage_keeps {s0 s : State} {h0 a n} (hs : Keeps s0 s) :
    IfNext (Keeps s0) (execFirmwareStage h0 a n s) := by
  unfold execFirmwareStage
  repeat' (with_reducible first
    | assumption | refine IfNext.next ?_ | refine State.command_keeps ?_ ?_ | refine answerState_keeps ?_ ?_
    | refine State.firmwareStage_keeps ?_ | (intro _))

theorem State.folioYields_keeps {s0 s : State} {k} (hs : Keeps s0 s) :
    Keeps s0 (State.folioYields s k) := by
  unfold State.folioYields
  repeat' (with_reducible first | assumption | refine State.folioClose_keeps ?_ | refine State.measure_keeps ?_ | split)

theorem execFirmwareActivate_keeps {s0 s : State} {h0} (hs : Keeps s0 s) :
    IfNext (Keeps s0) (execFirmwareActivate h0 s) := by
  unfold execFirmwareActivate
  repeat' (with_reducible first
    | assumption | refine IfNext.next ?_ | refine State.command_keeps ?_ ?_ | refine State.folioYields_keeps ?_
    | refine State.each_keeps ?_ ?_ | refine refused_keeps ?_ | split | (intro _) | refine KeepsL.mk ?_
    | refine Keeps.upd ?_ rfl rfl rfl rfl)

theorem State.servesAgain_keeps {s0 s : State} (hs : Keeps s0 s) :
    Keeps s0 (State.servesAgain s) := hs.upd rfl rfl rfl rfl

theorem execFirmwareRunning_keeps {s0 s : State} (hs : Keeps s0 s) : IfNext (Keeps s0) (execFirmwareRunning s) := by
  unfold execFirmwareRunning
  split
  · exact IfNext.next hs
  · refine IfNext.next (State.servesAgain_keeps (State.measure_keeps (hs.trans
      ⟨rfl, id, rfl, rfl, rfl, fun x => ⟨x, List.prefix_rfl⟩, ?_, List.prefix_rfl, id, id⟩)))
    dsimp only
    split
    · exact Nat.le_of_lt (by assumption)
    · exact Nat.le_refl _

theorem execFwFallback_keeps {s0 s : State} (hs : Keeps s0 s) :
    IfNext (Keeps s0) (execFwFallback s) := by
  unfold execFwFallback
  repeat' (with_reducible first
    | assumption | refine IfNext.next ?_ | refine State.servesAgain_keeps ?_ | refine State.fault_keeps ?_
    | refine State.fresh_keeps ?_ | split | refine Keeps.upd ?_ rfl rfl rfl rfl)

theorem State.logPower_keeps {s0 s : State} {code} (hs : Keeps s0 s) :
    Keeps s0 (State.logPower s code) := hs.upd rfl rfl rfl rfl

theorem State.endsFor_keeps {s0 s : State} {cause} (hs : Keeps s0 s) :
    Keeps s0 (State.endsFor s cause) := by
  unfold State.endsFor
  repeat' (with_reducible first
    | assumption | refine State.logPower_keeps ?_ | refine State.blank_keeps ?_ | refine Keeps.upd ?_ rfl rfl rfl rfl)

theorem State.endsFor_power (s : State) (c : Nat) : (s.endsFor c).mod.power = .off := rfl

/-- Only the pins change while the rails are off. -/

theorem Keeps.modOff {s0 s : State} {m : Module} (hs : Keeps s0 s) (hp : m.power = .off) (ho : s.mod.sound → m.pwrOk = false)
    (hc : m.powerCapW = s.mod.powerCapW) : Keeps s0 { s with mod := m } :=
  hs.trans ⟨rfl, id, rfl, rfl, rfl, fun x => ⟨x, List.prefix_rfl⟩, Nat.le_refl _, List.prefix_rfl,
    fun x => ⟨fun _ => ho x, fun _ => hp, by rw [hc]; exact x.2.2⟩, id⟩

theorem State.trip_keeps {s0 s : State} {c} (hs : Keeps s0 s) : Keeps s0 (State.trip s c) :=
  (State.endsFor_keeps (cause := c) hs).modOff rfl (fun _ => rfl) rfl

theorem execModEnLow_keeps {s0 s : State} (hs : Keeps s0 s) : IfNext (Keeps s0) (execModEnLow s) := by
  unfold execModEnLow
  refine IfNext.next ?_
  split
  · rename_i h
    exact hs.modOff h (fun x => x.1 h) rfl
  · exact (State.endsFor_keeps hs).modOff rfl (fun _ => rfl) rfl

theorem execModRstNLow_keeps {s0 s : State} (hs : Keeps s0 s) : IfNext (Keeps s0) (execModRstNLow s) := by
  unfold execModRstNLow
  split
  · rename_i h
    exact IfNext.next (hs.modOff h (fun x => x.1 h) rfl)
  split
  · exact IfNext.next hs
  · rename_i hp
    have hp : s.mod.power = .on := Classical.not_not.mp hp
    refine IfNext.next (hs.trans ⟨rfl, fun _ => rfl, rfl, rfl, rfl, fun x => ⟨x, List.prefix_rfl⟩, Nat.le_refl _, List.prefix_rfl,
      fun x => ⟨nofun, fun h => absurd (hp.symm.trans (x.2.1 h)) nofun, capOk.1, capOk.2⟩, fun _ => Nat.zero_le _⟩)

theorem execInputOutOfRange_keeps {s0 s : State} {high} (hs : Keeps s0 s) :
    IfNext (Keeps s0) (execInputOutOfRange high s) := by
  unfold execInputOutOfRange
  repeat' (with_reducible first | assumption | refine IfNext.next ?_ | refine State.endsFor_keeps ?_ | split)

theorem execInputRecovered_keeps {s0 s : State} {straps} (hs : Keeps s0 s) : IfNext (Keeps s0) (execInputRecovered straps s) := by
  unfold execInputRecovered
  split
  · exact IfNext.next hs
  · rename_i h
    have ht : s.mod.tripped = false := by simp only [not_or, Bool.not_eq_true] at h; exact h.2.2
    split
    · exact IfNext.next (State.beginCold_keeps (fun _ => ht) hs)
    · exact IfNext.next (hs.trans ⟨rfl, id, rfl, rfl, rfl, fun x => ⟨x, List.prefix_rfl⟩, Nat.le_refl _, List.prefix_rfl,
        fun x => ⟨nofun, fun h => absurd (ht.symm.trans h) nofun, x.2.2⟩, id⟩)

theorem execBladeLost_keeps {s0 s : State} (hs : Keeps s0 s) :
    IfNext (Keeps s0) (execBladeLost s) := by
  unfold execBladeLost
  repeat' (with_reducible first
    | assumption | refine IfNext.next ?_ | refine State.logPower_keeps ?_ | split | refine Keeps.upd ?_ rfl rfl rfl rfl)

theorem execFlowShutdown_keeps {s0 s : State} (hs : Keeps s0 s) :
    IfNext (Keeps s0) (execFlowShutdown s) := by
  unfold execFlowShutdown
  repeat' (with_reducible first | assumption | refine IfNext.next ?_ | refine State.trip_keeps ?_ | split)

theorem execThermalTrip_keeps {s0 s : State} (hs : Keeps s0 s) :
    IfNext (Keeps s0) (execThermalTrip s) := by
  unfold execThermalTrip
  repeat' (with_reducible first
    | assumption | refine IfNext.next ?_ | refine State.trip_keeps ?_ | split | refine Keeps.upd ?_ rfl rfl rfl rfl)

theorem execRemoteSenseOpen_keeps {s0 s : State} {rail} (hs : Keeps s0 s) :
    IfNext (Keeps s0) (execRemoteSenseOpen rail s) := by
  unfold execRemoteSenseOpen
  repeat' (with_reducible first
    | assumption | refine IfNext.next ?_ | refine State.logPower_keeps ?_ | split | refine Keeps.upd ?_ rfl rfl rfl rfl)

theorem execRemoteSenseRestored_keeps {s0 s : State} {rail} (hs : Keeps s0 s) :
    IfNext (Keeps s0) (execRemoteSenseRestored rail s) := by
  unfold execRemoteSenseRestored
  repeat' (with_reducible first | assumption | refine IfNext.next ?_ | refine Keeps.upd ?_ rfl rfl rfl rfl)

theorem execSensorOpen_keeps {s0 s : State} {sensor} (hs : Keeps s0 s) :
    IfNext (Keeps s0) (execSensorOpen sensor s) := by
  unfold execSensorOpen
  repeat' (with_reducible first
    | assumption | refine IfNext.next ?_ | refine State.logPower_keeps ?_ | split | refine Keeps.upd ?_ rfl rfl rfl rfl)

theorem execSensorRestored_keeps {s0 s : State} {sensor} (hs : Keeps s0 s) :
    IfNext (Keeps s0) (execSensorRestored sensor s) := by
  unfold execSensorRestored
  repeat' (with_reducible first | assumption | refine IfNext.next ?_ | refine Keeps.upd ?_ rfl rfl rfl rfl)

theorem State.moveRail_keeps {s0 s : State} {st} (hs : Keeps s0 s) :
    Keeps s0 (State.moveRail s st) := hs.upd rfl rfl rfl rfl

theorem State.limits_keeps {s0 s : State} (hs : Keeps s0 s) :
    Keeps s0 (State.limits s) := hs.upd rfl rfl rfl rfl

theorem execGovernorSample_keeps {s0 s : State} {g} (hs : Keeps s0 s) :
    IfNext (Keeps s0) (execGovernorSample g s) := by
  unfold execGovernorSample
  repeat' (with_reducible first
    | assumption | refine IfNext.next ?_ | refine State.moveRail_keeps ?_ | refine State.limits_keeps ?_
    | refine State.each_keeps ?_ ?_ | split | (intro _) | refine Keeps.upd ?_ rfl rfl rfl rfl)

theorem execFlowRead_keeps {s0 s : State} {mlPerMin} (hs : Keeps s0 s) :
    IfNext (Keeps s0) (execFlowRead mlPerMin s) := by
  unfold execFlowRead
  repeat' (with_reducible first | assumption | refine IfNext.next ?_ | split | refine Keeps.upd ?_ rfl rfl rfl rfl)

theorem execPowerCapSet_keeps {s0 s : State} {h0 v} (hs : Keeps s0 s) : IfNext (Keeps s0) (execPowerCapSet h0 v s) := by
  refine IfNext.next (State.command_keeps hs fun s h => ?_)
  split
  · exact h
  · rename_i hv
    refine KeepsL.mk (h.trans ⟨rfl, id, rfl, rfl, rfl, fun x => ⟨x, List.prefix_rfl⟩, Nat.le_refl _, List.prefix_rfl,
      fun x => ⟨x.1, x.2.1, ?_⟩, id⟩)
    have : (BitVec.setWidth 12 v).toNat = v.toNat := by simp only [BitVec.toNat_setWidth]; omega
    simp only [this]
    omega

theorem execRailLimits_keeps {s0 s : State} {h0 st v} (hs : Keeps s0 s) :
    IfNext (Keeps s0) (execRailLimits h0 st v s) := by
  unfold execRailLimits
  repeat' (with_reducible first
    | assumption | extract_lets | refine IfNext.next ?_ | refine State.modStage_keeps ?_ | refine State.command_keeps ?_ ?_
    | refine refused_keeps ?_ | split | (intro _) | refine KeepsL.mk ?_)

theorem execTelemetryRead_keeps {s0 s : State} {h0} (hs : Keeps s0 s) :
    IfNext (Keeps s0) (execTelemetryRead h0 s) := by
  unfold execTelemetryRead
  repeat' (with_reducible first
    | assumption | refine IfNext.next ?_ | refine State.command_keeps ?_ ?_ | (intro _) | refine KeepsL.mk ?_)

theorem execTelemetryStream_keeps {s0 s : State} {h0 a v} (hs : Keeps s0 s) :
    IfNext (Keeps s0) (execTelemetryStream h0 a v s) := by
  unfold execTelemetryStream
  repeat' (with_reducible first
    | assumption | refine IfNext.next ?_ | refine State.command_keeps ?_ ?_ | refine refused_keeps ?_ | split | (intro _)
    | refine KeepsL.mk ?_ | refine Keeps.upd ?_ rfl rfl rfl rfl)

theorem execTelemetryPeriod_keeps {s0 s : State} (hs : Keeps s0 s) :
    IfNext (Keeps s0) (execTelemetryPeriod s) := by
  unfold execTelemetryPeriod
  repeat' (with_reducible first | assumption | refine IfNext.next ?_ | refine State.deviceWrite_keeps ?_ | split)

theorem execCalRead_keeps {s0 s : State} {h0 offset bytes} (hs : Keeps s0 s) :
    IfNext (Keeps s0) (execCalRead h0 offset bytes s) := by
  unfold execCalRead
  repeat' (with_reducible first
    | assumption | extract_lets | refine IfNext.next ?_ | refine State.command_keeps ?_ ?_ | refine refused_keeps ?_ | split
    | (intro _) | refine KeepsL.mk ?_)

theorem execCalWrite_keeps {s0 s : State} {h0 data} (hs : Keeps s0 s) :
    IfNext (Keeps s0) (execCalWrite h0 data s) := by
  unfold execCalWrite
  repeat' (with_reducible first
    | assumption | refine IfNext.next ?_ | refine State.command_keeps ?_ ?_ | refine State.measure_keeps ?_ | refine refused_keeps ?_
    | split | (intro _) | refine KeepsL.mk ?_ | refine Keeps.upd ?_ rfl rfl rfl rfl)

theorem execConditionCapture_keeps {s0 s : State} {h0} (hs : Keeps s0 s) :
    IfNext (Keeps s0) (execConditionCapture h0 s) := by
  unfold execConditionCapture
  repeat' (with_reducible first
    | assumption | refine IfNext.next ?_ | refine State.fresh_keeps ?_ | refine State.command_keeps ?_ ?_ | (intro _)
    | refine KeepsL.mk ?_ | refine Keeps.upd ?_ rfl rfl rfl rfl)

theorem execConditionRead_keeps {s0 s : State} {h0 offset bytes} (hs : Keeps s0 s) :
    IfNext (Keeps s0) (execConditionRead h0 offset bytes s) := by
  unfold execConditionRead
  repeat' (with_reducible first
    | assumption | refine IfNext.next ?_ | refine State.command_keeps ?_ ?_ | refine refused_keeps ?_ | split | (intro _)
    | refine KeepsL.mk ?_)

end Sys2Proof.Machine
end

