-- ==== Sys2Proof/Laws/Trans.lean ====
section
/-! SUPPORT. What a bounded result can be: within its bound, or the exact value rounded. -/

namespace Sys2Proof.Machine

/-- A free value near an exact one keeps the bound, or is the exact one rounded to FP32. -/
theorem near_spec (site x : Nat) (tol exact : FVal) :
    (near site x tol exact).within tol exact = true ∨ near site x tol exact = rnd32 exact := by
  by_cases h : (f32 (Config.bounded site x)).within tol exact = true
  · exact .inl (by simp [near, h])
  · exact .inr (by simp [near, h])

/-- A computed value keeps its bound, or stands for one that does or for the exact one rounded. -/
theorem held_spec (site x : Nat) (tol exact c : FVal) :
    (held site x tol exact c).within tol exact = true ∨ held site x tol exact c = rnd32 exact := by
  by_cases h : c.within tol exact = true
  · exact .inl (by simp [held, h])
  · simpa [held, h] using near_spec site x tol exact

/-- A computed value within its bound is the result. -/
theorem held_of_within {site x : Nat} {tol exact c : FVal} (h : c.within tol exact = true) : held site x tol exact c = c := if_pos h

end Sys2Proof.Machine
end

