-- ==== Sys2Proof/WellFormed.lean ====
section
/-! DEFINITION. What a command must be like to come from a well-formed packet or a possible event: operands that the spec bounds and
the type of the constructor does not. exec is defined on every term; these checks shut nothing out of it. -/

namespace Sys2Proof

/-- A DATA value (R362). -/
def fits (b : List Byte) : Bool := decide (b.length ≤ 65532)

/-- An address of the device (R196). -/
def inMap (a : Nat) : Bool := decide (a < 2 ^ 48)

/-- A request or response of an association: its index, path and payload (R306, R313). -/
def MioReq.wf (r : MioReq) : Bool := decide (r.assoc < 16384) && decide (r.path < 64) && decide (r.data.length ≤ 4096)
def MioResp.wf (r : MioResp) : Bool := decide (r.assoc < 16384) && decide (r.path < 64) && decide (r.data.length ≤ 4096)
def MioAck.wf (k : MioAck) : Bool := decide (k.assoc < 16384) && decide (k.path < 64)

def MioDrop.wf : MioDrop → Bool
  | .authentication => true
  | .notUp => true
  | .replay => true
  | .reservedOp _ r => r.wf

def AssocHs.wf : AssocHs → Bool
  | .init _ _ b => fits b
  | .resp _ _ b => fits b
  | .finish _ _ b => fits b
  | .abort _ _ => true

/-- A write stays in its line of `n` bytes (R202, R211). -/
def LineAcc.wf (n : Nat) : LineAcc → Bool
  | .read => true
  | .write off data => decide (0 < data.length) && decide (off + data.length ≤ n)

/-- A word of Wings (R196). -/
def WingsEcc.wf : WingsEcc → Bool
  | .clean => true
  | .corrected _ => true
  | .double _ off => decide (off < 0x400000)

def CoreFault.wf : CoreFault → Bool
  | .suspect => true
  | .wingsDouble off => decide (off < 0x400000)
  | .watchdog => true
  | .logic => true

def HandleSrc.wf : HandleSrc → Bool
  | .localCore _ _ => true
  | .remote a _ => decide (a < 16384)

/-- What a storage transfer brings, at most the whole Vault (R382). -/
def ServiceOutcome.wf : ServiceOutcome → Bool
  | .internal => true
  | .storage _ data => decide (data.length ≤ 2 ^ 41)

/-- Rows that the MEMORY test found (R425). -/
def PhaseEnd.wf (e : PhaseEnd) : Bool := e.galleryFails.all (fun x => decide (x.2.1 < 512) && decide (x.2.2 < 65536))

/-- Sixteen junctions and four paces (R386, R455). -/
def PowerSample.wf (g : PowerSample) : Bool := g.tj.length == 16 && g.pace.length == 4

/-- A command is well formed. -/
def Instr.wf : Instr → Bool
  | .vecCueComplete _ => true
  | .strStart _ ecc => ecc.wf
  | .strRearm _ => true
  | .strRelease _ => true
  | .strTake _ => true
  | .streamTileResident _ _ => true
  | .streamTransferComplete _ _ => true
  | .shadowInEffect _ _ => true
  | .handleArrival _ _ _ src => src.wf
  | .handleReleaseAnswer _ _ _ => true
  | .send c => c.ecc.wf
  | .recv _ => true
  | .compl _ => true
  | .msgCreditGrant _ _ => true
  | .msgCompleteInRing _ _ => true
  | .recvCopyDone _ => true
  | .sendComplete _ _ => true
  | .tokenSignalArrival _ _ => true
  | .rampLevelStep _ _ => true
  | .holdFillEnd _ _ => true
  | .fillBudgetExhausted _ => true
  | .fillWindowReset _ => true
  | .sceneCommit _ => true
  | .rngReseed _ _ => true
  | .entropyHealthFail _ => true
  | .entropyHealthOk _ => true
  | .tableSlotWrite _ _ off _ => decide (off < 4160)
  | .tableSlotCrcWrite _ _ _ => true
  | .tableReread _ _ _ => true
  | .tableSlotReload _ _ => true
  | .rootCue _ => true
  | .rootJobStart _ => true
  | .rootJobBoundary _ => true
  | .rootJobEnd _ => true
  | .rootDeadlineMiss _ _ => true
  | .rootAssemblyStart _ => true
  | .rootAssemblyComplete _ => true
  | .slotClear _ _ => true
  | .galleryLineAdd addr _ _ => inMap addr
  | .galleryLineAccess addr acc _ => inMap addr && acc.wf 256
  | .galleryPatrolScrub addr _ => inMap addr
  | .vaultLineAccess addr acc _ => inMap addr && acc.wf 1024
  | .chHeld _ _ => true
  | .driftRetrain _ _ => true
  | .retrainStart _ _ => true
  | .retrainAttemptEnd _ _ => true
  | .pageRebuilt _ => true
  | .rowRepairStart _ _ addr _ => inMap addr
  | .rowRepaired _ addr => inMap addr
  | .pageStateError _ word => decide (word < 524288)
  | .pageConverted _ => true
  | .noticeOffer => true
  | .nqConfigWrite _ _ => true
  | .nqHeadWrite _ _ => true
  | .nqFlush _ => true
  | .flushGapPublish _ => true
  | .nqAnnounceWrite _ => true
  | .runStart _ => true
  | .runStop _ => true
  | .hqEnableWrite _ _ _ => true
  | .hqInjectWrite _ _ => true
  | .hqPriorityWrite _ _ _ => true
  | .registerWrite _ _ => true
  | .registerReadClear _ => true
  | .credGo _ _ => true
  | .ownerRelease _ => true
  | .gradientClose _ _ => true
  | .closeCopyDone _ => true
  | .closeZeroDone _ => true
  | .sweepStart _ _ => true
  | .sweepPassStart _ => true
  | .sweepBlockDone _ => true
  | .skipCopyDone _ => true
  | .sweepCommit _ => true
  | .compareDone _ => true
  | .mioderPut r => r.wf
  | .mioderGet r => r.wf
  | .mioderAtomic r => r.wf
  | .mioderAdd r => r.wf
  | .mioderMsg r => r.wf
  | .mioderToken r => r.wf
  | .mioderHandle r => r.wf
  | .mioderUnitReset r => r.wf
  | .mioderUnitDescribe r => r.wf
  | .mioderRegRead r => r.wf
  | .mioderRegWrite r => r.wf
  | .mioderResponse r => r.wf
  | .mioderAck k => k.wf
  | .mioderProbe _ path _ _ => decide (path < 64)
  | .retransmitTimeout _ _ => true
  | .pathProbeTimer _ path => decide (path < 64)
  | .idleProbe _ path => decide (path < 64)
  | .msgBusyRetry _ _ => true
  | .subPortDown _ _ _ => true
  | .subPortUp _ _ _ _ => true
  | .subportRetrainEnd _ _ _ => true
  | .subportRetryTimer _ _ => true
  | .assocHandshake _ m _ => m.wf
  | .assocOpenTimeout _ => true
  | .assocTimeout _ => true
  | .counterRekey _ => true
  | .rxOldKeyExpire _ => true
  | .migratePassDone _ => true
  | .migrateComplete _ => true
  | .collRunStart _ => true
  | .collDeviceDone _ => true
  | .mioderCollData r => r.wf
  | .mioderCollReady r => r.req.wf && (r.digest.isEmpty || r.digest.length == 64)
  | .mioderCollDone r => r.wf
  | .mioderCollAbort r => r.wf
  | .mioderCollGns r => r.wf
  | .collTimeout _ => true
  | .phaseTransitionStart _ => true
  | .chainChunkReceived _ => true
  | .chunkVerified _ chunk => decide (chunk < 65536)
  | .discover _ => true
  | .inventory _ => true
  | .unitDescribe _ _ => true
  | .ensembleDefine _ members _ => decide (members.length ≤ 4096)
  | .ensembleEdit _ _ members remove => decide (members.length ≤ 4096) && decide (remove.length ≤ 4096)
  | .ensembleDelete _ _ => true
  | .productionLoad _ _ _ _ => true
  | .productionRun _ _ _ => true
  | .productionStop _ _ _ => true
  | .productionUnload _ _ => true
  | .productionList _ => true
  | .shardLoad _ _ _ => true
  | .shardResumeRetry _ _ _ => true
  | .shardResumeDiscard _ _ _ => true
  | .shardUnload _ _ _ => true
  | .shardCompare _ _ _ => true
  | .rootSubmit _ _ _ _ => true
  | .rootCancel _ _ => true
  | .collectivePost _ _ => true
  | .collectiveRun _ _ => true
  | .collectiveCancel _ _ => true
  | .collectiveRelease _ _ => true
  | .mappingPost _ _ _ => true
  | .mappingRelease _ _ => true
  | .memRead _ _ _ => true
  | .memWrite _ _ data => fits data
  | .memFill _ _ _ _ _ => true
  | .regRead _ _ => true
  | .regWrite _ _ _ => true
  | .fabricSetId _ _ => true
  | .portConfigure _ _ _ => true
  | .portAddress _ _ ip => decide (ip.length ≤ 8)
  | .assocOpen _ _ ip _ _ => decide (ip.length ≤ 8)
  | .assocClose _ _ => true
  | .assocRekey _ _ => true
  | .assocDescribe _ _ => true
  | .accessionSet _ _ data => fits data
  | .accessionClear _ _ => true
  | .segmentMigrate _ _ _ _ _ => true
  | .accessionRead _ _ => true
  | .attest _ nonce _ => fits nonce
  | .sessionOpenInit _ init => fits init
  | .sessionOpenFinish _ _ signature => fits signature
  | .sessionClose _ => true
  | .folioKey _ _ record => fits record
  | .vaultRotate _ => true
  | .hostModeEnter _ devices => decide (devices.length ≤ 4096)
  | .hostModeLeave _ => true
  | .storeAttach _ _ _ nqn _ _ => fits nqn
  | .storeDetach _ _ => true
  | .storeRead _ _ _ _ _ _ _ => true
  | .storeWrite _ _ _ _ _ _ _ => true
  | .storeConnectionLost _ => true
  | .folioLoad _ _ _ _ _ _ _ => true
  | .folioUnload _ _ => true
  | .folioDecryptDone _ => true
  | .checkpointWrite _ _ _ _ _ _ => true
  | .checkpointRestore _ _ _ _ _ => true
  | .nqConfigure _ _ _ => true
  | .nqRead _ _ _ => true
  | .nqAdvance _ _ _ => true
  | .nqFlushCmd _ _ => true
  | .nqAnnounce _ _ _ => true
  | .resultRead _ _ _ => true
  | .resultRelease _ _ _ => true
  | .asyncCommandEnd _ env => env.wf
  | .resultSlotExpire _ => true
  | .powerCapSet _ _ => true
  | .railLimits _ _ _ => true
  | .telemetryRead _ => true
  | .telemetryStream _ _ _ => true
  | .telemetryPeriod => true
  | .reset _ _ _ => true
  | .resetQuiesced _ => true
  | .wipeEnd _ => true
  | .doorOpen _ => true
  | .replyDiscarded _ _ => true
  | .bringupStatus _ => true
  | .catalogueRead _ _ _ => true
  | .firmwareStage _ _ _ => true
  | .firmwareActivate _ => true
  | .firmwareRunning => true
  | .fwFallback => true
  | .calRead _ _ _ => true
  | .calWrite _ data => fits data
  | .rehearsalEnter _ => true
  | .rehearsalLeave _ => true
  | .accumRead _ _ _ => true
  | .regForce _ _ _ => true
  | .conditionCapture _ => true
  | .conditionRead _ _ _ => true
  | .cmdFragmentTimeout _ => true
  | .sessionIdleTimeout _ => true
  | .sessionCounterClose _ => true
  | .handshakeExpire _ => true
  | .coldStart _ => true
  | .bringupPhaseEnd e => e.wf
  | .troupeWaveStart _ failed => failed.all (fun p => decide (p < 576))
  | .coreFaultDetected _ f => f.wf
  | .takeoverShadowLoaded _ _ => true
  | .takeover _ _ => true
  | .understudyLost _ _ => true
  | .planeFailover _ _ => true
  | .curatorFailover _ _ => true
  | .phaseLost _ _ => true
  | .modEnLow => true
  | .modRstNLow => true
  | .inputOutOfRange _ => true
  | .inputRecovered _ => true
  | .bladeLost => true
  | .governorSample g => g.wf
  | .flowRead _ => true
  | .flowShutdown => true
  | .thermalTrip => true
  | .remoteSenseOpen _ => true
  | .sensorOpen _ => true
  | .accumulatorsKept _ => true
  | .assemblyGroupEnd _ => true
  | .factorFoldDone _ => true
  | .describeMemberTimeout _ _ => true
  | .commandPacketRejected _ _ _ => true
  | .mioderPacketDropped _ why => why.wf
  | .remoteSenseRestored _ => true
  | .sensorRestored _ => true
  | .nop _ => true
  | .jump _ => true
  | .loopSet _ => true
  | .loopBranch _ => true
  | .scene _ => true
  | .halt _ => true
  | .agBase _ => true
  | .agDim _ => true
  | .tileSet _ => true
  | .regSet _ => true
  | .cueSkip _ => true
  | .synTake _ => true
  | .give _ => true
  | .fence _ => true
  | .tileFree _ => true
  | .tileReady _ => true
  | .flags _ => true
  | .arrOs _ => true
  | .arrOsSq _ => true
  | .arrOsHeld _ => true
  | .arrWs _ => true
  | .arrBwdDual _ => true
  | .tileCheckVerdict _ _ _ => true
  | .arrDestinationResident _ _ => true
  | .stationaryPreloadDone _ _ => true
  | .grm _ => true
  | .vecConvert _ => true
  | .vecAdd _ => true
  | .vecSub _ => true
  | .vecMul _ => true
  | .vecFmas _ => true
  | .vecAdds _ => true
  | .vecMuls _ => true
  | .vecMax _ => true
  | .vecMin _ => true
  | .vecAbs _ => true
  | .vecDiv _ => true
  | .vecRecip _ => true
  | .vecSqrt _ => true
  | .vecRsqrt _ => true
  | .vecSubr _ => true
  | .vecMulr _ => true
  | .vecNormr _ => true
  | .vecMulc _ => true
  | .vecAddc _ => true
  | .vecExpsubr _ => true
  | .vecDivr _ => true
  | .vecFunc _ => true
  | .vecDeriv _ => true
  | .vecPermute _ => true
  | .vecShuffle _ => true
  | .vecPackEven _ => true
  | .vecPackOdd _ => true
  | .vecUnpackLo _ => true
  | .vecUnpackHi _ => true
  | .vecIdxLoad _ => true
  | .vecFreqLoad _ => true
  | .vecRsum _ => true
  | .vecRsumsq _ => true
  | .vecRmax _ => true
  | .vecRmin _ => true
  | .vecRamax _ => true
  | .vecRdot _ => true
  | .vecRstats _ => true
  | .vecRrms _ => true
  | .vecMask _ => true
  | .vecRotary _ => true
  | .vecTopk _ => true
  | .vecSplit _ => true
  | .vecJoin _ => true

end Sys2Proof
end

