-- ==== Sys2Proof/Tests/Slice0.lean ====
section
/-! SUPPORT. Tests. The first part refuses an ill-formed command for each check of WellFormed. Then, for each statement with hypotheses, a
theorem `wit_<statement>` shows states and operands that meet its hypotheses, clause by clause, at boundary values. The last part runs a few
commands on small states against numbers worked out from the spec. -/

namespace Sys2Proof.Tests

open Sys2Proof Sys2Proof.Machine

set_option exponentiation.threshold 4096
set_option maxRecDepth 20000
set_option synthInstance.maxSize 4000

/-! ## Small states -/

/-- Ready and powered. -/
def up : State := { State.reset with cur := { State.reset.cur with phase := .ready }, mod := { State.reset.mod with power := .on } }

/-- `up` with Core 0 as `f` leaves it. -/
def core0 (f : Core → Core) : State := up.modCore 0 f

/-- A word from (place, width, value) fields. -/
def cueWord (l : List (Nat × Nat × Nat)) : W128 := BitVec.ofNat 128 (pack l)

/-- Core 0 runs and stands at the cue `q`; its arrays are at full activity; `f` changes the rest. -/
def atCue (q : W128) (f : Core → Core := id) : State := core0 fun x =>
  f { x with p := { x.p with run := true, state := .running, cues := [(0, q)] }, arrA := { x.arrA with level := 31 },
             arrB := { x.arrB with level := 31 } }

/-- What the cue at the pointer of Core 0 draws where it issues. -/
def drawn (s : State) : Peek :=
  match (s.core 0).verdict (s.stage 0).jump.toNat (s.core 0).cueAt with
  | .issue pk => pk
  | .skip | .hold _ | .stop _ => { vals := [], gens := [], wrapped := false }

/-- Core 0 issues the cue at its pointer. -/
abbrev issuesNow (s : State) : Prop := s.issues 0 ((s.core 0).cueAt) (drawn s)

/-- Token 3 is 7: the cues below wait for it and signal it. -/
def tok (x : Core) : Core := x.setToken 3 7
def waitSignal : List (Nat × Nat × Nat) := [(4, 1, 1), (5, 6, 3), (11, 1, 1), (12, 6, 3)]

/-- A CTL or SYN cue (class, OP, fields) that waits and signals. -/
def ctl (cls op : Nat) (l : List (Nat × Nat × Nat)) : W128 := cueWord ([(0, 4, cls), (24, 4, op)] ++ waitSignal ++ l)

/-- Generators 0 to 2 yield tiles from 0, from 10 and from 20; tiles 0 to 15 hold format `fmt`, the others are free, with side lines. -/
def fed (fmt : Nat) (x : Core) : Core :=
  { x with p := { x.p with gens := [(0, { d0 := { count := 8, stride := 1 } }), (1, { base := 10, d0 := { count := 8, stride := 1 } }),
                                    (2, { base := 20, d0 := { count := 8, stride := 1 } })] },
           tiles := (List.range 16).map (fun i => (i, { state := .resident, tag := mkTag fmt 0 0 {}, side := 32, sideValid := true })) ++
             (List.range 10).map (fun i => (20 + i, { side := 32, sideValid := true })) }

/-- The whole address range mapped onto itself for every use, by entry 0 of the Accession table. -/
def mapped (s : State) : State :=
  { s with mio := { s.mio with accession := [(0, { sizeLog := 47, state := .live, permLocal := 15, permRemote := 15 })] } }

/-- Association 16383 with device 1 is UP. -/
def peered (f : Assoc → Assoc := id) : State :=
  { mapped up with mio := { (mapped up).mio with assocs := [(16383, f { peer := 1, state := .up, paths := [(0, {})] })] } }

/-- Session 7 of a role, and a header of a command of it on the management lane. -/
def sess (role : Role) (s : State := up) : State := { s with cur := { s.cur with sessions := [{ number := 7, role := role, isSealed := true }] } }
def hd : Hdr := { session := 7, tag := 1, lane := .management }

/-- `sess` of an OPERATOR. -/
def ops (s : State := up) : State := sess .operator s

theorem okEq {α β : Type} {e : Except α β} {x : β} (h : e.toOption = some x) : e = .ok x := by
  cases e <;> simp_all [Except.toOption]

/-- The error of a result. -/
def errorOf {α β : Type} : Except α β → Option α
  | .ok _ => none
  | .error x => some x

theorem errorEq {α β : Type} {e : Except α β} {x : α} (h : errorOf e = some x) : e = .error x := by
  cases e <;> simp_all [errorOf]

/-- A register address: unit block and offset (R199). -/
def regAddr (unit off : Nat) : W64 := BitVec.ofNat 64 (regBase + unit * 0x1000000 + off)

/-! ## Ill-formed commands are refused by `Instr.wf` -/

/-- A well-formed request, response and ACK; each test below breaks one of their fields. -/
def okReq : MioReq :=
  { assoc := 0, counter := 1, phase := false, psn := 0, path := 0, reqId := 0, fwd := false, target := 0, version := 0, gen := 0, length := 0, aux := 0,
    data := [] }
def okResp : MioResp := { assoc := 0, counter := 1, phase := false, psn := 0, path := 0, reqId := 0, status := .ok, gen := 0, data := [] }
def okAck : MioAck := { assoc := 0, counter := 1, phase := false, cumPsn := 0, sack := 0, ce := 0, path := 0, rtt := 0 }

theorem test_wf_accepts : (Instr.mioderPut okReq).wf = true ∧ (Instr.mioderResponse okResp).wf = true ∧ (Instr.mioderAck okAck).wf = true ∧
    (Instr.memWrite hd 0 []).wf = true ∧ (Instr.vaultLineAccess 0 (.write 1023 [1]) .clean).wf = true ∧
    (Instr.galleryLineAccess 0 (.write 255 [1]) .clean).wf = true := by decide

theorem test_wf_request (b : List Byte) (hb : b.length = 4097) : (Instr.mioderPut { okReq with assoc := 16384 }).wf = false ∧ (Instr.mioderGet { okReq with path := 64 }).wf = false ∧
    (Instr.mioderRegWrite { okReq with data := b }).wf = false ∧
    (Instr.mioderPacketDropped { assoc := 0 } (.reservedOp 0x77 { okReq with path := 64 })).wf = false := by
  refine ⟨by decide, by decide, ?_, by decide⟩
  simp [Instr.wf, MioReq.wf, hb]

theorem test_wf_response (b : List Byte) (hb : b.length = 4097) : (Instr.mioderResponse { okResp with assoc := 16384 }).wf = false ∧
    (Instr.mioderResponse { okResp with path := 64 }).wf = false ∧
    (Instr.mioderResponse { okResp with data := b }).wf = false := by
  refine ⟨by decide, by decide, ?_⟩
  simp [Instr.wf, MioResp.wf, hb]

theorem test_wf_digest : (Instr.mioderCollReady ⟨okReq, [0]⟩).wf = false ∧ (Instr.mioderCollReady ⟨okReq, List.replicate 64 0⟩).wf = true := by decide

theorem test_wf_ack : (Instr.mioderAck { okAck with assoc := 16384 }).wf = false ∧ (Instr.mioderAck { okAck with path := 64 }).wf = false := by decide

theorem test_wf_path : (Instr.mioderProbe { assoc := 0 } 64 0 false).wf = false ∧ (Instr.pathProbeTimer 0 64).wf = false ∧ (Instr.idleProbe 0 64).wf = false := by
  decide

theorem test_wf_handshake (b : List Byte) (hb : b.length = 65533) : (Instr.assocHandshake 0 (.init 0 0 b) false).wf = false ∧ (Instr.assocHandshake 0 (.resp 0 0 b) false).wf = false ∧
    (Instr.assocHandshake 0 (.finish 0 0 b) false).wf = false := by simp [Instr.wf, AssocHs.wf, fits, hb]

theorem test_wf_data (b : List Byte) (hb : b.length = 65533) : (Instr.memWrite hd 0 b).wf = false ∧ (Instr.accessionSet hd 0 b).wf = false ∧ (Instr.attest hd b 0).wf = false ∧
    (Instr.sessionOpenInit hd b).wf = false ∧ (Instr.sessionOpenFinish hd 0 b).wf = false ∧ (Instr.folioKey hd 0 b).wf = false ∧
    (Instr.storeAttach hd 0 none b 0 none).wf = false ∧ (Instr.calWrite hd b).wf = false := by simp [Instr.wf, fits, hb]

theorem test_wf_members (l : List UnitName) (d : List (BitVec 16)) (hl : l.length = 4097) (hd' : d.length = 4097) : (Instr.ensembleDefine hd l none).wf = false ∧
    (Instr.ensembleEdit hd 0 l []).wf = false ∧ (Instr.ensembleEdit hd 0 [] l).wf = false ∧
    (Instr.hostModeEnter hd d).wf = false := by simp [Instr.wf, hl, hd']

theorem test_wf_addresses : (Instr.portAddress hd 0 (List.replicate 9 0)).wf = false ∧ (Instr.assocOpen hd 0 (List.replicate 9 0) 0 none).wf = false ∧
    (Instr.galleryLineAdd (2 ^ 48) 0 .clean).wf = false ∧ (Instr.galleryLineAccess (2 ^ 48) .read .clean).wf = false ∧
    (Instr.galleryPatrolScrub (2 ^ 48) .clean).wf = false ∧ (Instr.vaultLineAccess (2 ^ 48) .read .clean).wf = false ∧
    (Instr.rowRepairStart 0 0 (2 ^ 48) true).wf = false ∧ (Instr.rowRepaired 0 (2 ^ 48)).wf = false := by decide

theorem test_wf_lines : (Instr.galleryLineAccess 0 (.write 0 []) .clean).wf = false ∧ (Instr.galleryLineAccess 0 (.write 255 [1, 2]) .clean).wf = false ∧
    (Instr.vaultLineAccess 0 (.write 0 []) .clean).wf = false ∧ (Instr.vaultLineAccess 0 (.write 1023 [1, 2]) .clean).wf = false := by decide

theorem test_wf_places : (Instr.strStart 0 (.double 3 0x400000)).wf = false ∧ (Instr.send ⟨0, .double 511 0x400000⟩).wf = false ∧
    (Instr.coreFaultDetected 0 (.wingsDouble 0x400000)).wf = false ∧
    (Instr.handleArrival 0 0 0 (.remote 16384 0)).wf = false ∧ (Instr.tableSlotWrite 0 ⟨0, false⟩ 4160 0).wf = false ∧
    (Instr.pageStateError 0 524288).wf = false ∧ (Instr.chunkVerified 0 65536).wf = false ∧ (Instr.troupeWaveStart 0 [576]).wf = false := by decide

theorem test_wf_tests : (Instr.bringupPhaseEnd { fatal := none, galleryFails := [(0, 512, 0)], trained := true }).wf = false ∧
    (Instr.bringupPhaseEnd { fatal := none, galleryFails := [(0, 0, 65536)], trained := true }).wf = false ∧
    (Instr.governorSample { vinMv := 0, iin := 0, pinW := 0, tj := [], tInlet := 0, pace := [0, 0, 0, 0] }).wf = false ∧
    (Instr.governorSample { vinMv := 0, iin := 0, pinW := 0, tj := List.replicate 16 0, tInlet := 0, pace := [] }).wf = false := by decide

theorem test_wf_storage (b : List Byte) (hb : b.length = 2 ^ 41 + 1) : (Instr.asyncCommandEnd 0 (.storage .ok b)).wf = false := by
  simp [Instr.wf, ServiceOutcome.wf, hb]


/-! ## Cues, arrays and the vector engine -/

/-- CTL cues whose effects are stated, with their OP: targets, counters and tiles at the ends of their ranges. -/
def ctlCues : List (Nat × W128) := [
  (0, ctl 0 0 []), (1, ctl 0 1 [(32, 14, 16383)]), (2, ctl 0 2 [(32, 5, 31), (64, 32, 5)]), (3, ctl 0 3 [(32, 5, 31), (48, 14, 55)]),
  (6, ctl 0 6 [(32, 4, 15), (36, 1, 1), (64, 32, 5)]), (7, ctl 0 7 [(32, 4, 15), (36, 2, 3), (64, 32, 5)]),
  (8, ctl 0 8 [(32, 10, 1023), (42, 13, 8128), (71, 6, 63), (77, 6, 63)]), (9, ctl 0 9 [(64, 32, 9)]), (5, ctl 0 5 [(32, 16, 9)])]

theorem wit_ControlCueEffects : (∀ p ∈ ctlCues, isCue 0 p.1 p.2 = true ∧ issuesNow (atCue p.2 tok)) ∧
    ∀ k, cueSignal (ctl 0 5 []) = some k → ((atCue (ctl 0 5 []) tok).core 0).waited (ctl 0 5 []) k < 15 := by
  constructor
  · decide
  · intro k h
    rw [show cueSignal (ctl 0 5 []) = some 3 by decide] at h
    cases h
    decide

/-- Tiles 1 (RESIDENT) and 2 (FREE) under generator 4. -/
def twoTiles (x : Core) : Core :=
  { tok x with p := { (tok x).p with gens := [(4, { base := 1, d0 := { count := 2, stride := 1 } })] }, tiles := [(1, { state := .resident })] }

def synCues : List (Nat × Nat × W128) := [
  (1, 0, ctl 1 0 [(32, 6, 3), (38, 4, 6)]), (1, 1, ctl 1 1 [(32, 6, 63), (38, 4, 15)]), (1, 2, ctl 1 2 [(48, 8, 0xFF)]),
  (1, 3, ctl 1 3 [(32, 4, 4), (36, 7, 2)]), (1, 4, ctl 1 4 [(32, 4, 4), (36, 7, 2)]), (1, 5, ctl 1 5 [(48, 16, 4), (64, 16, 9)]),
  (0, 4, ctl 0 4 [(32, 16, 0xFFFF)])]

/-- A cue that is skipped: PRED_EN, flag 0 clear, PRED_POL 0. -/
def skipped : W128 := ctl 0 0 [(18, 1, 1)]

theorem wit_SyncCueEffects : (∀ p ∈ synCues, isCue p.1 p.2.1 p.2.2 = true ∧ issuesNow (atCue p.2.2 twoTiles)) ∧
    (atCue skipped tok).decides 0 skipped .skip := by decide

theorem wit_CueHoldsAndFrames : ((atCue (ctl 0 1 []) tok).core 0).cueAt = ctl 0 1 [] ∧ isCue 0 0 (ctl 0 1 []) = false ∧
    isCue 0 0 (ctl 0 0 []) = true ∧ (atCue (ctl 0 0 [])).decides 0 (ctl 0 0 []) (.hold .wait) ∧
    (let q := ctl 1 1 [(32, 6, 63), (38, 4, 1)]
     isCue 1 1 q = true ∧ (atCue q (fun x => (tok x).setToken 63 15)).decides 0 q (.stop .tokenOvf)) ∧
    isCue 0 8 (ctl 0 8 [(42, 13, 8191)]) = true ∧ (atCue (ctl 0 8 [(42, 13, 8191)]) tok).decides 0 (ctl 0 8 [(42, 13, 8191)]) (.stop .range) := by
  decide

theorem wit_CueHoldsAndFrames_rows : CueRow (isCue 0 0, .nop) ∧ CueRow (isCue 0 8, .tileSet) ∧ PrompterRow (isCue 1 0, .synTake) ∧
    ∃ t, exec (.synTake 0) (atCue (ctl 1 0 [(32, 6, 3), (38, 4, 6)]) tok) = .next t :=
  ⟨.inl (.head _), .inl (by simp [PrompterRow]), by simp [PrompterRow], _, rfl⟩

/-- Core 0 waits at an ARR cue below the threshold of its arrays. -/
def ramping : State := core0 fun x => { x with p := { x.p with state := .hold, hold := .ramp, cues := [(0, cueWord [(0, 4, 2), (24, 2, 3)])] } }

theorem wit_PrompterEvents :
    (up.cur.phase = .ready ∧ (up.core 0).open = true ∧ (up.core 0).p.state = .idle ∧ (up.core 0).p.singleStep = false) ∧
    ((core0 fun x => { x with p := { x.p with state := .halted, singleStep := true } }).core 0).p.state = .halted ∧
    ((atCue 0).core 0).p.state = .running ∧
    ((up.core 0).heldIn = [] ∧ (up.core 0).logRoom 1 = true) ∧
    ((ramping.core 0).rising (ramping.stage 0).jump.toNat .arrA = true) ∧
    (let s := atCue (cueWord [(0, 4, 2), (24, 2, 3)]) (fun x => { x with
        p := { x.p with state := .hold, hold := .ramp }, arrA := { x.arrA with level := 16 }, arrB := { x.arrB with level := 0 } })
     (s.core 0).rampHeld (s.stage 0).jump.toNat .arrA = true ∧ (s.core 0).rising (s.stage 0).jump.toNat .arrA = false) ∧
    (((atCue 0).core 0).rampHeld 4 .arrA = false ∧ ((atCue 0).core 0).arrA.jobs = [] ∧ ((atCue 0).core 0).arrA.holdLeft = none ∧
      0 < ((atCue 0).core 0).arrA.level.toNat) ∧
    (let x : Core := { p := { fillBudget := 100, fillUsed := 40 }, arrA := { holdLeft := some 60 } }
     x.arrA.holdLeft = some 60 ∧ x.p.fillUsed.toNat + 60 ≤ x.p.fillBudget.toNat ∧ 0 < x.arrA.holdSteps + x.arrB.holdSteps ∧
       x.p.fillBudget.toNat ≤ x.p.fillUsed.toNat + (x.arrA.holdSteps + x.arrB.holdSteps)) := by decide

theorem wit_TablesAndRandomSources :
    ((up.core 0).open = true ∧ up.cur.phase = .ready) ∧
    (∀ off ∈ [0, 4152], off % 8 = 0 ∧ off < 4160 ∧ off ≠ 0x38) ∧
    (let x : Core := { slots := [(31, { state := .valid }), (0, { state := .failed })] }
     ((x.tslot 31).state = .valid ∧ (x.tslot 0).state = .failed ∧ standardSlot 0 = true)) ∧
    (let s := core0 fun x => { x with rng := [(2, { draws := 2 ^ 24 })] }
     2 ^ 24 ≤ (s.source 0 2).rng.draws ∧ (s.troupe 0).fixedSeed = false) ∧
    (({ entropyOk := true } : Troupe).entropyOk = true ∧ ({ started := true } : Troupe).entropyOk = false ∧
      ({ started := true } : Troupe).started = true) := by decide

/-- ARR cues: (mode, word) with P from tiles 0 on, Q from tiles 10 on, destinations from tile 20 on; array A alone, or both. -/
def arrCues : List (Nat × W128) := [(0, 1, 0, 0, 1), (1, 3, 1, 0, 2), (2, 1, 1, 0, 2), (3, 1, 1, 0, 2), (4, 3, 0, 1, 2)].map fun (m, arrs, np, nq, nd) =>
  (m, cueWord [(0, 4, 2), (24, 2, arrs), (26, 4, m), (30, 4, 1), (34, 4, 1), (38, 4, 1), (44, 4, 0), (48, 4, 1), (52, 4, 2), (56, 6, np),
    (62, 6, nq), (68, 7, nd), (77, 1, 1)])

/-- A GRM cue for both taps. -/
def grmCue : W128 := cueWord [(0, 4, 7), (24, 2, 3), (26, 1, 1)]

theorem wit_ArrayAndGramCuesIssue : (∀ p ∈ arrCues, isArr p.1 p.2 = true ∧ issuesNow (atCue p.2 (fed 1))) ∧
    cueClass grmCue = clsGrm ∧ issuesNow (atCue grmCue) := by decide

/-- A tile job of an array, integer accumulators all zero. -/
def job1 (v : Option Bool) : TileJob :=
  { dest := 20, cells := [], integer := true, products := 1, verdict := v, outFmt := 11, rnd := 0, rows := 64, cols := 64, sat := false,
    satIn := false, slice := false, version := 5 }

/-- A cue of an array: its tiles, whether it keeps its accumulators. -/
def arrJob (mode : BitVec 4) (tiles : List TileJob) (keep needs : Bool) : ArrJob :=
  { cue := { num := 1, cls := 2, signal := none }, mode := mode, tiles := tiles, keep := keep, pTiles := [], qTiles := [],
    needsStationary := needs, shared := false }

/-- Core 0 with the jobs of array A. -/
def withJobs (l : List ArrJob) : State := core0 fun x => { x with arrA := { x.arrA with jobs := l } }

theorem wit_TileChecksAndCompletions :
    (let s := withJobs [arrJob 0 [job1 none] false false]
     (s.core 0).arrA.toCheck = some (job1 none) ∧ (s.core 0).works = true ∧
       (job1 none).passes (some { row := 63, col := 0, bits := 1 }) = false ∧ (job1 none).retried = false) ∧
    ((withJobs [arrJob 0 [{ job1 none with retried := true }] false false]).core 0).arrA.toCheck = some { job1 none with retried := true } ∧
    ({ job1 none with retried := true }).passes (some { row := 0, col := 63, bits := 1 }) = false ∧
    ((withJobs [arrJob 0 [job1 (some true)] false false]).core 0).arrA.jobs = [arrJob 0 [job1 (some true)] false false] ∧
    ((withJobs [arrJob 0 [job1 none] true false]).core 0).arrA.jobs = [arrJob 0 [job1 none] true false] ∧
    (((withJobs [arrJob 3 [] false true, arrJob 3 [] false true]).core 0).arrA.jobs = [arrJob 3 [] false true, arrJob 3 [] false true] ∧
      3 ≤ (arrJob 3 [] false true).mode.toNat ∧ (arrJob 3 [] false true).needsStationary = true ∧
      (arrJob 3 [] false true).preloaded = false) := by decide

/-- VEC cues: one group, A from tile 0 on, B from tile 10 on, destinations from tile 20 on, everything FP32. -/
def vecCue (op : Nat) : W128 := cueWord [(0, 4, 3), (24, 8, op), (46, 4, 0), (50, 4, 1), (54, 4, 2)]

def vecOps : List Nat := [0x00, 0x01, 0x02, 0x03, 0x04, 0x05, 0x06, 0x07, 0x08, 0x09, 0x0A, 0x0B, 0x0C, 0x0D, 0x10, 0x11, 0x12, 0x13, 0x14,
  0x15, 0x16, 0x20, 0x21, 0x30, 0x31, 0x32, 0x33, 0x34, 0x35, 0x36, 0x37, 0x40, 0x41, 0x42, 0x43, 0x44, 0x45, 0x46, 0x47, 0x50, 0x51, 0x60,
  0x70, 0x71]

/-- A VEC cue that has run, with the tags it formed. -/
def vecRan : VecJob :=
  { cue := { num := 1, cls := 3, signal := some 63 }, word := cueWord [(0, 4, 3), (24, 8, 1), (11, 1, 1), (12, 6, 63)], vl := 0, aTiles := [0],
    bTiles := [1], dTiles := [2], rowBases := [], colBases := [], ran := true, tags := [(0, 5)] }

theorem wit_VectorCues : (∀ op ∈ vecOps, isVec op (vecCue op) = true ∧ issuesNow (atCue (vecCue op) (fed 0))) ∧
    (let s := core0 fun x => { x with vec := { x.vec with jobs := [vecRan] } }
     (s.core 0).works = true ∧ (s.core 0).vec.jobs = [vecRan] ∧ vecRan.ran = true ∧ vecRan.tags.length = vecRan.dTiles.length) := by decide

theorem wit_VectorCues_rows : VecRow (0x00, .vecConvert) ∧ VecRow (0x71, .vecJoin) ∧ ArrRow (0, .arrOs) ∧ ArrRow (4, .arrBwdDual) := by
  simp [VecRow, ArrRow]

/-! ## Streams, messages and handles -/

/-- A descriptor from its fields; one run, everything in Wings of Core 0 from offset 0. -/
def descWord (l : List (Nat × Nat × Nat)) : BitVec 512 := BitVec.ofNat 512 (pack ([(224, 16, 1), (240, 16, 1)] ++ l))

/-- A RAW GET of 8 bytes from Vault address 0 to Wings offset 64. -/
def rawGet : BitVec 512 := descWord [(192, 32, 8), (384, 22, 64)]

/-- STR cues of an OP on descriptor 31 and endpoint 15. -/
def strCue (op : Nat) (l : List (Nat × Nat × Nat)) : W128 := cueWord ([(0, 4, 4), (24, 4, op), (28, 5, 31), (33, 4, 15)] ++ l)

/-- Descriptor 31 and endpoint 15. -/
def streams (e : Endpoint) (x : Core) : Core := { x with str := { x.str with descs := [(31, rawGet)], eps := [(15, e)] } }

/-- An endpoint that is LIVE and may have one transfer, with the handles that wait and those held. -/
def live (waiting held : List (BitVec 128)) : Endpoint :=
  { state := .live, enable := true, outstanding := 1, waiting := waiting, held := held }

/-- Core 0 stands at a REARM of descriptor 31 to `rawGet`, which lies in Wings, with its shadows as `busy` says. -/
def arming (busy : List Nat) : State :=
  (atCue (strCue 1 []) (fun x => { streams (live [] []) x with str := { (streams (live [] []) x).str with shadowBusy := busy } })).poke
    (wingsOf 0) (leBytes 64 rawGet.toNat)

theorem wit_StreamCuesIssue :
    (let s := atCue (strCue 0 []) (streams (live [] []))
     issuesNow s ∧ (s.core 0).str.queue = [] ∧ isCue 4 0 (strCue 0 []) = true ∧ (s.core 0).startWaits (strCue 0 []) = false ∧
       dUseHandle ((s.core 0).desc 31) = false) ∧
    (let s := atCue (strCue 0 []) (fun x => { streams (live [] []) x with str := { (streams (live [] []) x).str with shadowBusy := [31] } })
     issuesNow s ∧ (s.core 0).startWaits (strCue 0 []) = true) ∧
    (let s := atCue (strCue 3 []) (streams (live [5, 6] []))
     issuesNow s ∧ isCue 4 3 (strCue 3 []) = true ∧ ((s.core 0).ep 15).state ≠ .off ∧ ((s.core 0).ep 15).waiting = [5, 6]) ∧
    (issuesNow (atCue (strCue 3 []) (streams (live [] []))) ∧ (live [] []).waiting = []) ∧
    (let s := atCue (strCue 2 []) (streams { live [] [5, 6] with next := up.nameOf (.core 511) })
     issuesNow s ∧ isCue 4 2 (strCue 2 []) = true ∧ ((s.core 0).ep 15).state = .live ∧ ((s.core 0).ep 15).held = [5, 6] ∧
       (s.core 0).str.xfers = [] ∧ (s.core 0).replayEffects = [] ∧ s.isHere ((s.core 0).ep 15).next = true ∧ (coreName ((s.core 0).ep 15).next).isSome = true ∧
       ((s.core 0).ep 15).releasing = none ∧ (s.core 0).bound 15 = false) ∧
    (∀ busy ∈ [[], [31]], let s := arming busy
     issuesNow s ∧ isCue 4 1 (strCue 1 []) = true ∧ (s.core 0).str.shadowBusy.contains 31 = !busy.isEmpty ∧ (s.core 0).str.queue = [] ∧
       s.num (wingsOf 0 + (drawn s).byteVal) 64 = rawGet.toNat) ∧
    (drawn (arming [])).byteVal = 0 ∧ descOk rawGet = true := by decide

/-- A transfer of one tile of one row and column, laid as a matrix, whose 4 bytes lie in the Vault. -/
def tileGet (status : Status) (settled : List Nat) : Xfer :=
  { cue := { num := 9, cls := 4, signal := none }, at_ := 0, desc := 31, word := descWord [(4, 2, 2), (352, 32, 8)], hq := 15,
    handle := none, base := 0, tiles := [7], rel := false, isFill := true, settled := settled, status := status,
    pieces := [{ unit := 0, addr := 0, dst := 0, off := 0, n := 4, run := 0, runLen := 4 }] }

/-- Core 0 with one transfer. -/
def withXfer (y : Xfer) : State := core0 fun x =>
  { x with tiles := [(7, { state := .filling, rowsM1 := 0, colsM1 := 0 })], str := { x.str with xfers := [y] } }

/-- A RAW transfer. -/
def rawXfer (status : Status) (settled : List Nat) : Xfer := 
  { tileGet status settled with
    word := rawGet, tiles := [], pieces := [{ unit := 0, addr := 0, dst := 0, off := 64, n := 8, run := 0, runLen := 8 }] }

/-- The RAW GET can start: this depends on its descriptor, its base and its tiles only. -/
theorem wit_StreamCuesIssue_start : ∀ y : Xfer, y.word = rawGet → y.handle = none → y.base = dAddr rawGet + 0 → y.tiles = [] →
    y.startOk ((atCue (strCue 0 []) (streams (live [] []))).core 0) (strCue 0 []) = true := by
  intro y h1 h2 h3 h4
  have h : (rawXfer .ok []).startOk ((atCue (strCue 0 []) (streams (live [] []))).core 0) (strCue 0 []) = true := by decide
  simp only [Xfer.startOk] at h ⊢
  rw [h1, h2, h3, h4]
  exact h

theorem wit_StreamEvents :
    (let s := withXfer (tileGet .ok [])
     (s.core 0).works = true ∧ (s.core 0).xferAt 0 = some (tileGet .ok []) ∧ (s.core 0).xfer 9 = some (tileGet .ok []) ∧
       dOp (tileGet .ok []).word = opGet ∧ (tileGet .ok []).done < (tileGet .ok []).tiles.length ∧
       (∀ p ∈ (tileGet .ok []).pieces, s.placeOf (tileGet .ok []).fabric permRead p.addr p.n = .here 0)) ∧
    (let s := withXfer (rawXfer .ok [0])
     (s.core 0).xferAt 0 = some (rawXfer .ok [0]) ∧ (s.core 0).xfer 9 = some (rawXfer .ok [0]) ∧ dOp (rawXfer .ok [0]).word ≠ opAtomic ∧
       dLayout (rawXfer .ok [0]).word = 0 ∧ (rawXfer .ok [0]).waiting = [] ∧ (s.core 0).str.queue = [] ∧
       (List.range (rawXfer .ok [0]).pieces.length).all (rawXfer .ok [0]).settled.contains = true) ∧
    (rawXfer .gone []).status ≠ .ok ∧
    (let x : Core := { str := { shadowBusy := [31], shadows := [(31, rawGet)] } }
     x.works = true ∧ x.str.shadowBusy.contains 31 = true ∧ (x.str.xfers.any (fun z => z.desc == 31)) = false ∧ x.str.queue = []) := by decide

theorem wit_StreamEvents_data : tileData (withXfer (tileGet .ok [])) (tileGet .ok [])
    ((tileGet .ok []).unitPieces 0) = some (.ok [(0, [0, 0, 0, 0])]) := by rfl

/-- A message of one granule that waits for a ring. -/
def msg1 : MsgReq := { src := .remote 0 0 0 0, channel := 3, rtoken := none, bytes := List.replicate 64 0 }

/-- A ring of 64 granules that is enabled. -/
def ring (msgs : List MsgReq) : Ring := { enable := true, msgs := msgs, tail := BitVec.ofNat 16 msgs.length }

/-- Core 0 at a cue, with its message port. -/
def atMsg (q : W128) (m : MsgPort) : State := atCue q fun x => { x with msg := m }

/-- A SEND to Core 1, and a RECV of channel 3 and a COMPL, into Wings from offset 0. -/
def sendCue : W128 := cueWord [(0, 4, 5), (24, 4, 0)]
def recvCue : W128 := cueWord [(0, 4, 5), (24, 4, 1), (41, 2, 3)]
def complCue : W128 := cueWord [(0, 4, 5), (24, 4, 2)]
def complRec : ComplRec := { status := .ok, seq := 4, refused := 0, accepted := 1, destGen := 2 }
def sent : Send := { cue := { num := 1, cls := 5, signal := none }, seq := 4, record := true, unicast := true, waiting := 0, accepted := 1 }

theorem wit_MessageFlow :
    (issuesNow (atMsg sendCue {}) ∧ isCue 5 0 sendCue = true) ∧
    (let x : Core := { msg := { rings := [(3, ring [])], waiting := [(3, [msg1])] } }
     Tab.get [] x.msg.waiting 3 = [msg1] ∧ x.open = true ∧ (x.ring 3).enable = true ∧
       (x.ring 3).used + msg1.granules ≤ (x.ring 3).granules ∧ x.logRoom (x.grantedGranules + msg1.granules) = true) ∧
    (let x : Core := { msg := { rings := [(3, ring [])], granted := [(3, [msg1])] } }
     Tab.get [] x.msg.granted 3 = [msg1] ∧ x.open = true) ∧
    (let s := atMsg recvCue { rings := [(3, ring [msg1])] }
     issuesNow s ∧ isCue 5 1 recvCue = true ∧ (s.core 0).nextMsg (fld recvCue 42 41) = some msg1) ∧
    (let s := atMsg complCue { compl := [complRec] }
     issuesNow s ∧ isCue 5 2 complCue = true ∧
       (s.core 0).msg.compl.drop ((s.core 0).msg.copies.filter (fun y => y.channel.isNone)).length = [complRec]) ∧
    (let x : Core := { msg := { copies := [{ cue := sent.cue, dest := 0, bytes := [1, 2], channel := some 3, granules := 1 }] } }
     x.works = true ∧ x.msg.copies ≠ []) ∧
    (let x : Core := { msg := { sends := [sent] } }
     x.msg.sends.find? (fun y => y.seq == 4) = some sent ∧ sent.waiting = 0 ∧ sent.puts = [] ∧ x.works = true) := by decide

/-- Core 0 holds handle 5 at endpoint 0, whose RELEASE is on its way to endpoint 15 of Core 1. -/
def travelling : State :=
  (core0 fun x => x.setEp 0 { live [] [5] with next := up.nameOf (.core 1), nextHq := 15, sent := true, sending := some (0, 5) }).modCore 1 fun x =>
    x.setEp 15 (live [] [])

/-- A RELEASE under way and its answer. -/
def relCue : StrCue := { cue := { num := 3, cls := 4, signal := none }, word := strCue 2 [], at_ := 0, tiles := [], off := 0, ecc := .clean }
def answeredEp (st : Status) : State := core0 fun x => x.setEp 15 { live [] [5] with releasing := some relCue, sent := true, sending := some (0, 5), answer := some st }

/-- A marker that waits. -/
def shadow1 : Shadow :=
  { sceneId := 9, cp := 1, loops := [], tokens := [], gens := [], pflags := 0, vl := 0, fillHold := 0, fillBudget := 0, tiles := [], rings := [],
    tapA := {}, tapB := {}, descs := [], eps := [], sendSeq := 0 }

theorem wit_HandlesAndScenes :
    (travelling.travels 1 15 5 (.localCore 0 0) = true ∧ (travelling.core 1).open = true ∧ ((travelling.core 1).ep 15).state ≠ .off ∧
      ((travelling.core 1).ep 15).waiting.length + ((travelling.core 1).ep 15).held.length < 64 ∧ (travelling.core 1).heldIn = [] ∧
      (travelling.core 1).logRoom 1 = true ∧ (travelling.core 1).str.queue = []) ∧
    (∀ st ∈ [Status.ok, .badParam, .gone], (((answeredEp st).core 0).ep 15).releasing = some relCue ∧
      (((answeredEp st).core 0).ep 15).answer = some st ∧
      (((answeredEp st).core 0).ep 15).sending = some ((((answeredEp st).core 0).ep 15).oldest, 5) ∧ (((answeredEp st).core 0).ep 15).held ≠ [] ∧ ((answeredEp st).core 0).works = true ∧ ((answeredEp st).core 0).str.queue = [] ∧
      (((answeredEp st).core 0).ep 15).state ≠ .off) ∧
    (up.cur.phase = .ready ∧ (up.core 0).open = true ∧ (up.core 0).str.queue = []) ∧
    ((5 : BitVec 64).getLsbD 63 = false ∧
      ((up.core 0).ep (up.core 0).str.injectEp.toNat).waiting.length + ((up.core 0).ep (up.core 0).str.injectEp.toNat).held.length < 64) ∧
    (let x : Core := { pending := some shadow1 }
     x.pending = some shadow1 ∧ x.open = true ∧ x.heldIn = []) := by decide

/-! ## Memory lines -/

theorem wit_GalleryAndVaultLines :
    (∀ a ∈ [galleryBase, galleryEnd - 256], inGallery a = true ∧ up.sectorShut (troupeUnder a) = false ∧ up.lineLost a = false ∧ a % 256 = 0) ∧
    (let s := up.modDie 0 fun d => { d with poisoned := [galleryBase] }
     s.lineLost galleryBase = true) ∧
    (∀ a ∈ [0, vaultEnd - 1024], regionOf a = some .vault ∧ a % 1024 = 0 ∧ up.vaultReadFails a 1024 = false ∧
      ((up.group (groupOf a)).erasures (pageOf a)).length = 0 ∧ (up.group (groupOf a)).isLost = false) ∧
    (let s := up.setGroup 0 { ch := [(17, .failed)] }
     s.vaultReadFails 0 1024 = false ∧ ((s.group 0).erasures 0).length = 1 ∧ (s.group 0).poison.length < 4096 ∧
       (s.group 0).poison.contains 0 = false) ∧
    (let s := up.setGroup 0 { lost := true }
     (s.group 0).isLost = true ∧ s.vaultReadFails 0 1024 = true) := by decide

/-- Symbols in error of codewords 5 and 6, outside the erasures of a group with none and of one whose channel 17 is out. -/
theorem wit_GalleryAndVaultLines_symbols :
    let none := (up.group 0).erasures 0
    let one := ((up.setGroup 0 { ch := [(17, .failed)] }).group 0).erasures 0
    (∀ i, (wrongIn none [(5, 3), (6, 4)] i).length ≤ 1) ∧ (wrongIn none [(5, 3), (6, 4)] 5).length = 1 ∧
      2 ≤ (wrongIn none [(5, 3), (5, 4)] 5).length ∧ one.length = 1 ∧ 1 ≤ (wrongIn one [(5, 3)] 5).length ∧
      ∀ i, (wrongIn one [(5, 17)] i).length = 0 := by decide

theorem wit_VaultChannelsAndPages :
    ((up.group 7).chan 17 = .active ∧ (up.group 7).stateNo = 0 ∧ ((up.group 7).inState .rebuilding).isEmpty = true) ∧
    (let x : VGroup := { ch := [(17, .held)], retrainCh := 17, attempts := 1 }
     x.chan 17 = .held ∧ (x.inState .retraining).isEmpty = true ∧ x.retrainCh.toNat = 17 ∧ x.attempts < 2) ∧
    (let x : VGroup := { ch := [(0, .failed), (1, .failed), (17, .retraining)], retrainCh := 17, attempts := 2 }
     x.retrainCh.toNat = 17 ∧ 2 ≤ x.attempts ∧ ({ up.flash with runtimeValid := true } : Flash).runtimeCat.length < 4096) ∧
    (let x : VGroup := { ch := [(17, .rebuilding)], pages := [(0, { stale := true }), (8, { stale := true })] }
     x.chan 17 = .rebuilding ∧ x.rebuildRuns = true ∧ x.stalePages = [0, 8]) ∧
    ({ ch := [(17, .rebuilding)], pages := [(8, { stale := true })] } : VGroup).stalePages = [8] ∧
    (let x : VGroup := { ch := [(17, .rebuilding)] }
     x.rebuildRuns = true ∧ x.stalePages = []) ∧
    (up.group 7).isLost = false ∧ ({ lost := true } : VGroup).isLost = true ∧ ({ ch := [(3, .held)] } : VGroup).marksStale = true ∧
    (∀ a ∈ [7 * 0x4000000000, vaultEnd - 1], regionOf a = some .vault ∧ groupOf a = 7) ∧
    (let x : VGroup := { repairing := [(pageOf (vaultEnd - 1), 17)] }
     x.repairing = [(pageOf (vaultEnd - 1), 17)] ∧ x.marksStale = false ∧ x.isLost = false) ∧
    (pagesPerGroup / 8 - 1 < pagesPerGroup / 8 ∧ (up.group 7).poison.length + 512 ≤ 4096) ∧
    (let x : VGroup := { sweeping := true, sweepPos := BitVec.ofNat 23 (pagesPerGroup - 1) }
     x.sweeping = true ∧ x.marksStale = false ∧ x.isLost = false) := by decide

/-! ## Queues and registers -/

/-- A notice for queue 63 with 32 bytes of payload, and queue 63 of 4,096 bytes at Vault address 4,096 as `f` leaves it. -/
def note : Notice := { queue := 63, kind := 1, source := 0, status := .ok, payload := List.replicate 32 7 }
def queued (f : NQ → NQ) : State :=
  { up with raised := [note], nqs := [(63, f { (up.nq 63) with enable := true, base := 4096, size := 0 })] }

theorem wit_NoticeQueues :
    (∀ s ∈ [queued id], s.raised = [note] ∧ s.activating = false) ∧
    ((queued fun n => { n with enable := false }).nq 63).enable = false ∧
    (let n := (queued id).nq 63
     n.enable = true ∧ n.flushPending = false ∧ n.gapOpen = false ∧ padFor n.bytes n.tail.toNat (noticeRecord note 0).length = 0 ∧
       (noticeRecord note 0).length + 32 ≤ n.free ∧ (queued id).writeStatus .unit (4096 + 0 % n.bytes) (noticeRecord note 0).length = none) ∧
    (let n := (queued fun n => { n with tail := 4064, head := 4064 }).nq 63
     padFor n.bytes n.tail.toNat (noticeRecord note 0).length = 32 ∧ (noticeRecord note 0).length + 32 + 32 ≤ n.free) ∧
    (let n := (queued fun n => { n with tail := 4064 }).nq 63
     n.free < (noticeRecord note 0).length + padFor n.bytes n.tail.toNat (noticeRecord note 0).length + 32) ∧
    ((3 : QueueNo).val < 4 ∧ 4 ≤ (4 : QueueNo).val) ∧
    (let v : W64 := 0x0020000000001000
     fld v 51 48 ≤ 12 ∧ (up.nq 63).enable = false ∧ fld v 53 53 = 1 ∧ badRing (fld v 47 0) (fld v 51 48) = false) ∧
    (let n := (queued fun n => { n with tail := 64 }).nq 63
     fld (0 : W64) 51 48 ≤ 12 ∧ fld (0 : W64) 53 53 = 0 ∧ n.enable = true ∧ n.gapOpen = false ∧
       ((64 : W64).setWidth 32 - n.head).toNat ≤ n.used ∧ n.used < ((65 : W64).setWidth 32 - n.head).toNat ∧ n.flushPending = false) ∧
    (let n := (queued fun n => { n with tail := 64, gapOpen := true }).nq 63
     n.enable = true ∧ n.gapOpen = true ∧ (64 : W64).setWidth 32 = n.tail) ∧
    ((queued fun n => { n with flushPending := true }).nq 63).flushPending = true ∧
    (let s := mapped (queued fun n => { n with announceDue := true, announce := 8 })
     (s.nq 63).announceDue = true ∧ (s.nq 63).announce ≠ 0 ∧ s.activating = false ∧
       s.place true permWrite 8 8 = .here 8 ∧ s.heldBy 8 8 = none ∧ s.writeStatus .unit 8 8 = none) ∧
    (let s := mapped ((queued fun n => { n with announceDue := true, announce := BitVec.ofNat 64 (wingsOf 0) }).modCore 0
       fun x => { x with takeover := some { failed := 0, entry := none } })
     s.writeHeld (s.nq 63).announce 8 = true) := by decide


theorem wit_RegisterAccesses :
    (∀ p ∈ [(0x400, 0x020), (0x5FF, 0x030), (0x400, 0x010), (0x400, 0x908), (4, 0x700), (0x21F, 0x058), (2, 0x008), (0x103, 0x220),
        (0x400, 0x1C20)],
      up.regHeld (regAddr p.1 p.2).toNat = none) ∧
    (1 ≤ fld (0x0000000000001600 : W64) 11 9 ∧ 1 ≤ fld (0x0000000000001600 : W64) 14 12 ∧
      fld (0x0000000000001600 : W64) 11 9 + fld (0x0000000000001600 : W64) 14 12 ≤ 4) ∧
    (unitBlock (((regAddr 0x400 0x020).toNat - regBase) / 0x1000000)).bind Block.door = some 0 := by decide

theorem wit_RegisterAccesses_routes :
    up.regRoute (regAddr 0x400 0x020).toNat = .ok (.core 0, 0x020) ∧ up.regRoute (regAddr 0x5FF 0x030).toNat = .ok (.core 511, 0x030) ∧
    up.regRoute (regAddr 0x400 0x010).toNat = .ok (.core 0, 0x010) ∧ up.regRoute (regAddr 0x400 0x908).toNat = .ok (.core 0, 0x908) ∧
    up.regRoute (regAddr 4 0x700).toNat = .ok (.vault, 7 * 0x100) ∧ up.regRoute (regAddr 4 0x710).toNat = .ok (.vault, 7 * 0x100 + 0x10) ∧
    up.regRoute (regAddr 0x21F 0x058).toNat = .ok (.troupe 31, 0x058) ∧ up.regRoute (regAddr 2 0x008).toNat = .ok (.mioder, 0x008) ∧
    up.regRoute (regAddr 0x103 0x220).toNat = .ok (.stage 3, 0x220) ∧ up.regRoute 0x1004 = .error .badParam ∧
    up.regRoute (regAddr 0x400 0x1C20).toNat = .ok (.core 0, 0x1C20) ∧
    (core0 fun x => { x with inReset := true }).regRoute (regAddr 0x400 0x020).toNat = .error .reset := by
  refine ⟨okEq ?_, okEq ?_, okEq ?_, okEq ?_, okEq ?_, okEq ?_, okEq ?_, okEq ?_, okEq ?_, errorEq ?_, okEq ?_, errorEq ?_⟩ <;> decide

/-! ## Sessions, commands and units -/

theorem wit_CredentialsAndHostModes :
    ((sess .owner).ownerSession 7 = true) ∧ (fld (0x100 : W64) 8 8 = 1 ∧ fld (0x100 : W64) 7 5 = 0) ∧
    (fld (0x15F : W64) 8 8 = 1 ∧ 2 ≤ fld (0x15F : W64) 7 5 ∧ fld (0x15F : W64) 7 5 ≤ 5 ∧ fld (0x15F : W64) 4 0 = 31 ∧
      (∀ p ∈ (sess .owner).sec.creds, p.2.kind = 0)) ∧
    (sess .owner).sec.hostConf = false ∧
    (ops.admits hd 0x0520 ∧ ops.vault.sweepActive = false ∧ ops.sec.vaultEpoch ≠ 0xFFFFFFFF ∧ ops.admits hd 0x0530 ∧
      (ops.group 0).isLost = false) ∧
    (let s := ops peered
     [1].length ≤ 8 ∧ s.admits hd 0x0530 ∧ s.sealedSession hd.session = true ∧ s.coll.colls = [] ∧ s.mio.migration = none ∧
       ∀ p ∈ s.mio.assocs, p.2.kept = []) ∧
    (let s := ops { up with sec := { up.sec with hostConf := true } }
     s.admits hd 0x0530 ∧ s.sec.hostConf = true) := by decide

theorem wit_CredentialsAndHostModes_key : regionOf (sess .owner).sec.credAddr.toNat = some .vault ∧
    (sess .owner).readMem .unit (sess .owner).sec.credAddr.toNat keyBytes = .ok (List.replicate 2592 0) :=
  ⟨by decide, okEq (by decide)⟩

/-- A reply of session 7 that the Curator keeps, under the tag of `hd`. -/
def kept : Kept := { reply := { opcode := 0x100, tag := 1, session := 7, status := .ok }, req := .discover { hd with lane := .main } }

theorem wit_HowCommandsAreTaken :
    (State.reset.curatorUp = false) ∧ ((up.curatorUp = true) ∧ up.phaseEnded 5 = true ∧ up.activating = false) ∧
    (up.session 7 = none ∧ hd.session ≠ 0 ∧ opNeed 0x0300 ≠ .none) ∧
    (let x : Session := { number := 7, role := .operator, isSealed := true, kept := [kept] }
     x.kept.find? (fun k => k.reply.tag == hd.tag) = some kept) ∧
    ((sess .observer).session 7 = some { number := 7, role := .observer, isSealed := true } ∧ (sess .observer).waitsAt 7 = none ∧
      opNeed 0x0520 = .operator) ∧
    ((ops { up with cur := { up.cur with phase := .links } }).phaseEnded (opPhase 0x0204) = false) ∧
    (ops.admits hd 0x0100 ∧ ∀ c < 512, ops.holding c = false) := by decide

/-- The rows of the statements about commands are the commands. -/
theorem wit_CommandRow : CommandRow 0x0100 .discover ∧ CommandRow 0x0520 .vaultRotate ∧ CommandRow 0x0204 .productionList :=
  ⟨.discover, .vaultRotate, .productionList⟩

theorem wit_RejectedPackets : (ops.curatorUp = true ∧ ops.phaseEnded 5 = true ∧ ops.activating = false) ∧ up.session hd.session = none ∧
    (ops.session hd.session = some { number := 7, role := .operator, isSealed := true } ∧ hd.session ≠ 0) ∧ ops.admits hd 0x0100 := by decide

/-- Two Cores, and Ensemble 4095 of them. -/
def pair : List UnitName := [up.nameOf (.core 0), up.nameOf (.core 511)]
def ensembled : State := ops { up with ensembles := [(4095, { defined := true, members := pair })] }

theorem wit_UnitsAndEnsembles :
    (ops.admits hd 0x0100 ∧ ops.admits hd 0x0101 ∧ ops.admits hd 0x0108) ∧
    ops.describeNow (up.nameOf (.core 511)) = some (.ok, ops.describeUnit (.core 511)) ∧
    ((core0 fun x => { x with dark := true }).core 0).dark = true ∧
    (ops.admits hd 0x0110 ∧ ops.membersFault none pair pair = none ∧
      freeEntry ((ops.ensembles.filter (fun p => p.2.defined)).map (fun p => p.1)) 4096 = some 0 ∧
      poolBase (ops.poolUsed none) pair.length = some 0) ∧
    (let ms := [up.nameOf (.core 5)]
     ensembled.admits hd 0x0111 ∧ (ensembled.ensemble 4095).locked = false ∧
       ensembled.inRun 4095 = false ∧ takeOut [] (ensembled.ensemble 4095).members = some pair ∧
       ensembled.membersFault (some 4095) ms (pair ++ ms) = none ∧
       poolBase (ensembled.poolUsed (some 4095)) (pair ++ ms).length = some 0) ∧
    (ensembled.admits hd 0x0112 ∧ ensembled.ensembleHeld 4095 = false) := by decide

theorem wit_UnitsAndEnsembles_name : ensembled.ensembleNamed (up.nameOf (.ensemble 4095)) = .ok 4095 := okEq (by decide)

/-- A Rehearsal of an OPERATOR. -/
def rehearsing : State := { ops with cur := { ops.cur with rehearsal := true } }

theorem wit_MemoryAndRehearsalCommands :
    (devAddr 0x100 = some 0x100 ∧ ops.admits hd 0x0300 ∧ ops.confined = false ∧ (1024 : W64).toNat ≤ 1024 ∧ ops.heldBy 0x100 1024 = none) ∧
    (ops.admits hd 0x0301 ∧ ops.writeStatus .command 0x100 1024 = none) ∧
    (ops.admits hd 0x0302 ∧ ops.freeSlot = some 0 ∧ asyncQueue (some 4) ∧ spanRegion 0x100 8 = some .vault) ∧
    (ops.admits hd 0x0310 ∧ ops.regHeld (regAddr 0x400 0x28).toNat = none ∧ ops.admits hd 0x0311) ∧
    (ops.admits hd 0x0F00 ∧ ops.anyRunning = false ∧ ops.cur.rehearsal = false) ∧
    (rehearsing.admits hd 0x0F01 ∧ rehearsing.anyRunning = false ∧ rehearsing.cur.rehearsal = true) ∧
    (rehearsing.admits hd 0x0F02 ∧ rehearsing.coreHere (up.nameOf (.core 511)) = some 511 ∧ rehearsing.holding 511 = false ∧
      (rehearsing.core 511).dark = false ∧ (rehearsing.core 511).inReset = false) ∧
    rehearsing.admits hd 0x0F03 := by
  refine ⟨by decide, by decide, ⟨by decide, by decide, ?_, by decide⟩, by decide, by decide, by decide, by decide, by decide⟩
  intro q h; cases h; decide

theorem wit_MemoryAndRehearsalCommands_values :
    ops.readMem .command 0x100 4 = .ok [0, 0, 0, 0] ∧ rehearsing.regRoute (regAddr 0x5FF 0x28).toNat = .ok (.core 511, 0x28) ∧
    ((ops.regRead (regAddr 0x400 0x28).toNat).toOption.isSome = true) ∧
    ((ops.regWriteTo (some 7) (regAddr 0x400 0x30).toNat 5).toOption.isSome = true) :=
  ⟨okEq (by decide), okEq (by decide), by decide, by decide⟩

/-- Slot 1023 of session 7 in a state, and queue 63 of an OPERATOR's state with one unread record. -/
def slotted (st : SlotSt) : State := { ops with cur := { ops.cur with slots := [(1023, { state := st, session := 7, seq := 9 })] } }
def unread : State := ops (queued fun n => { n with tail := 64 })

theorem wit_QueueAndResultCommands :
    ((63 : BitVec 32).toNat < 64 ∧ ops.admits hd 0x0700 ∧ fld (0x0020000000001000 : W64) 51 48 ≤ 12) ∧
    (unread.admits hd 0x0701 ∧ (64 : W64).toNat ≤ 16384) ∧
    (unread.admits hd 0x0702 ∧ 4 ≤ (63 : BitVec 32).toNat ∧ (unread.nq 63).gapOpen = false ∧
      ((64 : W64).setWidth 32 - (unread.nq 63).head).toNat ≤ (unread.nq 63).used) ∧
    (unread.admits hd 0x0703 ∧ (unread.nq 63).enable = true ∧ (unread.nq 63).flushPending = false ∧ unread.admits hd 0x0704) ∧
    (∀ st ∈ [SlotSt.ready, .pending], (slotted st).namedSlot hd.session 1023 9 = some ((slotted st).slot 1023) ∧
      ((slotted st).slot 1023).state = st ∧ (slotted st).admits hd 0x0710 ∧ (slotted st).admits hd 0x0711) := by decide

theorem wit_QueueAndResultCommands_read : unread.nqBytes 63 64 = .ok (List.replicate 64 0) := okEq (by decide)

/-! ## The Root engines and the Conservators -/

/-- A job descriptor from its fields: its regions lie apart in the Vault. -/
def jobWord (l : List (Nat × Nat × Nat)) : JobDesc := BitVec.ofNat 2048 (pack ([(832, 64, 0x10000), (896, 64, 0x20000), (960, 64, 0x30000),
  (1024, 64, 0x50000), (1088, 64, 0x60000), (1152, 64, 0x10000)] ++ l))

/-- CHOL of order 1 with one right-hand side; the same on engine 31; assembled from a packed factor of order 64; LM. -/
def chol : JobDesc := jobWord [(0, 8, 1), (64, 32, 1), (128, 16, 1)]
def cholAt31 : JobDesc := jobWord [(0, 8, 1), (64, 32, 1), (128, 16, 1), (288, 32, URef.bits (.troupe 31))]
def cholPacked : JobDesc := jobWord [(0, 8, 1), (64, 32, 64), (28, 2, 1)]

/-- An accepted job. -/
def job (d : JobDesc) (f : RootJob → RootJob := id) : RootJob :=
  f { desc := d, seq := 5, priority := 1, submitter := .command 3, deadline := none, members := [31], asm := .complete }

/-- Engine 31 with its jobs, what it runs and what its Assembly stage works on; the descriptors above in memory at 0. -/
def rooted (l : List RootJob) (f : RootEng → RootEng := id) : State := ops (up.modEngine 31 fun e => f { e with jobs := l })

/-- A ROOT cue of priority 3 whose descriptor lies at address 0. -/
def rootQ : W128 := cueWord [(0, 4, 6), (24, 2, 3)]
def atRoot : State := (atCue rootQ).poke 0 (leBytes 256 chol.toNat)

/-- The rule record of SGDM with NS_ITERS 5. -/
def sgdm : Rule := BitVec.ofNat 2048 (5 * 2 ^ 384)

/-- A record at `recAddr` in the Gallery of Conservator 0: one block of 64 × 64, SGDM from the accumulator, working copy BF16, EXPECT 2;
`l` gives the rest. The rule record at Vault 0x1000 is zero but for NS_ITERS 5. -/
def recAddr : Nat := galleryBase + 0x1000
def recWord (l : List (Nat × Nat × Nat)) : Nat := pack ([(64, 64, 0x1000), (192, 64, galleryBase + 0x100000), (256, 64, galleryBase + 0x200000),
  (320, 64, galleryBase + 0x300000), (384, 64, galleryBase + 0x400000), (448, 64, 0x100000), (149, 4, 1), (1088, 32, 2)] ++ l)

/-- Conservator 0 with shard 63, as `f` leaves the Conservator and `e` the entry. -/
def sharded (l : List (Nat × Nat × Nat)) (e : ShardEntry → ShardEntry := id) (f : Cons → Cons := id) : State :=
  (((ops up).poke recAddr (leBytes 256 (recWord l))).poke 0x1000 (leBytes 256 sgdm.toNat)).modCon 0 fun x =>
    f { x with entries := [(63, e { record := BitVec.ofNat 48 recAddr, state := .live })] }

theorem isOk {α β : Type} {e : Except α β} (h : e.toOption.isSome = true) : ∃ x, e = .ok x := by
  cases e <;> simp_all [Except.toOption]

theorem wit_RootSubmissions :
    (issuesNow atRoot ∧ cueClass rootQ = clsRoot ∧ (atRoot.core 0).replayEffects = [] ∧ jGang chol = false ∧ jobOk chol 1 true = true ∧
      arrivedOk chol 0 = true ∧ (atRoot.troupe 0).inReset = false ∧ (atRoot.engine 0).jobs.length < 64 ∧
      (atRoot.core 0).rootQueue = []) ∧
    (let s := atRoot.modCore 0 fun x => { x with rootQueue := List.replicate 2 ({ num := 1, cls := 6, signal := none }, 0, rootQ) }
     s.decides 0 rootQ (.hold .unit)) ∧
    (ops.admits hd 0x0240 ∧ asyncQueue none ∧ (3 : BitVec 8).toNat < 4 ∧ (ops.poke 0 (leBytes 256 cholAt31.toNat)).freeSlot = some 0) ∧
    (let s := rooted [job chol]
     s.admits hd 0x0241 ∧ s.jobNumbered 5 = some (job chol) ∧ s.jobNow (job chol) = job chol ∧ (job chol).lead ∈ (job chol).members ∧
       (s.engine (job chol).lead).running ≠ some (job chol).seq) ∧
    ((rooted [job chol] fun e => { e with running := some 5 }).engine (job chol).lead).running = some (job chol).seq ∧
    (let j := job chol fun j => { j with deadline := some 9 }
     ((rooted [j]).engine 31).job 5 = some j ∧ j.lead = 31 ∧ 31 ∈ j.members ∧ j.deadline = some 9 ∧ (rooted [j]).troupeTimer 31 < 9 ∧
       9 ≤ ({ rooted [j] with now := 9 }).troupeTimer 31) := by
  refine ⟨by decide, by decide, ⟨by decide, ?_, by decide⟩, by decide⟩
  intro q h; cases h

theorem wit_RootSubmissions_desc : atRoot.readDesc (fld rootQ 73 26) = .ok chol ∧
    (ops.poke 0 (leBytes 256 cholAt31.toNat)).commandDesc 0 = .ok cholAt31 ∧
    ((ops.poke 0 (leBytes 256 cholAt31.toNat)).acceptJob cholAt31 3 (.command 0) none).2 = .ok 0 :=
  ⟨okEq (by decide), okEq (by decide), okEq (by decide)⟩

/-- A gang's job, one that runs, one that has ended, one to be assembled and one whose assembly runs. -/
def gangJob : RootJob := job chol fun j => { j with members := [30, 31] }
def runJob : RootJob := job chol fun j => { j with started := true }
def endJob : RootJob := job chol fun j => { j with started := true, ended := some (.singular, false) }
def loopJob : RootJob := job (jobWord [(0, 8, 10), (64, 32, 1), (96, 32, 1)])
def asmJob (d : JobDesc) (a : AsmState) : RootJob := job d fun j => { j with asm := a }

theorem wit_RootUnitsAndAssembly :
    (let s := rooted [job chol]
     (s.troupe 31).inReset = false ∧ (s.engine 31).running = none ∧ s.candidate 31 = some (job chol) ∧ s.jobNow (job chol) = job chol ∧
       (job chol).members = [31] ∧ jLoop (job chol).desc = false ∧
       (job chol).resume = false ∧ ∀ c ∈ coresOfTroupe 31, (s.core c).rootQueue = []) ∧
    (let s := rooted [loopJob]
     s.candidate 31 = some loopJob ∧ s.jobNow loopJob = loopJob ∧ jLoop loopJob.desc = true ∧ loopJob.started = false) ∧
    (let s := (rooted [gangJob]).modEngine 30 fun e => { e with jobs := [gangJob] }
     s.candidate 31 = some gangJob ∧ ∃ u ∈ gangJob.members, u ≠ 31 ∧ (s.engine u).gangWait = false) ∧
    (let x := (rooted [runJob] fun e => { e with running := some 5 }).engine 31
     x.running = some 5 ∧ x.job 5 = some runJob ∧ runJob.lead = 31 ∧ x.gangWait = false ∧ runJob.ended = none ∧ jDirect runJob.desc = true) ∧
    (let s := rooted [endJob] fun e => { e with running := some 5 }
     (s.engine 31).endedJob 31 = some endJob ∧ endJob.ended = some (.singular, false) ∧ s.jobNow endJob = endJob ∧ 31 ∈ endJob.members ∧
       endJob.optimiser = false ∧ s.writeStatus .unit (jRes endJob.desc) 64 = none) ∧
    (let j := asmJob cholPacked .notStarted
     let s := rooted [j]
     (s.engine 31).asmJob = none ∧ bestJob ((s.engine 31).jobs.filter (s.assemblable 31)) = some j ∧ s.jobNow j = j ∧ jArrived j.desc = 0 ∧
       jAsm j.desc ≤ 1) ∧
    (let j := asmJob chol .working
     let s := rooted [j] fun e => { e with asmJob := some 5 }
     (s.engine 31).asmJob = some 5 ∧ (s.engine 31).job 5 = some j ∧ s.jobNow j = j ∧ j.lead = 31 ∧ j.seq = 5) ∧
    (let j := asmJob cholPacked .working
     let s := rooted [j] fun e => { e with asmJob := some 5 }
     (s.engine 31).asmJob = some 5 ∧ (s.engine 31).job 5 = some j ∧ s.jobNow j = j ∧ j.lead = 31 ∧ j.seq = 5) ∧
    (jAsm chol = 0 ∧ jAsm cholPacked = 1) ∧
    ((rooted []).cur.phase = .ready ∧ ((rooted []).troupe 31).inReset = false) := by decide


/-- Shard 63 whose close is at a step, with its arrivals left. -/
def closing (step left : Nat) (f : Cons → Cons := id) : State :=
  sharded [(960, 64, left), (1056, 2, step)] id fun x => f { x with activity := .close, shardNow := 63 }

theorem wit_GradientCloses_begin :
    (∀ l ∈ [[], [(161, 1, 1)]],
      let s := sharded ([(960, 64, 2)] ++ l)
      s.consIdle 0 = true ∧ s.complete 0 63 = true ∧ s.heldFree (s.recAt 0 63) = true ∧ s.rFab (s.recAt 0 63) 1 = (l != [])) ∧
    (let s := sharded [(960, 64, 2), (1024, 32, 1)]
     s.complete 0 63 = true ∧ s.heldFree (s.recAt 0 63) = false ∧ (s.con 0).inReset = false) ∧
    (let s := sharded [(1056, 2, 1)]
     s.closeOpen 0 63 = true ∧ s.consIdle 0 = true ∧ s.rFab (s.recAt 0 63) 1 = false) := by decide +kernel

theorem wit_GradientCloses :
    (∀ k ∈ [0, 1],
      let s := closing 1 0 fun x => { x with sent := true, awaited := k }
      (s.con 0).activity = .close ∧ (s.con 0).shardNow = 63 ∧ s.recAt 0 63 = recAddr ∧ s.rCloseState recAddr = 1 ∧ (s.con 0).sent = true ∧
        (s.con 0).awaited = k) ∧
    (let s := closing 1 0
     (s.con 0).activity = .close ∧ (s.con 0).shardNow = 63 ∧ s.recAt 0 63 = recAddr ∧ s.rCloseState recAddr = 1 ∧ s.rCloses recAddr = 0 ∧
       s.rFab recAddr 1 = false ∧ fld (BitVec.ofNat 64 (s.rGrad recAddr 0)) 63 48 = 0 ∧ 0 < s.rN recAddr ∧
       (s.con 0).sent = false ∧ (s.con 0).awaited = 0 ∧
       s.heldBy (fld (BitVec.ofNat 64 (s.rGrad recAddr 0)) 47 0) (4 * s.rN recAddr) = none ∧
       s.writeStatus .unit (fld (BitVec.ofNat 64 (s.rGrad recAddr 0)) 47 0) (4 * s.rN recAddr) = none) ∧
    (∀ left ∈ [0, 1],
      let s := closing 2 left
      (s.con 0).activity = .close ∧ (s.con 0).shardNow = 63 ∧ s.recAt 0 63 = recAddr ∧ s.rCloseState recAddr = 2 ∧ s.rSource recAddr ≠ 1 ∧
        recAddr + 256 ≤ s.recGet recAddr 383 320 ∧ s.rArrived recAddr = left) := by decide +kernel

theorem wit_GradientCloses_read :
    ∃ b, (closing 1 0).consRead false ((closing 1 0).recGet recAddr 383 320) (4 * (closing 1 0).rN recAddr) = .ok b := isOk (by decide +kernel)

/-- Shard 63 under way: what Conservator 0 does, with one gradient to apply. -/
def sweeping (a : Activity) (f : Cons → Cons := id) (e : ShardEntry → ShardEntry := id) : State :=
  sharded [(1024, 32, 1)] e fun x => f { x with activity := a, shardNow := 63 }

theorem wit_SweepsAndCommits :
    (let s := sharded [(1024, 32, 1)]
     s.consIdle 0 = true ∧ s.anyClose 0 = false ∧ s.nextShard 0 = some 63 ∧ ruleOk sgdm = true) ∧
    (∀ d ∈ [false, true],
      let s := sweeping .holdWait id fun e => { e with discard := d }
      (s.con 0).activity = .holdWait ∧ (s.con 0).shardNow = 63 ∧ s.recAt 0 63 = recAddr ∧ (0, 63) ∉ s.cur.ckptHolds ∧
        s.num (holdAddr recAddr ((s.rVersion recAddr + 1) % 2)) 8 = 0 ∧ (s.shard 0 63).discard = d ∧ s.rFab recAddr 0 = false ∧
        s.rFab recAddr 2 = false) ∧
    (let s := sharded [(1024, 32, 1), (896, 64, 1)] id fun x => { x with activity := .holdWait, shardNow := 63 }
     (s.con 0).activity = .holdWait ∧ s.num (holdAddr recAddr ((s.rVersion recAddr + 1) % 2)) 8 ≠ 0) ∧
    (let s := sweeping .pass
     (s.con 0).activity = .pass ∧ s.rSource recAddr ≠ 2 ∧ (s.rBlocks recAddr)[(s.con 0).block]? = some { ti := 0, tj := 0, nr := 1, nc := 1 } ∧
       uSkip (s.con 0).rule = false ∧ uSkip ((sweeping .pass fun x => { x with rule := 0x100 }).con 0).rule = true) := by decide +kernel

theorem wit_SweepsAndCommits_commits :
    (let s := sweeping .pass fun x => { x with awaited := 1 }
     (s.con 0).shardNow = 63 ∧ s.recAt 0 63 = recAddr ∧ s.recGet recAddr 1334 1334 = 0 ∧ (s.con 0).inReset = false ∧
       (s.con 0).activity = .pass ∧ (s.con 0).awaited ≠ 0) ∧
    (∀ k ∈ [0, 1],
      let s := sweeping .afterCommit fun x => { x with useStaged := true, sent := true, awaited := k }
      (s.con 0).inReset = false ∧ (s.con 0).activity = .afterCommit ∧ (s.con 0).useStaged = true ∧ (s.con 0).sent = true ∧
        (s.con 0).awaited = k ∧ (s.con 0).bad = false) ∧
    (let s := sweeping .pass fun x => { x with block := 1 }
     s.recGet recAddr 1334 1334 = 0 ∧ (s.con 0).inReset = false ∧ (s.con 0).activity = .pass ∧ (s.con 0).awaited = 0 ∧
       (s.rBlocks recAddr).length ≤ (s.con 0).block ∧ (s.con 0).useStaged = false ∧ s.rSource recAddr ≠ 2) ∧
    (let s := sweeping .skipCopy
     (s.con 0).activity = .skipCopy ∧ (s.con 0).sent = false ∧ (s.con 0).awaited = 0 ∧ (s.con 0).useStaged = false) := by decide +kernel

/-- The same block with a NaN at the start of its gradient. -/
def nanGrad : State := (sweeping .pass).poke (galleryBase + 0x400000) (leBytes 4 0x7FC00000)

theorem wit_SweepsAndCommits_reads :
    (sharded [(1024, 32, 1)]).readRule recAddr = .ok sgdm ∧
    (∃ y, (sweeping .pass).readBlock 0 63 { ti := 0, tj := 0, nr := 1, nc := 1 } = .ok y) ∧
    (nanGrad.readBlock 0 63 { ti := 0, tj := 0, nr := 1, nc := 1 }).toOption.any (fun y => !finT (scaled 0 y.g)) = true ∧
    ∃ w, (sweeping .skipCopy).readTiles ((sweeping .skipCopy).rFab recAddr 0)
      ((sweeping .skipCopy).rSlotBase recAddr ((sweeping .skipCopy).rSlot recAddr))
      (List.range ((sweeping .skipCopy).rN recAddr / 4096)) = .ok w :=
  ⟨okEq (by decide +kernel), isOk (by decide +kernel), by decide +kernel, isOk (by decide +kernel)⟩

theorem wit_ShardsAndCompares :
    (let s := sharded [] fun e => { e with compareQueued := true, foldDue := true }
     (List.range 64).find? (fun i => (s.shard 0 i).compareQueued) = some 63 ∧ s.consIdle 0 = true ∧ s.recAt 0 63 = recAddr ∧
       s.anyClose 0 = false ∧ (List.range 64).find? (fun i => (s.shard 0 i).foldDue) = some 63) ∧
    (sharded [(960, 64, 2)]).anyClose 0 = true ∧
    (let s := sharded [] fun e => { e with state := .halted }
     s.admits hd 0x0230 ∧ devAddr (BitVec.ofNat 64 recAddr) = some recAddr ∧ s.admits hd 0x0231 ∧ (s.shard 0 63).state = .halted ∧
       s.admits hd 0x0232 ∧ s.shardHeld 0 63 = false ∧ s.admits hd 0x0233) := by decide +kernel

theorem wit_ShardsAndCompares_reads :
    (∃ w, (sharded []).readTiles ((sharded []).rFab recAddr 0) ((sharded []).rSlotBase recAddr ((sharded []).rSlot recAddr))
      (List.range ((sharded []).rN recAddr / 4096)) = .ok w) ∧
    (∃ b, (sharded []).consRead ((sharded []).rFab recAddr 2) ((sharded []).rWork recAddr ((sharded []).rVersion recAddr % 2))
      ((sharded []).rWorkBytes recAddr) = .ok b) ∧
    (∃ r, (sharded []).shardLoad 0 recAddr = .ok r) ∧ (sharded []).shardNamed 0 63 = .ok () :=
  ⟨isOk (by decide +kernel), isOk (by decide +kernel), isOk (by decide +kernel), okEq (by decide +kernel)⟩

theorem wit_RootUnitsAndAssembly_kron : ∃ a, (rooted []).kron (asmJob cholPacked .working).prec cholPacked = .ok a := isOk (by decide +kernel)

/-! ## The fabric -/

/-- A request of device 1 over association 16383. -/
def rq (target : W64) (data : List Byte) (aux : BitVec 48 := 0) (length : Nat := data.length) : MioReq :=
  { assoc := 16383, counter := 1, phase := false, psn := 0, path := 0, reqId := 9, fwd := false, target := target, version := 0, gen := 0,
    length := length, aux := aux, data := data }

/-- A request for a unit of this device. -/
def uq (u : UnitName) (data : List Byte) (aux : BitVec 48 := 0) (length : Nat := data.length) : MioReq := rq (u.setWidth 64) data aux length

/-- The packet of a request is admitted. -/
abbrev taking (s : State) (r : MioReq) : Prop := s.takes r.assoc r.counter r.phase r.psn r.path

theorem wit_PeerMemoryRequests :
    (let r := rq 0x020000000000 [1, 2, 3]
     taking peered r ∧ peered.mioHeld 0x01 r = none ∧ mioBad r 0x01 = false ∧ peered.mioPlace r permWrite r.data.length = .here 0x020000000000 ∧
       peered.writeStatus (.peer false) 0x020000000000 r.data.length = none) ∧
    (let r := rq 0x100 [] 0 4
     taking peered r ∧ peered.mioHeld 0x02 r = none ∧ mioBad r 0x02 = false ∧ (peered.assoc 16383).hostPeer = false ∧
       peered.mioPlace r permRead r.length = .here 0x100) ∧
    (let r := rq 0x100 (List.replicate 16 7) 2
     taking peered r ∧ peered.mioHeld 0x03 r = none ∧ mioBad r 0x03 = false ∧ peered.mioPlace r permAtomic 8 = .here 0x100 ∧
       fld r.aux 2 0 ≤ 2 ∧ peered.readStatus (.peer false) 0x100 8 = none ∧ peered.writeStatus (.peer false) 0x100 8 = none) ∧
    (let r := rq 0x020000000000 [0, 0, 128, 63]
     taking peered r ∧ peered.mioHeld 0x04 r = none ∧ mioBad r 0x04 = false ∧ peered.mioPlace r permAdd 4 = .here 0x020000000000 ∧
       spanRegion 0x020000000000 4 = some .gallery ∧ peered.writeStatus (.peer false) 0x020000000000 4 = none ∧
       (peered.galleryPoison 0x020000000000 4).isEmpty = true) := by decide

theorem wit_PeerMemoryRequests_read : peered.serveGet (.peer (peered.assoc 16383).hostPeer) 0x100 4 0 = .ok [0, 0, 0, 0] := okEq (by decide)

/-- Association 16383 is UP, and Core 511 as `f` leaves it. -/
def peeredCore (f : Core → Core) : State := peered.modCore 511 f

/-- Endpoint 15 is LIVE, with nothing waiting or held. -/
def endpoint (e : Endpoint) (x : Core) : Core := { x with str := { x.str with eps := [(15, e)] } }

theorem wit_PeerUnitRequests_clear : (peered.assoc 16383).hostPeer = false ∧ peered.activating = false ∧ peered.mio.landing = [] ∧
    (peered.assoc 16383).rxSeen = [] ∧ (peered.assoc 16383).backlog = [] ∧ (peered.core 511).inReset = false ∧
    (peered.core 511).heldIn = [] ∧ (peered.core 511).str.queue = [] := by decide

theorem wit_PeerUnitRequests :
    (let r := uq (up.nameOf (.core 511)) (List.replicate 16 0) 3
     taking peered r ∧ peered.badMsg r = false ∧ nameRef (BitVec.ofNat 48 (fld r.target 47 0)) = some (.core 511) ∧ fld r.aux 22 20 = 0 ∧
       r.psn = (peered.assoc r.assoc).rxCum ∧ (peered.core 511).dark = false) ∧
    (let r := uq (up.nameOf (.core 511)) [] 63
     taking peered r ∧ mioBad r 0x06 = false ∧ peered.isHere (BitVec.ofNat 48 (fld r.target 47 0)) = true ∧ (peered.core 511).open = true ∧
       (peered.core 511).logRoom 1 = true) ∧
    (let r := uq (up.nameOf (.core 511)) (List.replicate 16 1) 15
     let s := peeredCore (endpoint { state := .live, enable := true, outstanding := 1 })
     taking s r ∧ mioBad r 0x07 = false ∧ coreName (BitVec.ofNat 48 (fld r.target 47 0)) = some 511 ∧ (s.core 511).open = true ∧
       ((s.core 511).ep 15).state ≠ .off ∧ ((s.core 511).ep 15).waiting.length + ((s.core 511).ep 15).held.length < 64 ∧
       (s.core 511).logRoom 1 = true) ∧
    (let r := uq (up.nameOf (.core 511)) [] 1
     taking peered r ∧ mioBad r 0x08 = false ∧
       peered.describeNow (up.nameOf (.core 511)) = some (.ok, peered.describeUnit (.core 511))) ∧
    (let a := regAddr 0x400 0x30
     peered.regHeld a.toNat = none ∧
     (let r := rq a [] 0 0
      taking peered r ∧ mioBad r 0x09 = false ∧ peered.mioPlace r permRead 8 = .here a.toNat) ∧
     (let r := rq a (List.replicate 8 0)
      taking peered r ∧ mioBad r 0x0A = false ∧ peered.mioPlace r permWrite 8 = .here a.toNat)) := by decide

theorem wit_PeerUnitRequests_route : peered.regRoute (regAddr 0x400 0x30).toNat = .ok (.core 0, 0x30) := okEq (by decide)

/-- A RELEASE cue that waits for its answer. -/
def aRelease : StrCue := { cue := { num := 9, cls := 4, signal := none }, word := 0, at_ := 0, tiles := [], off := 0, ecc := .clean }

/-- A request of this device that waits on association 16383 for its response, or is kept. -/
def sentReq (op : BitVec 8) (purpose : Purpose) : PendReq := { psn := 3, reqId := 9, path := 0, out := { op := op, target := 0 }, purpose := purpose, gen := 0 }
def waitingFor (p : PendReq) (s : State := peered) : State := s.setAssoc 16383 { s.assoc 16383 with reqs := [p] }

theorem wit_PeerAnswers :
    (let s := waitingFor (sentReq 7 (.handle 511 15)) (peeredCore (endpoint { state := .live, releasing := some aRelease }))
     s.takes 16383 1 false 0 0 ∧ (s.assoc 16383).reqs.find? (fun r => r.reqId == 9 && r.out.status.isNone) = some (sentReq 7 (.handle 511 15)) ∧
       (sentReq 7 (.handle 511 15)).gen = (s.core 511).resetGen ∧ ((s.core 511).ep 15).releasing.isSome = true) ∧
    (peered.mayEnter 16383 1 false).2 = true ∧
    (nameRef (up.nameOf (.core 0)) = some (.core 0) ∧ (up.core 0).resetGen ≠ 5 ∧ peered.takes 16383 1 false 0 0) ∧
    (let u := up.nameOf (.ensemble 4095)
     up.isHere u = true ∧ nameRef u = some (.ensemble 4095)) := by decide

/-- Association 16383 with one request that waits, on path 0 with so many timeouts. -/
def timing (timeouts : Nat) (f : Assoc → Assoc := id) : State :=
  peered fun a => f { a with paths := [(0, { timeouts := timeouts, suspect := true })], reqs := [{ sentReq 1 .token with resend := true }] }

/-- Path 0 of that association is being probed. -/
def probed (timeouts : Nat) : State :=
  peered fun a => { a with paths := [(0, { timeouts := timeouts, suspect := true, probing := true })] }

theorem wit_AssociationsOverTime_probes : ∀ n ∈ [0, 1, 2], ((probed n).assoc 16383).state = .up ∧
    (Tab.get {} ((probed n).assoc 16383).paths 0 : Path).suspect = true ∧ (Tab.get {} ((probed n).assoc 16383).paths 0 : Path).probing = true ∧
    (Tab.get {} ((probed n).assoc 16383).paths 0 : Path).timeouts = n := by decide

theorem wit_AssociationsOverTime_timers :
    (∀ n ∈ [0, 1, 2, 3], ((timing n).assoc 16383).state = .up ∧ ((timing n).assoc 16383).reqs.find? (fun r => r.psn == 3 && !r.acked && !r.queued) =
      some { sentReq 1 .token with resend := true }) ∧
    (Tab.get {} ((timing 0).assoc 16383).paths 0 : Path).suspect = true ∧ Tab.mem ((timing 0).assoc 16383).paths 0 = true ∧
    ((timing 0 fun a => { a with reqs := [{ sentReq 5 .token with busyWait := true }] }).assoc 16383).reqs.filter (fun r => r.reqId == 9 && r.busyWait) ≠ [] ∧
    2 ^ 40 ≤ (BitVec.ofNat 64 (2 ^ 40)).toNat := by decide

/-- Port 3 as given. -/
def withPort (p : Port) : State := { up with mio := { up.mio with ports := [(3, p)] } }

theorem wit_AssociationsOverTime_ports :
    (let s := withPort { linkUp := 0x80 }
     bitOf (s.port 3).linkUp.toNat 7 = true) ∧
    (let s := withPort { mode := 3 }
     bitOf (s.port 3).linkUp.toNat 7 = false ∧ bitOf (s.port 3).subOff.toNat 7 = false ∧ subLanes (s.port 3).mode.toNat 7 ≠ []) ∧
    (let s := withPort { training := 0x80, retrying := 0x40, retrainFails := [(7, 2)] }
     bitOf (s.port 3).training.toNat 7 = true ∧ bitOf (s.port 3).retrying.toNat 6 = true) ∧
    (let s := up.setAssoc 16383 { state := .opening, slot := some 1023 }
     (s.assoc 16383).state = .opening) ∧
    ((peered.assoc 16383).state = .up ∧ (peered.assoc 16383).kept = [] ∧ peered.coll.colls = [] ∧ peered.mio.migration = none) := by decide

/-- A migration of entry 1023 of the Accession table, one granule of 4,096 bytes of the Vault, to another place of the Vault. -/
def migrating (m : Migration) : State :=
  { up with mio := { up.mio with migration := some { m with entry := 1023, slot := 1023 },
                                 accession := [(1023, { sizeLog := 12, state := .migrating, permLocal := 15, newAddr := 0x10000 })] },
            cur := { up.cur with slots := [(1023, { state := .pending, session := 7, seq := 9 })] } }

theorem wit_MigrationsAndAccession_run :
    (∀ d ∈ [[], List.range 16, List.range 17], ∀ p ∈ [1, 7, 8], (migrating { entry := 0, slot := 0, dirty := d, pass := p }).mio.migration =
      some { entry := 1023, slot := 1023, dirty := d, pass := p }) ∧
    (let s := migrating { entry := 0, slot := 0, holding := true, dirty := [0] }
     s.migInFlight (Tab.get {} s.mio.accession 1023) = false) := by decide

/-- What a migration holds: nothing; its copies are asked for, `w` of them unanswered. -/
def asked (w : Nat) (f : Option Status := none) : Migration := { entry := 1023, slot := 1023, asked := true, awaiting := w, failed := f }

theorem wit_MigrationsAndAccession_copies :
    (∀ w ∈ [0, 1], ∀ f ∈ [none, some .gone], ∀ h ∈ [false, true],
      let m := { asked w f with holding := h }
      let s := migrating m
      s.mio.migration = some m ∧ m.held = [] ∧ m.cmds = [] ∧ s.mio.heldWrites = [] ∧ s.coll.colls = [] ∧ m.holding = h ∧
        (s.migRun m m.toCopy).mio.migration = some m ∧ (s.migRun m m.dirty).mio.heldWrites = [] ∧ m.failed = f ∧ m.awaiting = w) ∧
    (let m : Migration := { entry := 1023, slot := 1023, toCopy := [0] }
     ((migrating m).migRun m [0]).mio.migration = some { m with asked := true }) ∧
    (let s := (migrating { asked 0 with holding := true }).setAssoc 16383 { state := .up, reqs := [sentReq 1 .token].map (fun r =>
        { r with out := { r.out with fwd := true } }) }
     s.migInFlight (Tab.get {} s.mio.accession 1023) = true) := by decide +kernel

/-! ## Collectives -/

/-- Cells of bytes from an address. -/
def cells (a : Nat) (b : List Byte) : List Host.Cell := ((numbered a b).filter (fun p => p.2 != 0)).map (fun p => ⟨p.1, p.2⟩)

/-- A word of 8 bytes of the Gallery, 1, by its address. -/
def ready : Nat := 0x020000000000

/-- A posted collective of two ranks: rank 0 on device 1, rank 1 with its SRC there and its DST on this device at `ready` + 0x1000; EXPECT 1. -/
def coll (l : List (Nat × Nat × Nat)) (f : Coll → Coll := id) : Coll :=
  f { posted := true, counts := [1, 1],
      desc := BitVec.ofNat 2048 (pack ([(64, 32, 77), (96, 13, 2), (512, 64, ready), (576, 32, 1), (832, 64, ready + 8)] ++ l)),
      ranks := [BitVec.ofNat 512 (pack [(112, 16, 1), (176, 16, 1)]), BitVec.ofNat 512 (pack [(112, 16, 1), (128, 64, ready + 0x1000)])] }

/-- Collective 255 as given, its ready word 1; association 16383 with device 1 is UP. -/
def withColl (x : Coll) : State :=
  { ops peered with coll := { up.coll with colls := [(255, x)] }, mem := [⟨ready, 1⟩] }

/-- BROADCAST of FP32. -/
def broadcast (f : Coll → Coll := id) : State := withColl (coll [(0, 8, 5)] f)

/-- A run of an operation on FP32, and what it holds. -/
def running (op : Nat) (y : CollRun) (l : List (Nat × Nat × Nat) := []) : State :=
  withColl (coll ([(0, 8, op)] ++ l) fun x => { x with now := some y })

/-- The same collective with rank 1 on device 2, with which no association is UP. -/
def apart (f : Coll → Coll := id) : Coll :=
  coll [(0, 8, 5)] fun x => f { x with ranks := x.ranks.take 1 ++ [BitVec.ofNat 512 (pack [(112, 16, 2), (128, 64, ready)])] }

/-- A BROADCAST of one rank of this device, its SRC at `ready` + 0x2000 and its DST at `ready` + 0x1000. -/
def lone (l : List (Nat × Nat × Nat) := []) (f : Coll → Coll := id) : Coll :=
  f { posted := true, counts := [1], desc := BitVec.ofNat 2048 (pack ([(0, 8, 5), (64, 32, 77), (96, 13, 1), (512, 64, ready),
        (576, 32, 1), (832, 64, ready + 8)] ++ l)),
      ranks := [BitVec.ofNat 512 (pack [(64, 64, ready + 0x2000), (128, 64, ready + 0x1000)])] }

/-- Two digests that differ: the unevaluated digest of this device is at most one of them. -/
theorem wit_digest (x : Coll) (h : x.run = 0) : { x with digests := [(1, [0]), (2, [1])] }.disagrees = true ∧
    ∃ d : List Byte, d ≠ [] ∧ d ≠ x.digest := by
  constructor
  · have e : ∀ d : List Byte, ([0] != d || ([1] != d || false)) = true := by
      intro d
      cases h : ([0] : List Byte) != d
      · rw [← (bne_eq_false_iff_eq.mp h)]; decide
      · rfl
    simpa [Coll.disagrees, h] using e _
  · by_cases e : [0] = x.digest
    · exact ⟨[1], by decide, by rw [← e]; decide⟩
    · exact ⟨[0], by decide, e⟩

theorem wit_CollectiveRuns_start :
    ((broadcast.collOf 255).posted = true ∧ (broadcast.collOf 255).now = none ∧ broadcast.transitionRuns (broadcast.collOf 255) = false ∧
      (broadcast.collOf 255).readyAgain = 0 ∧ (broadcast.collOf 255).expect ≤ broadcast.num (broadcast.collOf 255).readyAddr 8 ∧
      broadcast.writeStatus .unit (broadcast.collOf 255).readyAddr 8 = none ∧ (broadcast.collOf 255).isVersioned = false ∧
      (broadcast.collOf 255).mySrcs broadcast.me = [] ∧ (broadcast.collOf 255).op ≠ opAllReduce ∧ (broadcast.collOf 255).disagrees = false ∧
      broadcast.collOthers 255 = [1] ∧ (broadcast.upAssoc 1).isSome = true ∧ (broadcast.collOf 255).run = 0) ∧
    (let s := withColl (apart)
     (s.collOf 255).posted = true ∧ (s.collOf 255).now = none ∧ s.transitionRuns (s.collOf 255) = false ∧
       (s.collOf 255).expect ≤ s.num (s.collOf 255).readyAddr 8 ∧ 2 ∈ s.collOthers 255 ∧ s.upAssoc 2 = none) ∧
    (let s := running 5 {}
     (s.collOf 255).now.isSome = true) := by decide

theorem wit_CollectiveRuns :
    (let s := broadcast fun x => { x with now := some { got := 1 } }
     (s.collOf 255).now = some { got := 1 } ∧ s.deviceReady 255 = true ∧ (s.collOf 255).inMap = false ∧ (s.collOf 255).doneAddr ≠ 0 ∧
       s.writeStatus .unit (s.collOf 255).doneAddr 8 = none ∧ fld (s.collOf 255).desc 20 20 = 0 ∧ 1 ∈ s.collOthers 255 ∧
       1 ∉ ({ got := 1 } : CollRun).done) ∧
    (let r : CollRun := { got := 1, dist := [0], arrived := [(0, 1)], pushed := [0] }
     let s := withColl (lone [] fun x => { x with now := some r })
     (s.collOf 255).now = some r ∧ s.deviceReady 255 = true ∧ s.collOthers 255 = [] ∧ (s.collOf 255).measures = false) ∧
    (let s := broadcast fun x => { x with early := { ready := [1] } }
     (s.collOf 255).early.ready ≠ [] ∧ s.endsAlone 255 ∧ (s.collOf 255).myDsts s.me = [1] ∧ (s.collOf 255).rs.any (s.collOf 255).inPlace = false) := by decide

/-- A request of device 1 about run 0 of collective 77, and about run 1 of it. -/
def cq (target : W64) (data : List Byte) : MioReq := rq target data 77
def cq1 (data : List Byte) : MioReq := rq 0 data (77 + 2 ^ 32)

theorem wit_CollectiveRequests :
    (let s := running 5 {}
     let r := cq (BitVec.ofNat 64 (ready + 0x1000)) [1, 2, 3, 4]
     taking s r ∧ s.collNamed r = some 255 ∧ (∀ q ∈ s.arrivalSpans r, s.collWaits q.1 q.2.1 q.2.2 = false) ∧ (s.collOf 255).combines = false ∧
       (s.collOf 255).chain = false ∧ (s.collOf 255).stagesAt s.me r.target = false ∧ r.data.length % (s.collOf 255).w = 0 ∧
       s.place true permWrite r.target r.data.length = .here (ready + 0x1000) ∧ s.writeStatus .unit (ready + 0x1000) r.data.length = none) ∧
    (let s := running 2 {}
     let r := cq (BitVec.ofNat 64 (ready + 0x1000)) [0, 0, 128, 63]
     taking s r ∧ s.collNamed r = some 255 ∧ (∀ q ∈ s.arrivalSpans r, s.collWaits q.1 q.2.1 q.2.2 = false) ∧
       (s.collOf 255).op = opReduceScatter ∧ (s.collOf 255).element s.me r.target = some 1 ∧
       r.data.length = (s.collOf 255).w ∧ Tab.get 0 ({} : CollRun).arrived 1 + 1 < (s.collOf 255).nRanks) ∧
    (taking broadcast (cq 0 [1, 2, 3, 4]) ∧ broadcast.collNamed (cq 0 [1, 2, 3, 4]) = some 255 ∧ (broadcast.collOf 255).now = none ∧
      (∀ q ∈ broadcast.arrivalSpans (cq 0 [1, 2, 3, 4]), broadcast.collWaits q.1 q.2.1 q.2.2 = false)) ∧
    (let s := running 5 { localDone := true }
     taking s (cq 0 []) ∧ s.collNamed (cq 0 []) = some 255 ∧ (∀ e ∈ s.collOthers 255, e = s.peerOf (cq 0 [])) ∧
       (s.collOf 255).measures = false ∧ (s.collOf 255).inMap = false) ∧
    (let s := withColl (apart fun x => { x with now := some {} })
     taking s (cq 0 []) ∧ s.collNamed (cq 0 []) = some 255 ∧ 2 ∈ s.collOthers 255 ∧ 2 ≠ s.peerOf (cq 0 [])) := by decide

theorem wit_CollectiveRequests_control :
    (let r := cq 0 (leBytes 2 (statusCode .integrity))
     taking (running 5 {}) r ∧ (running 5 {}).collNamed r = some 255 ∧ (running 5 {}).endsAlone 255) ∧
    (let r := cq 0 (leBytes 8 1 ++ leBytes 8 2)
     taking (running 5 {}) r ∧ (running 5 {}).collNamed r = some 255 ∧ broadcast.collNamed r = some 255) ∧
    (taking (running 5 {}) (cq1 []) ∧ (running 5 {}).collNamed (cq1 []) = none ∧ (running 5 {}).collNext (cq1 []) = some 255 ∧
      broadcast.collNamed (cq1 []) = none ∧ broadcast.collNext (cq1 []) = none) ∧
    (broadcast.collById (fld (cq 0 []).aux 31 0) = some 255 ∧ (running 5 {}).collById (fld (cq 0 []).aux 31 0) = some 255 ∧
      ((running 5 {}).collOf 255).run.toNat % 65536 = fld (cq 0 []).aux 47 32 ∧ ((running 5 {}).collOf 255).mySrcs (running 5 {}).me = [] ∧
      ((running 5 {}).collOf 255).inMap = false ∧ ((running 5 {}).collOf 255).disagrees = false ∧ ((running 5 {}).collOf 255).run = 0) := by decide

/-- A descriptor of a BROADCAST of one rank on this device, at Vault address 0x100; its tables are zeros at 0x400 and 0x800. -/
def descSpan : List Byte :=
  leBytes 256 (pack [(0, 8, 5), (64, 32, 78), (96, 13, 1), (256, 64, 0x400), (320, 64, 0x800), (512, 64, ready), (576, 32, 1)])
def posting : State := { broadcast with mem := cells 0x100 descSpan ++ [⟨ready, 1⟩] }

/-- Mapping 15 as given, its lists empty, its phase word at `ready` and its EXPECT 1. -/
def mappingRec : Nat := pack [(64, 64, ready), (128, 32, 1)]
def mapped15 (m : Mapping) (s : State := broadcast) : State :=
  { s with coll := { s.coll with maps := [(15, { m with valid := true, record := BitVec.ofNat 2048 mappingRec })] } }

/-- A transition of mapping 15 stopped at collective 77, which belongs to the mapping. -/
def stoppedAt : State := mapped15 { transition := true, stopped := true, todo := [77] } (withColl (coll [(0, 8, 5), (33, 5, 31)]))

theorem wit_CollectiveCommands :
    (posting.admits hd 0x0250 ∧ devAddr 0x100 = some 0x100 ∧ (posting.collPost 0x100).toOption.isSome = true) ∧
    (let k : BitVec 32 := 255
     k.toNat < 256 ∧ (broadcast.collOf k.toNat).posted = true ∧ broadcast.admits hd 0x0251 ∧ broadcast.admits hd 0x0252 ∧ broadcast.admits hd 0x0253 ∧
       (broadcast.collOf k.toNat).kept = false ∧ (broadcast.mapping 0).stopped = false ∧
       ((running 5 {}).collOf k.toNat).now.isSome = true ∧ (running 5 {}).endsAlone k.toNat ∧ broadcast.transitionRuns (broadcast.collOf k.toNat) = false ∧
       (∀ m ∈ broadcast.coll.maps, m.2.valid = false)) ∧
    (let x := stoppedAt.collOf 255
     stoppedAt.admits hd 0x0252 ∧ x.now = none ∧ x.inMap = true ∧ (stoppedAt.mapping x.mapNo).transition = true ∧
       (stoppedAt.mapping x.mapNo).stopped = true ∧ (stoppedAt.mapping x.mapNo).todo.head? = some (BitVec.ofNat 32 x.id)) ∧
    (let s := { broadcast with mem := cells 0x100 (leBytes 256 mappingRec) }
     s.admits hd 0x0254 ∧ (s.mappingPostCmd 15 0x100).toOption.isSome = true) ∧
    ((mapped15 {}).admits hd 0x0255 ∧ ((mapped15 {}).mapping 15).valid = true ∧ ((mapped15 {}).mapping 15).transition = false) := by decide

/-- Mapping 15 lists collective 77, which is as given, or `id`. -/
def listing (x : Coll) (id : BitVec 32 := 77) : State := mapped15 { lists := [[id]] } (withColl x)

theorem wit_TransitionsAndChains_transitions :
    (∀ s ∈ [mapped15 {}, listing (coll [(0, 8, 5)]), listing (apart), listing (coll [(0, 8, 5)]) 78],
      let x := s.mapping 15
      x.valid = true ∧ x.transition = false ∧ fld x.record 159 128 ≤ s.num (fld x.record 127 64) 8 ∧
        s.writeStatus .unit (fld x.record 127 64) 8 = none) ∧
    nth [] ((mapped15 {}).mapping 15).lists (phaseNo ((mapped15 {}).mapping 15).phase) = [] ∧
    (let s := listing (coll [(0, 8, 5)] fun x => { x with now := some {} })
     nth [] (s.mapping 15).lists (phaseNo (s.mapping 15).phase) = [77] ∧ s.collById 77 = some 255 ∧ (s.collOf 255).now.isSome = true) ∧
    (let s := listing (coll [(0, 8, 5)])
     s.collById 77 = some 255 ∧ (s.collOf 255).now = none ∧ (s.collOf 255).isVersioned = false ∧ (s.collOf 255).mySrcs s.me = [] ∧
       (s.collOf 255).op ≠ opAllReduce ∧ (s.collOf 255).disagrees = false ∧ (∀ d ∈ s.collOthers 255, (s.upAssoc d).isSome = true) ∧
       s.collById 78 = none) ∧
    (let s := listing (apart fun x => { x with desc := x.desc ||| BitVec.ofNat 2048 (15 * 2 ^ 33) })
     (s.collOf 255).now = none ∧ (∃ d ∈ s.collOthers 255, s.upAssoc d = none) ∧ (s.collOf 255).mapNo = 15 ∧
       (s.collOf 255).isVersioned = false) ∧
    (mapped15 { transition := true }).mapping 15 = { (mapped15 {}).mapping 15 with transition := true } := by decide

theorem wit_TransitionsAndChains_entered :
    let r : CollRun := { got := 1, dist := [0], arrived := [(0, 1)], pushed := [0], byTransition := true }
    let s := mapped15 { transition := true, todo := [77] } (withColl (lone [(33, 5, 31)] fun x => { x with now := some r }))
    let x := s.collOf 255
    x.now = some r ∧ s.deviceReady 255 = true ∧ x.inMap = true ∧ x.measures = false ∧ x.mapNo = 15 ∧ (s.mapping 15).transition = true ∧
      (s.mapping 15).stopped = false ∧ (s.mapping 15).todo = [77] ∧ s.collOthers 255 = [] ∧ x.keepable = false := by decide

/-- A CHAIN whose first chunk has arrived here, or has been passed on. -/
def chained (y : CollRun) (l : List (Nat × Nat × Nat) := []) : State := running 5 { y with arrived := [(0, 4)] } ([(17, 1, 1)] ++ l)

theorem wit_TransitionsAndChains_chains :
    (let s := chained {}
     let x := s.collOf 255
     x.chain = true ∧ x.op = opBroadcast ∧ 0 < x.chunkCount ∧ x.holds s.me 0 { arrived := [(0, 4)] } = true ∧ after s.me x.chainDevs = none ∧
       s.collWaits permRead (x.firstDst s.me) (x.chunkLen 0) = false ∧
       (x.myDsts s.me).filter (fun q => x.dst q != x.firstDst s.me) = [] ∧ x.srcDev x.root ≠ s.me ∧
       (s.collRead x 0 (x.firstDst s.me) (x.chunkLen 0)).toOption = some [0, 0, 0, 0]) ∧
    (let s := (chained {}).modDie 0 fun g => { g with poisoned := [ready + 0x1000] }
     let x := s.collOf 255
     errorOf (s.collRead x 0 (x.firstDst s.me) (x.chunkLen 0)) = some .integrity ∧ s.endsAlone 255 ∧
       x.holds s.me 0 { arrived := [(0, 4)] } = true) ∧
    ((running 5 {} [(17, 1, 1)]).collOf 255).holds 0 0 {} = false ∧
    (let s := chained { chunks := [0] } [(18, 1, 1)]
     let x := s.collOf 255
     x.verify = true ∧ x.srcDev x.root ≠ s.me ∧ s.refetching 255 0 = false ∧ (s.upAssoc (x.srcDev x.root)).isSome = true ∧
       s.collWaits permRead (x.firstDst s.me) (x.chunkLen 0) = false ∧ s.endsAlone 255 ∧
       (s.collRead { x with desc := 0 } 0 (x.firstDst s.me) (x.chunkLen 0)).toOption = some [0, 0, 0, 0]) := by decide

/-- The digest of a chunk is an unevaluated function's value, which agrees with at most one of two tables of digests: with one of them
CHUNK_VERIFIED finds a chunk that does not verify. -/
theorem wit_TransitionsAndChains_digest :
    let a := chained { chunks := [0] } [(18, 1, 1)]
    let b := a.poke 640 [1]
    ¬(Config.sha3 [0, 0, 0, 0] = a.bytes 640 64 ∧ Config.sha3 [0, 0, 0, 0] = b.bytes 640 64) := by
  intro a b h
  exact absurd (h.1.symm.trans h.2) (by decide)

/-! ## The fabric by command -/

/-- The device has its number, 0, and nothing is open; entry 32767 of the Accession table as given. -/
def numbered0 (e : AccEntry := {}) : State :=
  { ops with mio := { up.mio with devSet := true, accession := [(32767, e)] } }

/-- Association 16383 as given, of an OPERATOR's device. -/
def withAssoc (a : Assoc) : State := numbered0.setAssoc 16383 a

theorem wit_FabricAndAssociationCommands :
    (ops.admits hd 0x0401 ∧ ops.noAssoc = true) ∧
    (ops.admits hd 0x0402 ∧ (3 : BitVec 32).toNat < 4 ∧ (ops.port 3).takes 0x0FFFBFF3 = true) ∧
    (ops.admits hd 0x0403 ∧ ([1, 2] : List (BitVec 128)).length ≤ 2 ∧ (31 : BitVec 32).toNat < 32) ∧
    (let s := numbered0
     s.admits hd 0x0410 ∧ s.freeSlot = some 0 ∧ s.mio.devSet = true ∧ (0xFFFF : W64).toNat ≤ 0xFFFF ∧ (1 : BitVec 16) ≠ s.mio.deviceNumber) ∧
    ((withAssoc { state := .opening, slot := some 1023 }).admits hd 0x0411 ∧ (withAssoc { state := .opening, slot := some 1023 }).noAssoc = false) ∧
    (let s := withAssoc { state := .up }
     s.admits hd 0x0411 ∧ s.admits hd 0x0412 ∧ s.admits hd 0x0413 ∧ (s.assoc 16383).state = .up ∧ (s.assoc 16383).kept = [] ∧
       s.coll.colls = [] ∧ s.mio.migration = none ∧ (s.assoc 16383).rekeying = false) ∧
    ((withAssoc { state := .down }).assoc 16383).state = .down := by decide

theorem wit_FabricAndAssociationCommands_index :
    numbered0.openIndex 1 = .ok 0 ∧ (withAssoc { state := .down, peer := 1 }).openIndex 1 = .ok 16383 := ⟨okEq (by decide), okEq (by decide)⟩

theorem wit_FabricAndAssociationCommands_queue : asyncQueue none ∧ asyncQueue (some 63) := by
  constructor <;> intro q h <;> cases h <;> decide

/-- An Accession entry of 2^36 bytes, LIVE; and its 32 bytes. -/
def entry36 : List Byte := leBytes 32 (pack [(48, 6, 36), (54, 2, 1), (128, 4, 15)])
def segment : AccEntry := { base := 0, sizeLog := 21, state := .live }

theorem wit_MigrationsAndAccession_commands :
    (numbered0.admits hd 0x0420 ∧ (numbered0.acc 32767).state ≠ .migrating ∧
      AccEntry.of entry36 = some { sizeLog := 36, state := .live, permLocal := 15 }) ∧
    (numbered0.admits hd 0x0421 ∧ numbered0.admits hd 0x0423) ∧
    (let s := numbered0 segment
     s.admits hd 0x0422 ∧ s.freeSlot = some 0 ∧ devAddr 0x200000 = some 0x200000 ∧ s.mio.migration = none ∧ (s.acc 32767).state = .live ∧
       (0 : BitVec 16) = s.mio.deviceNumber ∧ (s.acc 32767).targetDev = s.mio.deviceNumber) ∧
    (∀ p ∈ (numbered0 {}).mio.accession, p.1 ≠ 32767 → p.2.overlaps segment = false) := by decide

/-- Association 16383 is OPENING with device 1 at device 2, or with device 3. -/
def opening (a : Assoc) : State := { (withAssoc { a with state := .opening }) with mio := { (withAssoc { a with state := .opening }).mio with deviceNumber := 2 } }

/-- The content of an INIT of device 1 with an empty chain, or with a bare key. -/
def initBytes : List Byte := [1, 0, 0, 1] ++ List.replicate 1607 0
def bareInit : List Byte := [1, 0, 0, 1] ++ List.replicate 1604 0 ++ [1, 10, 32] ++ List.replicate 2592 0
/-- The content of a RESP with an empty chain. -/
def respBytes : List Byte := List.replicate 6229 0

/-- What an unevaluated function answers of the peer's credential and ciphertext is assumed here; every other hypothesis is shown. -/
theorem wit_AssociationHandshake_init (key : List Byte) (hk : Config.chainKey [] = some key) :
    (let s := opening { peer := 1 }
     (s.assoc 16383).state = .opening ∧ (s.assoc 16383).peer.toNat < s.me ∧ s.namedHost (s.assoc 16383).peer = false) ∧
    ∃ i, HsInit.of initBytes = some i ∧ i.mode = 0 ∧ i.device = 1 ∧ i.bare = false ∧ i.key.isSome = true := by
  refine ⟨by decide, { mode := 0, device := 1, conf := 0, kem := List.replicate 1568 0, bare := false, cred := [] }, by decide +kernel, rfl, rfl, rfl, ?_⟩
  simp [HsInit.key, hk]

theorem wit_AssociationHandshake_badInit : HsInit.of [] = none := by decide

theorem wit_AssociationHandshake_resp (key ss : List Byte) (hk : Config.chainKey [] = some key)
    (hs : Config.kemDecap [] (List.replicate 1568 0) = some ss) :
    (let s := opening { peer := 3, hsSent := true, hsId := 5 }
     (s.assoc 16383).hsSent = true ∧ (s.assoc 16383).hsId = 5 ∧ s.hsBind (s.assoc 16383).peer (s.assoc 16383).conf = some []) ∧
    (∃ r, HsResp.of respBytes = some r ∧ (opening { peer := 3 }).respKey r.cred = some (key, false) ∧ Config.kemDecap [] r.ct = some ss) := by
  refine ⟨by decide, { body := List.replicate 1602 0, ct := List.replicate 1568 0, cred := [], sig := List.replicate 4627 0 },
    by decide +kernel, ?_, hs⟩
  have h : (opening { peer := 3 }).hostKey [] = none := by decide
  rw [State.respKey, h]
  simp [hk]

theorem wit_AssociationHandshake_finish :
    (let s := opening { peer := 1, hsInit := bareInit, hsResp := [0], hsId := 5 }
     (s.assoc 16383).hsResp ≠ [] ∧ (s.assoc 16383).hsInit ≠ [] ∧ (s.assoc 16383).hsId = 5 ∧
       s.hsBind (s.assoc 16383).peer (s.assoc 16383).conf = some []) ∧
    ((HsInit.of bareInit).bind HsInit.key) = some (List.replicate 2592 0) := by decide +kernel


/-! ## Productions and services -/

/-- Production 31: Core 511, which is HALTED. -/
def prod31 (p : Production := {}) : State :=
  { ops (up.modCore 511 fun x => { x with p := { x.p with state := .halted } }) with
    cur := { ops.cur with prods := [(31, { p with used := true, cores := [511] })] } }

/-- A Production image: one register section without writes, its publisher 64 zero bytes. -/
def prodImage : List Byte :=
  leBytes 128 (pack [(0, 32, 0x4B565052), (32, 16, 1), (48, 16, 1), (64, 64, 99), (128, 64, 4771), (192, 64, 144)]) ++
    leBytes 16 (pack [(0, 16, 10), (64, 64, (up.nameOf .device).toNat)]) ++ List.replicate 4627 0

theorem wit_Productions_commands :
    (ops.admits hd 0x0200 ∧ ops.freeSlot = some 0 ∧ devAddr 0x100 = some 0x100 ∧ spanRegion 0x100 (1 : W64).toNat = some .vault) ∧
    (let s := prod31
     s.prod 31 = some { used := true, cores := [511] } ∧ s.admits hd 0x0201 ∧ s.admits hd 0x0202 ∧ (s.core 511).startable = true ∧
       s.admits hd 0x0203 ∧ s.prodBusy { used := true, cores := [511] } = false ∧ s.admits hd 0x0204) ∧
    ((up.modCore 511 fun x => { x with p := { x.p with state := .running } }).core 511).running = true := by decide

theorem wit_Productions_unit : prod31.prodUnit { used := true, cores := [511] } (some (up.nameOf (.core 511))) = .ok [511] := okEq (by decide)

/-- Slot 1023 of a state waits for its work. -/
def working (w : Work) (s : State := ops) (f : Slot → Slot := id) : State :=
  { s with cur := { s.cur with slots := [(1023, f { state := .pending, session := 7, seq := 9, work := w })] } }

theorem wit_Productions_malformed :
    ((working (.production 0 0x100 4)).slot 1023).state = .pending ∧ ProdImage.of [0, 0, 0, 0] = none ∧
      (working (.production 0 0x100 4)).loadHeld [0, 0, 0, 0] = false := by decide

theorem wit_Productions_read : (working (.production 0 0x100 4)).readMem .unit 0x100 4 = .ok [0, 0, 0, 0] := okEq (by decide)

/-- The image as its header and section give it. -/
def theImage : ProdImage :=
  { pid := 99, publisher := List.replicate 64 0, body := prodImage.take 144, sig := List.replicate 4627 0,
    sections := [{ kind := 10, target := BitVec.setWidth 64 (up.nameOf .device), data := [] }] }

/-- No credential of a publisher: the image is not signed. -/
theorem wit_Productions_unsigned : ProdImage.of prodImage = some theImage ∧ ops.prodSigned theImage = false := by decide +kernel

/-- The publisher's credential. -/
def published (s : State) : State := { s with sec := { s.sec with creds := [(2, { kind := 4, digest := List.replicate 64 0 })] } }

/-- Where the unevaluated signature check accepts the image, it loads. -/
theorem wit_Productions_signed (s : State) (hs : s = published (working (.production 0 0x100 prodImage.length)))
    (h : Config.dsaVerify [] (Config.sha3 theImage.body) theImage.sig = true) :
    ∃ i pid t0, s.prodLoad prodImage = .ok (i, pid, t0) ∧ (t0.slot 1023).state = .pending := by
  have e : ProdImage.of prodImage = some theImage := by decide +kernel
  have f : s.prodSigned theImage = Config.dsaVerify [] (Config.sha3 theImage.body) theImage.sig := by
    rw [hs, State.prodSigned, show (published (working (.production 0 0x100 prodImage.length))).credOf theImage.publisher [credPublisher] =
      some (2, { kind := 4, digest := List.replicate 64 0 }) by decide]
    exact Bool.and_true _
  have a : theImage.sections.all s.sectionOk = true := by rw [hs]; decide
  have b : s.roomOk theImage.sections = true := by rw [hs]; decide
  have c : s.freeProd = some 0 := by rw [hs]; decide
  have d : s.prodCores theImage.sections = [] := by rw [hs]; decide
  let p : Production := { used := true, pid := 99, digest := Config.sha3 theImage.body, publisher := theImage.publisher }
  refine ⟨0, 99, { s with cur := { s.cur with prods := Tab.set s.cur.prods 0 p } }.measure, ?_, by rw [hs]; decide⟩
  rw [State.prodLoad, e]
  simp only [f, h, a, b, c, d]
  rfl


/-- Attachment 15, of an OPERATOR's device, with a first slot free. -/
def attached (w : Work := .none) : State := { working w with cur := { (working w).cur with attach := [(15, { used := true, nqn := [65] })] } }

theorem wit_StorageCommands :
    (ops.freeSlot = some 0 ∧ ops.admits hd 0x0600 ∧ (List.replicate 223 (65 : Byte)).length ≤ 223 ∧ ops.cur.attach.length < attachments) ∧
    (attached.attachOf 15 = some { used := true, nqn := [65] } ∧ attached.freeSlot = some 0 ∧ attached.admits hd 0x0601 ∧ attached.slotsOn 15 = []) ∧
    (attached.admits hd 0x0602 ∧ attached.admits hd 0x0603 ∧ attached.admits hd 0x0610 ∧ vaultSpan 0x1000 0 = some 0x1000 ∧
      attached.freeFolio.isSome = true ∧ attached.admits hd 0x0620 ∧ attached.admits hd 0x0621) ∧
    (let s := { attached with mem := cells 0x1000 (leBytes 4 2 ++ leBytes 24 (pack [(64, 64, 0x100), (128, 64, 8)]) ++ leBytes 24 (pack [(64, 64, 0x100), (128, 64, 8)])) }
     s.ckptDoor 0x1000 = none ∧ vaultSpan 0x1000 4 = some 0x1000 ∧ (s.ckptList 0x1000).toOption = some [(0, 0x100, 8), (0, 0x100, 8)] ∧
       firstFail ([(0, 0x100, 8), (0, 0x100, 8)].map s.ckptFault) = none) ∧
    ((attached (.storeWrite 15)).slotsOn 15 = [1023] ∧ ((attached (.storeWrite 15)).slot 1023).state = .pending) := by decide

/-- The size of a block is an unevaluated function's matter, 512 or 4,096 bytes: both fit here. -/
theorem wit_StorageCommands_block (x : Attach) (nsid : BitVec 32) : vaultSpan 0x1000 ((1 : BitVec 32).toNat * x.block nsid) = some 0x1000 ∧
    (4096 : W64).toNat % x.block nsid = 0 ∧ vaultSpan 0x1000 (4096 : W64).toNat = some 0x1000 := by
  unfold Attach.block; split <;> decide

theorem wit_StorageCommands_read : (attached.readMem .command 0x1000 8) = .ok (List.replicate 8 0) := okEq (by decide)

theorem wit_AsyncCommandEnds :
    (let s := working (.memFill 0x100 8 5)
     (s.slot 1023).state = .pending ∧ s.heldBy 0x100 8 = none ∧ s.writeStatus .command 0x100 8 = none) ∧
    ((working (.storeRead 15 0x100 2)).writeStatus .command 0x100 2 = none ∧ workStores (.storeRead 15 0x100 2) = true) ∧
    (freeEntry ((working (.storeAttach 0 4420 [65] true)).cur.attach.map (fun p => p.1)) attachments = some 0) ∧
    ((working (.folioLoad 15 0x100 true)).freeFolio = some 0) ∧
    (let w : Work := .describe
     ((working w ops fun x => { x with ended := true }).slot 1023).ended = true ∧ workStores w = false) ∧
    ((working (.failed .gone)).slot 1023).work = .failed .gone := by decide

/-- The manifest of a Folio without content, its publisher 64 zero bytes. -/
def folioImage : List Byte := leBytes 640 (pack [(0, 32, 0x4B56464F), (32, 16, 1)]) ++ List.replicate 4627 0
def theManifest : FolioManifest :=
  { whole := folioImage, digest := Config.sha3 (folioImage.take 640), publisher := List.replicate 64 0, sig := List.replicate 4627 0, bytes := 0,
    chunks := [], content := [] }

/-- Where the unevaluated signature check accepts the manifest, its Folio loads. -/
theorem wit_AsyncCommandEnds_folio (h : Config.dsaVerify [] (Config.sha3 (folioImage.take 640)) (List.replicate 4627 0) = true) :
    FolioManifest.of folioImage = some theManifest ∧ (published (working (.folioLoad 15 0x100 false))).folioSigned theManifest = true ∧
      (vaultSpan (BitVec.ofNat 64 0x100) theManifest.bytes).isSome = true ∧ theManifest.verified = some [] := by
  have e : FolioManifest.of folioImage = (some theManifest) := by
    have a : folioImage.take (640 + sigBytes) = folioImage := by decide +kernel
    have b : (folioImage.drop 32).take 64 = List.replicate 64 0 := by decide +kernel
    have c : (folioImage.drop 640).take sigBytes = List.replicate 4627 0 := by decide +kernel
    have d : folioImage.drop (roundUp (640 + sigBytes) 4096) = [] := by decide +kernel
    have f : folioImage.length = 640 + sigBytes := by decide +kernel
    have g : ofLe (folioImage.take 640) = pack [(0, 32, 0x4B56464F), (32, 16, 1)] := by decide +kernel
    unfold FolioManifest.of theManifest
    simp only [g]
    rw [if_neg (by rw [f]; decide)]
    simp only [show bitsOf (pack [(0, 32, 0x4B56464F), (32, 16, 1)]) 223 192 = 0 from by decide,
      show bitsOf (pack [(0, 32, 0x4B56464F), (32, 16, 1)]) 191 128 = 0 from by decide, Nat.mul_zero, Nat.add_zero, a, b, c, d]
    rfl
  refine ⟨e, ?_, by decide, by decide⟩
  rw [State.folioSigned, show (published (working (.folioLoad 15 0x100 false))).credOf theManifest.publisher [credPublisher] =
    some (2, { kind := 4, digest := List.replicate 64 0 }) by decide]
  exact h

/-- A checkpoint image of zeros is taken, or its signature refused: which of the two is an unevaluated function's matter. -/
theorem wit_AsyncCommandEnds_restore : (ops.ckptTake 1023 []).isSome = true := by
  have h : ops.ckptTake 1023 [] = if !Config.dsaVerify idPublic (Config.sha3 []) [] then some (ops, 0, .denied, Config.sha3 [])
    else some (ops, 0, .ok, Config.sha3 []) := rfl
  rw [h]; split <;> rfl

/-! ## Sessions, reports, Folios -/

/-- The content of an INIT of a session with a bare key, by mode; and the whole message. -/
def zeroKey : List Byte := List.replicate 2592 0
def initOf (mode : Byte) : List Byte := [1, mode, 0, 0] ++ List.replicate 1604 0 ++ [1, 10, 32] ++ zeroKey
def initMessage (mode : Byte) : List Byte := hsHeader 1 5 (initOf mode) ++ initOf mode

theorem wit_SessionsOpenAndClose_init :
    (ops.admits hd 0x0501 ∧ ops.cur.sessions.length < 64 ∧ (ops.sec.handshakes.filter (fun x => x.id != 5)).length < 16) ∧
    (∀ m ∈ [1, 2, 3], ops.modeDenied m .management = false) ∧
    hsInitMessage (initMessage 1) = some (5, initOf 1) ∧
    (∀ m ∈ [(1 : Byte), 2, 3], ((HsInit.of (initOf m)).map HsInit.mode) = some m.toNat ∧
      (HsInit.of (initOf m)).bind HsInit.key = some zeroKey) := by decide +kernel

/-- A handshake that waits for FINISH. -/
def hsOf (mode : Nat) : Hs := { id := 5, mode := mode, lane := .management, init := initOf (BitVec.ofNat 8 mode), resp := [], secret := [] }
def shaking (mode : Nat) (creds : Tab Cred) : State := { ops with sec := { ops.sec with handshakes := [hsOf mode], creds := creds } }

/-- The signature is an unevaluated function's matter; the key's role is not: a credential's, or the OWNER's by a CLAIM. -/
theorem wit_SessionsOpenAndClose_finish :
    (∀ m ∈ [1, 2, 3], (shaking m []).sec.handshakes.find? (fun x => x.id == 5) = some (hsOf m) ∧ (shaking m []).admits hd 0x0501 ∧
      (shaking m []).modeDenied (hsOf m).mode (hsOf m).lane = false) ∧
    (shaking 3 []).roleOf 3 (Config.sha3 zeroKey) = some .owner ∧
    (shaking 1 [(31, { kind := 2, digest := Config.sha3 zeroKey, key := zeroKey })]).roleOf 1 (Config.sha3 zeroKey) = some .operator := by
  refine ⟨by decide, rfl, ?_⟩
  have h : (shaking 1 [(31, { kind := 2, digest := Config.sha3 zeroKey, key := zeroKey })]).credOf (Config.sha3 zeroKey)
      [credOwner, credOperator, credObserver, credPublisher, credBroker] = some (31, { kind := 2, digest := Config.sha3 zeroKey, key := zeroKey }) := by
    simp [State.credOf, shaking, credOwner, credOperator, credObserver, credPublisher, credBroker]
  rw [State.roleOf, h]
  rfl

theorem wit_SessionsOpenAndClose_close :
    ops.sec.hostConf = false ∧ ops.admits hd 0x0502 ∧ hd.session ≠ 0 ∧ (ops.session 7).isSome = true := by decide

/-- Folio 31 in a state, two bytes of the Vault. -/
def aFolio (st : FolioState) : Folio := { state := st, addr := 0x100, bytes := 2, key := some [] }
def folio31 (st : FolioState) : State := { ops with sec := { ops.sec with folios := [(31, aFolio st)] } }

/-- A wrap record: NONCE_BYTES 32, the rest 0. -/
def wrapImage : List Byte := List.replicate 64 0 ++ [32] ++ List.replicate 6362 0

theorem wit_ReportsAndFolios :
    (ops.admits hd 0x0500 ∧ (List.replicate 32 (0 : Byte)).length = 32 ∧ (List.replicate 64 (0 : Byte)).length ≤ 64 ∧ (1 : BitVec 32).toNat ≤ 1 ∧
      ops.attestsNow < 200) ∧
    (ops.admits hd 0x0510) ∧
    ((folio31 .decrypting).folio 31 = some (aFolio .decrypting)) ∧
    ((folio31 .opened).admits hd 0x0611 ∧ (folio31 .opened).folio 31 = some (aFolio .opened) ∧
      (folio31 .registered).folio 31 = some (aFolio .registered)) := by decide

theorem wit_ReportsAndFolios_denied :
    ((WrapRec.of wrapImage).map (fun r => (r.nonce.length, r.covered.length))) = some (32, 1800) ∧
      ((WrapRec.of wrapImage).map (fun r => errorOf ((folio31 .registered).release 31 r))) = some (some .denied) := by decide +kernel

/-- Folio 31 under a BROKER's credential and a report of this measurement. -/
def brokered : State :=
  { folio31 .registered with
    sec := { (folio31 .registered).sec with creds := [(3, { kind := 5, digest := List.replicate 64 0 })],
                                            reports := [{ nonce := List.replicate 32 0, digest := [], measGen := 0 }] } }

/-- Its wrap record. -/
def wrapped (ct : List Byte) : WrapRec :=
  { nonce := List.replicate 32 0, ct := ct, wrapped := [], broker := List.replicate 64 0, sig := [], covered := [] }

/-- The key is released where the unevaluated functions accept BSIG and open the key. -/
theorem wit_ReportsAndFolios_release (key ss : List Byte) (h1 : Config.dsaVerify [] (Config.sha3 []) [] = true)
    (h2 : Config.kemDecap kemSeed [] = some ss) (h3 : Config.keyUnwrap (kdf ss (List.replicate 32 0) lFolio 32) [] = some key)
    (h4 : kdf key [] lKcv 32 = (aFolio .registered).keyCheck) : brokered.release 31 (wrapped []) = .ok (aFolio .registered, key) := by
  have a : brokered.folio 31 = some (aFolio .registered) := by decide
  have b : brokered.brokerOk (aFolio .registered) (wrapped []) = Config.dsaVerify [] (Config.sha3 []) [] := by
    rw [State.brokerOk, show brokered.credOf (wrapped []).broker [credBroker] = some (3, { kind := 5, digest := List.replicate 64 0 }) by decide]
    rfl
  have c : brokered.reportOf (wrapped []).nonce = some { nonce := List.replicate 32 0, digest := [], measGen := 0 } := by decide
  have d : unwrapKey (aFolio .registered) (wrapped []) { nonce := List.replicate 32 0, digest := [], measGen := 0 } = some key := by
    have g : (List.replicate 32 (0 : Byte) ++ []) = List.replicate 32 0 := by decide
    have f : (Config.kemDecap kemSeed (wrapped []).ct).bind (fun ss => Config.keyUnwrap (kdf ss (List.replicate 32 0 ++ []) lFolio 32)
        (wrapped []).wrapped) = some key := by
      rw [g, show (wrapped []).ct = [] from rfl, h2]; exact h3
    rw [unwrapKey, f]
    simp [h4]
  have e : brokered.releaseOk (aFolio .registered) = true := by decide
  rw [State.release, a]
  simp only [b, h1, c, d, e]
  rfl


/-! ## Resets, power, the module -/

theorem wit_ResetDoors_close :
    (∀ r ∈ [URef.core 511, .troupe 0, .stage 3], (nameRef (up.nameOf r) = some r ∧ ops.isHere (up.nameOf r) = true) ∧ ops.resetCovers r = false) ∧
    (∀ c ∈ (URef.core 511).leaves, (ops.core c).quiet) ∧
    (ops.admits hd 0x0900 ∧ (1 : BitVec 32).toNat ≤ 1) ∧
    (ops.modCore 511 fun x => { x with inReset := true }).resetCovers (.core 511) = true ∧
    (let q := uq (up.nameOf (.core 511)) []
     taking peered q ∧ mioBad q 0x08 = false ∧ fld q.aux 3 0 = 0 ∧ peered.cur.phase = .ready ∧ peered.resetCovers (.core 511) = false) := by decide

/-- A reset of Core 511 under way. -/
def resetting (wipe quiesced wiped : Bool) : State :=
  { ops (up.modCore 511 fun x => { x with inReset := true }) with
    cur := { ops.cur with resets := [{ unit := up.nameOf (.core 511), scope := 0, index := 511, wipe := wipe, quiesced := quiesced, wiped := wiped,
                                       oldGen := 0, newGen := 1 }] } }
def resetOf (s : State) : ResetOp := s.cur.resets.headD { unit := 0, scope := 0, index := 0, wipe := false, oldGen := 0, newGen := 0 }

theorem wit_ResetDoors_end :
    (let s := resetting true false false
     s.cur.resets[0]? = some (resetOf s) ∧ (resetOf s).quiesced = false ∧ (∀ t ∈ (resetOf s).troupes, (s.engine t).jobs = [])) ∧
    (let s := resetting true true false
     (resetOf s).quiesced = true ∧ (resetOf s).wipe = true ∧ (resetOf s).wiped = false ∧ s.coll.colls = []) ∧
    (let s := resetting true true true
     (resetOf s).quiesced = true ∧ (resetOf s).wiped = true ∧ s.cur.resets.any (resetOf s).under = false) := by decide

/-- The module in a power state. -/
def powered (p : Power) (f : Module → Module := id) : State := { up with mod := f { up.mod with power := p } }

theorem wit_PowerAndPins :
    (∀ p ∈ [Power.on, .held], (powered p).mod.power ≠ .off) ∧ ((powered .on).mod.flow.toNat ≥ 1000 ∧ (powered .on fun m => { m with flow := 999 }).mod.flow.toNat < 1000) ∧
    (let s := powered .off fun m => { m with modEn := true, modRstN := true }
     s.mod.power = .off ∧ s.mod.modEn = true ∧ s.mod.tripped = false ∧ s.mod.modRstN = true) ∧
    (let s := powered .off fun m => { m with modEn := true, modRstN := false }
     s.mod.modRstN = false ∧ s.mod.tripped = false) ∧
    (let s := powered .off fun m => { m with modEn := false }
     s.mod.modEn = false ∧ s.mod.tripped = false) ∧
    (powered .on).mod.bladeFault = false := by decide

/-- A sample at 2,400 W with a hot junction, or at 0 W. -/
def sample (w : BitVec 16) : PowerSample := { vinMv := 54000, iin := 0, pinW := w, tj := [1050], tInlet := 0, pace := [] }

theorem wit_GovernorAndModuleCommands :
    (ops.mod.power = .on ∧ (ops.stage 3).railMin.toNat ≤ (ops.stage 3).railMax.toNat) ∧
    (({ ops with mod := { ops.mod with calValid := false } } : State).mod.power = .on ∧
      ({ ops with mod := { ops.mod with calValid := false } } : State).mod.calValid = false) ∧
    (ops.admits hd 0x0800 ∧ 1200 ≤ (1200 : W64).toNat ∧ (2400 : W64).toNat ≤ 2400) ∧
    (ops.admits hd 0x0801 ∧ (3 : BitVec 32).toNat < 4 ∧ 600 ≤ fld (0x03520258 : W64) 15 0 ∧ fld (0x03520258 : W64) 31 16 ≤ 850 ∧
      fld (0x03520258 : W64) 63 32 = 0) ∧
    (ops.admits hd 0x0802 ∧ ops.admits hd 0x0803) ∧
    (ops.admits hd 0x0A00 ∧ ops.admits hd 0x0A01 ∧ ops.admits hd 0x0F10 ∧ ops.admits hd 0x0F11 ∧ (16384 : W64).toNat ≤ 16384) := by decide

theorem wit_GovernorAndModuleCommands_period : 1000 ≤ (10000000 : W64).toNat ∧ (10000000 : W64).toNat ≤ 10000000 := by simp

/-- Telemetry is streamed to Vault address 0x100; its record has 128 bytes. -/
def streaming : State := { mapped ops with mod := { ops.mod with telemetryUs := 1000, telemetryAddr := 0x100 } }

theorem wit_GovernorAndModuleCommands_telemetry : streaming.mod.telemetryUs ≠ 0 ∧ streaming.activating = false ∧
    streaming.place true permWrite streaming.mod.telemetryAddr 128 = .here 0x100 ∧ streaming.writeStatus .unit 0x100 128 = none ∧
    streaming.heldBy 0x100 128 = none ∧
    (let s := { streaming with mod := { streaming.mod with telemetryAddr := BitVec.ofNat 64 (wingsOf 511) } }.modCore 511 fun x =>
        { x with takeover := some { failed := 3 } }
     s.mod.telemetryUs ≠ 0 ∧ s.activating = false ∧ s.writeHeld s.mod.telemetryAddr 128 = true) := by decide

theorem wit_GovernorAndModuleCommands_record (s : State) : s.telemetry.length = 128 := by
  simp only [State.telemetry, leBytes, List.length_cons, List.length_nil]

/-! A page that CAL_WRITE takes: magic, version 1, zeros, and the CRC of the rest. -/

def pagePre : List Byte := [0x41, 0x43, 0x56, 0x4B, 1, 0] ++ List.replicate 54 0
def goodPage (c : BitVec 32) : List Byte := pagePre ++ (leBytes 4 c.toNat ++ List.replicate 8128 0)

theorem ofLe_leFour (c : BitVec 32) : ofLe (leBytes 4 c.toNat) = c.toNat := by
  have h := c.isLt
  simp only [leBytes, ofLe, BitVec.toNat_ofNat]
  omega

theorem goodPage_take (c : BitVec 32) (n : Nat) (h : n ≤ 60) : (goodPage c).take n = pagePre.take n :=
  List.take_append_of_le_length (by rw [show pagePre.length = 60 by decide]; exact h)

theorem goodPage_drop60 (c : BitVec 32) : (goodPage c).drop 60 = leBytes 4 c.toNat ++ List.replicate 8128 0 :=
  List.drop_left' (by decide)

theorem goodPage_drop (c : BitVec 32) (n : Nat) : (goodPage c).drop (64 + n) = List.replicate (8128 - n) 0 := by
  rw [show 64 + n = 60 + (4 + n) by omega, ← List.drop_drop, goodPage_drop60, ← List.drop_drop, List.drop_left' (by rfl), List.drop_replicate]

theorem goodPage_field (c : BitVec 32) (a n : Nat) (h : a + n ≤ 60) : calField (goodPage c) a n = calField pagePre a n := by
  rw [calField, calField, List.take_drop, List.take_drop, goodPage_take c (a + n) h]

theorem goodPage_zeroAt (c : BitVec 32) (a n : Nat) (h : 64 ≤ a) : zeroAt (goodPage c) a n = true := by
  obtain ⟨b, rfl⟩ := Nat.exists_eq_add_of_le h
  rw [zeroAt, goodPage_drop, List.take_replicate]
  simp

theorem goodPage_zeroAt_low (c : BitVec 32) (a n : Nat) (h : a + n ≤ 60) : zeroAt (goodPage c) a n = zeroAt pagePre a n := by
  rw [zeroAt, zeroAt, List.take_drop, List.take_drop, goodPage_take c (a + n) h]

theorem wit_GovernorAndModuleCommands_page (c : BitVec 32) (h : c = crc32 (pagePre ++ List.replicate 8128 0)) :
    ops.flash.pageOk (goodPage c) = true ∧ calReservedZero (goodPage c) = true := by
  constructor
  · have a : calCrc (goodPage c) = c := by
      rw [calCrc, goodPage_take c 60 (by decide), show 64 = 64 + 0 from rfl, goodPage_drop, h]; rfl
    have b : calField (goodPage c) 60 4 = c.toNat := by
      rw [calField, goodPage_drop60, List.take_left' (by rfl), ofLe_leFour]
    have d : (goodPage c).length = 8192 := by
      simp only [goodPage, List.length_append, List.length_replicate, show pagePre.length = 60 by decide]; rfl
    have g : ((goodPage c).drop 16).take 16 = ops.flash.serial := by
      rw [List.take_drop, goodPage_take c 32 (by decide)]; decide
    simp only [Flash.pageOk, a, b, d, g, goodPage_field c 0 4 (by decide), goodPage_field c 4 2 (by decide),
      show calField pagePre 0 4 = 0x4B564341 by decide, show calField pagePre 4 2 = 1 by decide, beq_self_eq_true, Bool.and_self]
  · have e : ∀ r, zeroAt (goodPage c) (0x240 + 16 * r + 4) 12 = true := fun r => goodPage_zeroAt c _ _ (by omega)
    simp only [calReservedZero, goodPage_field c 6 2 (by decide), goodPage_zeroAt_low c 12 4 (by decide), goodPage_zeroAt_low c 32 28 (by decide),
      goodPage_zeroAt c _ _ (show 64 ≤ 0x70 by decide), goodPage_zeroAt c _ _ (show 64 ≤ 0x90 by decide),
      goodPage_zeroAt c _ _ (show 64 ≤ 0x2A0 by decide), goodPage_zeroAt c _ _ (show 64 ≤ 0x19B0 by decide), e]
    decide


/-- R359, by hand from the modified EUI-64 rule: FE80::21B:77FF:FEAA:BBCC. -/
theorem test_linkLocal : linkLocal 0x001B77AABBCC = 0xFE80000000000000021B77FFFEAABBCC := by decide

/-- R461, R464: an offset of −0.01 °C lowers 100.0 °C to 99.9 °C; without a valid page it is zero. -/
theorem test_sensorOffset :
    ({ flash := { calPage := List.replicate 64 0 ++ [0xFF, 0xFF] } } : State).corrected 0 1000 = 999 ∧
    ({ flash := { calPage := List.replicate 64 0 ++ [0xFF, 0xFF] }, mod := { calValid := false } } : State).corrected 0 1000 = 1000 := by decide

/-! ## Bring-up, firmware, faults -/

/-- A state powered on in a phase of bring-up. -/
def inPhase (p : BPhase) (f : Curator → Curator := id) : State := { up with cur := f { up.cur with phase := p } }

theorem wit_BringupPhases :
    ((inPhase .curator).mod.power = .on ∧ (inPhase .curator).bankPasses (inPhase .curator).flash.bank = true) ∧
    (let s : State := { inPhase .curator with flash := { up.flash with bankValid0 := false, bankValid1 := false } }
     s.bankPasses false = false ∧ s.bankPasses true = false) ∧
    ((inPhase .clocks).cur.phase = .clocks ∧ (inPhase .network).cur.phase = .network ∧ (inPhase .memory).cur.phase = .memory) ∧
    ((inPhase .links).cur.phase = .links ∧ (inPhase .links).allUp = true ∧
      ({ inPhase .links with mio := { up.mio with ports := [(3, { mode := 1 })] } } : State).allUp = false) ∧
    ((inPhase .compute fun x => { x with wavesDone := 8 }).cur.wavesDone = 8 ∧ (inPhase .compute).cur.wavesDone ≠ 8) := by decide

theorem wit_WavesStartTroupes :
    (let s := inPhase .compute fun x => { x with wavesDone := 7 }
     s.mod.power = .on ∧ s.cur.phase = .compute ∧ s.cur.wavesDone = 7 ∧
       ((List.range 18).filter (fun k => !s.physBad (physOf 31 k) && !([physOf 31 0, physOf 31 1, physOf 31 2].contains (physOf 31 k)))).length = 15) := by
  decide

theorem wit_FirmwareAndCatalogues :
    (ops.admits hd 0x0901 ∧ ops.admits hd 0x0910 ∧ ops.catalogue 3 = some []) ∧
    (ops.admits hd 0x0920 ∧ vaultSpan 0x100 (4 : W64).toNat = some 0x100) ∧
    ops.admits hd 0x0921 ∧
    (inPhase .ready fun x => { x with updateState := .activating }).activating = true := by decide

/-- What an unevaluated function reads from an image, and whether its signature holds, is assumed here. -/
theorem wit_FirmwareAndCatalogues_stage (version : BitVec 32) (digest sig : List Byte) (h1 : Config.firmwareImage [0, 0, 0, 0] = some (version, digest, sig))
    (h2 : Config.dsaVerify Config.firmwareKey digest sig = true) :
    ops.readMem .unit 0x100 (4 : W64).toNat = .ok [0, 0, 0, 0] ∧ ∃ v d g, Config.firmwareImage [0, 0, 0, 0] = some (v, d, g) ∧
      Config.dsaVerify Config.firmwareKey d g = true ∧ ops.sec.secVersion.toNat ≤ v.toNat :=
  ⟨okEq (by decide), version, digest, sig, h1, h2, Nat.zero_le _⟩

/-- Core 511 in a Troupe that started, with Understudies in slots 16 and 17. -/
def started (x : Troupe) (f : Core → Core := id) : State :=
  { up with troupes := [(31, { x with started := true, slotA := 16, slotB := 17 })], cores := [(511, f { ({} : Core) with phys := 0x23D })] }

/-- A marker, and a takeover under way. -/
def marked (x : Core) : Core := { x with marker := some (x.shadow 0), takeover := some { failed := 3 } }

theorem wit_CoreAndOtherFaults_detected :
    (let s := started { presentA := true, engagedA := true, presentB := true } marked
     (s.core 511).dark = false ∧ (s.core 511).inReset = false ∧ (s.troupe (troupeOfCore 511)).started = true ∧ (s.core 511).marker.isSome = true ∧
       (((s.troupe 31).failed (slotOfPhys (s.core 511).phys.toNat)).engage 15).isSome = true) ∧
    (let s := started {}
     (s.core 511).marker = none ∧ (s.core 511).msg.unaccepted = [] ∧ (s.core 511).heldIn = [] ∧
       ((s.troupe 31).failed (slotOfPhys (s.core 511).phys.toNat)).engage 15 = none) ∧
    (let s := started {} marked
     (s.core 511).takeover.isSome = true ∧ (s.core 511).marker.isSome = true ∧ (s.core 511).shadowLoaded = false ∧ (s.core 511).log = []) ∧
    (let s := started {} fun x => { marked x with shadowLoaded := true }
     (s.core 511).takeover.isSome = true ∧ (s.core 511).shadowLoaded = true ∧ (s.core 511).heldIn = []) := by decide

theorem wit_CoreAndOtherFaults_idle (x : Troupe) (f : Core → Core) : (started x f).doorIdle 511 := ⟨(by intro p h; cases h), rfl, fun _ => rfl⟩

theorem wit_CoreAndOtherFaults_others :
    (((started { presentA := true }).troupe 31).presentA = true ∧ ((started { presentA := true }).troupe 31).engagedA = false) ∧
    (((started { presentB := true }).troupe 31).presentB = true ∧ ((started { presentB := true }).troupe 31).engagedB = false) ∧
    2 ≤ (up.stage 3).planes ∧
    (bitOf up.cur.cores.toNat 7 = true ∧ up.cur.cores.toNat ≠ 2 ^ 7 ∧ up.curatorUp = true) ∧
    ((13 : Fin 32).val < phasesOf 3 ∧ (3, 13) ∉ up.mod.phasesLost) := by decide

/-! ## Ownership, roles, the whole block -/

theorem wit_ClaimsOfOwnership :
    (ops.admits hd 0x0501 ∧ ops.cur.sessions.length < 64) ∧
    (hsInitMessage (initMessage 3) = some (5, initOf 3) ∧ ((HsInit.of (initOf 3)).map HsInit.mode) = some 3 ∧ hd.lane = .management ∧ ops.owned = false) ∧
    ((shaking 3 [(0, { kind := 1 })]).owned = true ∧ (shaking 3 [(0, { kind := 1 })]).sec.handshakes.find? (fun x => x.id == 5) = some (hsOf 3)) ∧
    (shaking 3 []).sec.creds = [] ∧ (HsInit.of (hsOf 3).init).bind HsInit.key = some zeroKey := by decide +kernel

theorem wit_ObserversAndOperators :
    CommandRow 0x0520 .vaultRotate ∧ CommandRow 0x0100 .discover ∧ hd.session ≠ 0 ∧
    ((sess .observer).session hd.session = some { number := 7, role := .observer, isSealed := true } ∧ (sess .observer).waitsAt hd.session = none ∧
      (sess .observer).curatorUp = true ∧ (sess .observer).activating = false ∧ (sess .observer).phaseEnded (opPhase 0x0520) = true) ∧
    (ops.session hd.session = some { number := 7, role := .operator, isSealed := true }) :=
  ⟨.vaultRotate, .discover, by decide, by decide, by decide⟩

theorem wit_EmptyQueueTicks : up.pending = [] ∧ up.released = [] ∧ ({ up with released := [.wipeEnd 0] } : State).released ≠ [] := by decide

/-- The invariant holds at reset, where a step ticks; and in a state with sessions and a byte of memory, where a command runs. -/
theorem wit_InvariantKept : State.reset.Inv ∧ ({ ops with mem := [⟨0x100, 1⟩] } : State).Inv := by decide

theorem wit_NothingWrittenOnceChanges : step ({ ops with pending := [.modEnLow] } : State) = exec .modEnLow ops ∧
    ∃ t, exec .modEnLow ops = .next t := ⟨rfl, _, rfl⟩


theorem wit_FormatsConvertExactly : (valueOf .e4m3 0x7E).isFin = true ∧ (valueOf .e5m2 0x7B).isFin = true := by decide

/-! ## Numbers worked out in the manual

Each expected value stands in a worked example or a table of the manual; the rule is named. -/

/-- The state a meaning answers. -/
def ending (o : Host.Outcome State Fault Refusal) : State :=
  match o with
  | .next t => t
  | .fault _ => State.reset
  | .refused _ => State.reset

/-- 01_units.md, the example after R38: slot 3 of logical Troupe 18 is bad; slots 0 to 2 serve Cores 0 to 2, slots 4 to 16 Cores 3 to 15, slot
17 is the one Understudy; Core 300 is Core 12 of the Troupe. -/
def wave2 : State := ending (execTroupeWaveStart 2 [physOf 18 3] (inPhase .compute fun x => { x with wavesDone := 2 }))

theorem test_core300 : troupeOfCore 300 = 18 ∧ 300 % 16 = 12 ∧ stageOfCore 300 = 2 := by decide
theorem test_wave_slots : (List.range 16).map (fun k => slotOfPhys (wave2.core (288 + k)).phys.toNat) =
    [0, 1, 2, 4, 5, 6, 7, 8, 9, 10, 11, 12, 13, 14, 15, 16] := by decide +kernel
theorem test_wave_understudy : (wave2.troupe 18).presentA = true ∧ (wave2.troupe 18).slotA = 17 ∧ (wave2.troupe 18).presentB = false := by
  decide +kernel

/-- 03_prompter.md, the example after R83: element (13, 10) of a BF16 tile whose frame starts at Wings offset 0x1_0000 of Core 5. -/
theorem test_element : elemOff 0x80 2 13 10 = 0x106BA ∧ wingsOf 5 + elemOff 0x80 2 13 10 = 0x0210014106BA := by decide

/-- 07_memory.md, the example after R202: the sector of Troupe 18 in die 1. -/
theorem test_sector : sectorBase 18 1 = 0x020348000000 ∧ troupeUnder 0x020348000000 = 18 ∧ troupeUnder 0x02035BFFFFFF = 18 := by decide

/-- 02_arithmetic.md, the example after R71: the seven slices of (1 − 2⁻⁵⁴) / 3, whose exponent is −1. -/
theorem test_slices : slices 7 ((FVal.fin false 6004799503160661 (-54)).scale 7) = [43, -43, 43, -43, 43, -43, 43] := by decide

/-- 03_prompter.md, the example after R111: 1,000 bytes and their header take 17 granules. -/
theorem test_granules : ({ src := .localCore 40 0, channel := 2, rtoken := none, bytes := ringBytes [] (List.replicate 1000 0) } : MsgReq).granules = 17 := by
  decide

/-- 06_streams.md, the example after R194: after eight drops, record 171 arrives with 256 bytes free: a GAP at offset 4,032 with SEQ 163 and COUNT
8, a PAD, and the record at offset 0; the producer count is 4,160. -/
def gapped : State :=
  { queued fun n => { n with trace := true, head := 192, tail := 4032, seq := 171, gapOpen := true, gapSeq := 163, gapCount := 8, dropped := 8 } with
    raised := [{ queue := 63, kind := 0x0101, source := 0, status := .ok, payload := List.replicate 32 1 }] }
def gapWritten : State := ending (execNoticeOffer gapped)

theorem test_gap_counts : (gapWritten.nq 63).tail = 4160 ∧ (gapWritten.nq 63).seq = 172 ∧ (gapWritten.nq 63).free = 128 ∧ (gapWritten.nq 63).gapOpen = false := by
  decide
theorem test_gap_record : gapWritten.num (0x1000 + 4032 + 4) 4 = 163 ∧ gapWritten.num (0x1000 + 4032 + 28) 4 = 8 := by decide

/-- 15_module.md, the example after R465: 2.0 L/min give a cap of 1,300 W and FLOW_LOW, 0.8 L/min one of 520 W. -/
theorem test_flow_2 : (ending (execFlowRead 2000 up)).mod.cap = 1300 ∧ (ending (execFlowRead 2000 up)).mod.flowLow = true := by decide
theorem test_flow_08 : (ending (execFlowRead 800 up)).mod.cap = 520 ∧ (ending (execFlowRead 800 up)).mod.flowLow = true := by decide

/-- 10_mioder.md, the example after R332: fabric address 0x0013_0200_0000_0000 names device 19. -/
theorem test_fabric_device : fld (0x0013020000000000 : W64) 63 48 = 19 := by decide

/-- 02_arithmetic.md, R44: codes of 1.0, and of the largest finite values of E4M3 (448) and E5M2 (57,344). -/
theorem test_formats : (convert .e4m3 .toInf none (f32 0x3F800000)).code = 0x38 ∧ (convert .e5m2 .toInf none (f32 0x3F800000)).code = 0x3C ∧
    (convert .bf16 .toInf none (f32 0x3F800000)).code = 0x3F80 ∧ r32 (valueOf .e4m3 0x7E) = 0x43E00000 ∧ r32 (valueOf .e5m2 0x7B) = 0x47600000 := by decide

/-- R126: the CRC-32 of IEEE 802.3, by that standard's check value of the digits 1 to 9. -/
theorem test_crc32 : crc32 [0x31, 0x32, 0x33, 0x34, 0x35, 0x36, 0x37, 0x38, 0x39] = 0xCBF43926 := by decide

/-- R185 and the step: an empty queue ticks, a command in front is run. -/
theorem test_tick : step State.reset = .next { State.reset with now := 1 } := rfl

end Sys2Proof.Tests
end

section
/-! SUPPORT. The events of the matrix arrays (O7): what a verdict, a drain, kept accumulators and a preload do to the jobs of an array
and to its Core. -/

namespace Sys2Proof.Machine

/-! ## What an attempt at a tile writes (R121) -/

/-- Only memory, the streams that Core `c` rounds with and the model's counter differ. -/
def OnlyRounded (s t : State) (c : Nat) : Prop :=
  (∃ rng, t.core c = { s.core c with rng := rng }) ∧ (∀ k, t.troupe k = s.troupe k) ∧ t.raised = s.raised

section OnlyRounded
variable {s t : State} {c : Nat} (h : OnlyRounded s t c)
include h

theorem OnlyRounded.p : (t.core c).p = (s.core c).p := by
  obtain ⟨⟨rng, e⟩, -, -⟩ := h
  rw [e]

theorem OnlyRounded.arr (a : ArrayId) : (t.core c).arr a = (s.core c).arr a := by
  obtain ⟨⟨rng, e⟩, -, -⟩ := h
  rw [e]
  cases a <;> rfl

theorem OnlyRounded.troupe (k : Nat) : t.troupe k = s.troupe k := h.2.1 k

theorem OnlyRounded.raised : t.raised = s.raised := h.2.2

end OnlyRounded

theorem OnlyRounded.refl (s : State) (c : Nat) : OnlyRounded s s c := ⟨⟨_, rfl⟩, fun _ => rfl, rfl⟩

/-! ## Arrays of a Core -/

section Arrays
variable (x : Core) (a : ArrayId) (y : Arr)

@[simp] theorem Core.setArr_arr : (x.setArr a y).arr a = y := by cases a <;> rfl
@[simp] theorem Core.setArr_arr_other : (x.setArr a y).arr (other a) = x.arr (other a) := by cases a <;> rfl
@[simp] theorem Core.setArr_setArr (z : Arr) : (x.setArr a y).setArr a z = x.setArr a z := by cases a <;> rfl
@[simp] theorem Core.setArr_p : (x.setArr a y).p = x.p := by cases a <;> rfl
@[simp] theorem Core.setArr_tile (i : Nat) : (x.setArr a y).tile i = x.tile i := by cases a <;> rfl
@[simp] theorem Core.modP_arr (f : Prompter → Prompter) : (x.modP f).arr a = x.arr a := by cases a <;> rfl
@[simp] theorem Core.modP_p (f : Prompter → Prompter) : (x.modP f).p = f x.p := rfl
@[simp] theorem Core.modP_modP (f g : Prompter → Prompter) : (x.modP f).modP g = x.modP (g ∘ f) := rfl
@[simp] theorem Core.modP_tile (f : Prompter → Prompter) (i : Nat) : (x.modP f).tile i = x.tile i := rfl
@[simp] theorem Core.modTile_arr (i : Nat) (f : Tile → Tile) : (x.modTile i f).arr a = x.arr a := by cases a <;> rfl
@[simp] theorem Core.modTile_tile (i : Nat) (f : Tile → Tile) : (x.modTile i f).tile i = f (x.tile i) := Tab.get_set_same _ _ _ _

end Arrays

/-! ## The job in progress -/

/-- A change of the tiles of the cue in progress. -/
theorem Arr.modHead_of_jobs {x : Arr} {j : ArrJob} {r : List ArrJob} (h : x.jobs = j :: r) (f : List TileJob → List TileJob) :
    x.modHead f = { x with jobs := { j with tiles := f j.tiles } :: r } := by
  rw [Arr.modHead, h]

/-- The next cue comes up; beside the jobs, only the stationary registers are touched. -/
theorem Arr.popJob_eq (x : Arr) : ∃ v w, x.popJob = { x with jobs := x.jobs.tail, stationaryValid := v, shadowValid := w } := by
  unfold Arr.popJob
  split
  case h_1 h => exact ⟨_, _, by rw [h, List.tail_nil, ← h]⟩
  case h_2 h => exact ⟨_, _, by rw [h, List.tail_cons]⟩
  case h_3 h => exact ⟨_, _, by rw [h, List.tail_cons]⟩

/-- A tile has no verdict yet. -/
def unchecked (t : TileJob) : Bool := decide (t.verdict = none)

theorem unchecked_iff {t : TileJob} : unchecked t = true ↔ t.verdict = none := decide_eq_true_iff

/-- The check unit has a tile before it: the first without a verdict of a cue that does not keep its accumulators. -/
theorem Arr.toCheck_eq_some {x : Arr} {w : TileJob} : x.toCheck = some w ↔
    ∃ j r, x.jobs = j :: r ∧ j.keep = false ∧ j.tiles.find? unchecked = some w := by
  unfold Arr.toCheck
  cases x.jobs with
  | nil => exact ⟨nofun, nofun⟩
  | cons j r =>
    show (if j.keep then none else j.tiles.find? unchecked) = some w ↔ _
    cases hkeep : j.keep with
    | false => exact ⟨fun h => ⟨j, r, rfl, hkeep, h⟩, fun ⟨_, _, hjobs, _, h⟩ => by cases hjobs; exact h⟩
    | true => exact ⟨fun h => (by cases h), fun ⟨_, _, hjobs, h, _⟩ => by cases hjobs; rw [hkeep] at h; cases h⟩

/-- A change of the first tile without a verdict leaves the tiles before it, which have theirs, and those after it. -/
theorem onUnchecked_eq {l : List TileJob} {w : TileJob} (h : l.find? unchecked = some w) :
    ∃ p q, l = p ++ w :: q ∧ p.find? unchecked = none ∧ ∀ f, onUnchecked f l = p ++ f w :: q := by
  induction l with
  | nil => cases h
  | cons t l ih =>
    by_cases ht : t.verdict = none
    · rw [List.find?_cons_of_pos (unchecked_iff.mpr ht)] at h
      cases h
      exact ⟨[], l, rfl, rfl, fun f => if_pos ht⟩
    · rw [List.find?_cons_of_neg (mt unchecked_iff.mp ht)] at h
      obtain ⟨p, q, rfl, hp, hq⟩ := ih h
      exact ⟨t :: p, q, rfl, by rwa [List.find?_cons_of_neg (mt unchecked_iff.mp ht)], fun f => (if_neg ht).trans (congrArg (t :: ·) (hq f))⟩

/-- The tile changed comes first again among those without a verdict, where it still has none. -/
theorem find_onUnchecked {f : TileJob → TileJob} {l : List TileJob} {w : TileJob} (h : l.find? unchecked = some w)
    (hf : (f w).verdict = none) : (onUnchecked f l).find? unchecked = some (f w) := by
  obtain ⟨p, q, -, hp, hq⟩ := onUnchecked_eq h
  rw [hq, List.find?_append, hp, List.find?_cons_of_pos (unchecked_iff.mpr hf), Option.none_or]

/-- A tile that passes is one more with a passing verdict. -/
theorem count_onUnchecked {f : TileJob → TileJob} {l : List TileJob} {w : TileJob} (h : l.find? unchecked = some w)
    (hf : (f w).verdict = some true) :
    ((onUnchecked f l).filter (fun t => t.verdict == some true)).length = (l.filter (fun t => t.verdict == some true)).length + 1 := by
  obtain ⟨p, q, rfl, -, hq⟩ := onUnchecked_eq h
  have hw : w.verdict = none := unchecked_iff.mp (List.find?_some h)
  rw [hq, List.filter_append, List.filter_append, List.filter_cons_of_pos (by rw [hf]; rfl), List.filter_cons_of_neg (by rw [hw]; decide)]
  simp only [List.length_append, List.length_cons, Nat.add_assoc]

/-! ## Rows drained -/

/-- Draining elements writes memory alone. -/
theorem drainFrom_writes_mem (c : Nat) (d : Tile) (t : TileJob) (fmt : Fmt) (stoch : Bool) (k n : Nat) (r : State × Source × TagFlags) :
    ∃ m, (drainFrom c d t fmt stoch k n r).1 = { r.1 with mem := m } := by
  fun_induction drainFrom c d t fmt stoch k n r with
  | case1 => exact ⟨_, rfl⟩
  | case2 => rename_i ih; exact ih

theorem State.setSource_core (s : State) (c k : Nat) (x : Source) :
    (s.setSource c k x).core c = { s.core c with rng := Tab.set (s.core c).rng k x.rng } := Tab.get_set_same _ _ _ _

theorem State.drainRows_onlyRounded (s : State) (c : Nat) (a : ArrayId) (t : TileJob) : OnlyRounded s (s.drainRows c a t).1 c := by
  unfold State.drainRows
  extract_lets d fmt ask fb
  obtain ⟨m, hm⟩ := drainFrom_writes_mem c d t fmt (ask && !fb) 0 (t.rows * t.cols) (s, s.source c (arrStream a),
    { sat := t.sat, satIn := t.satIn, stochastic := ask && !fb, fallback := fb, recomputed := t.retried,
      checkPartial := !t.excluded.isEmpty, slice := t.slice && fmt == .fp64 })
  split
  rename_i u src f hu
  obtain rfl : u = { s with mem := m } := by rw [← hm, hu]
  exact ⟨⟨_, State.setSource_core ..⟩, fun _ => rfl, rfl⟩

theorem State.attemptRows_onlyRounded (s : State) (c : Nat) (a : ArrayId) (t : TileJob) : OnlyRounded s (s.attemptRows c a t).1 c := by
  unfold State.attemptRows
  split
  · exact s.drainRows_onlyRounded c a t
  · exact .refl s c

/-! ## The verdict of a tile (R73 to R78) -/

/-- The rows and the tag of the attempt that a verdict is about, its accumulators as the upset left them. -/
abbrev verdictRows (s : State) (c : CoreNo) (a : ArrayId) (u : Option Upset) (w : TileJob) : State × Option (BitVec 32) :=
  s.attemptRows c.val a ((u.map w.upset).getD w)

/-- A tile that passed only on recomputation is counted at its Troupe, and no Core changes. -/
theorem State.countRetry_spec (s : State) (c : Nat) (t : TileJob) : (∀ k, (s.countRetry c t).core k = s.core k) ∧
    ((s.countRetry c t).troupe (troupeOfCore c)).checkRetries = (if t.retried then satInc (s.troupe (troupeOfCore c)).checkRetries
      else (s.troupe (troupeOfCore c)).checkRetries) := by
  unfold State.countRetry
  split
  · exact ⟨fun _ => rfl, by rw [State.modTroupe_set, State.setTroupe_troupe, if_pos rfl]⟩
  · exact ⟨fun _ => rfl, rfl⟩

theorem State.suspect_spec (s : State) (c : Nat) (a : ArrayId) (t : TileJob) : ((s.suspect c a t).core c).p.state = .suspect ∧
    ((s.suspect c a t).troupe (troupeOfCore c)).suspects = satInc (s.troupe (troupeOfCore c)).suspects ∧
    ∃ l, l ≠ [] ∧ (s.suspect c a t).raised = s.raised ++ l := by
  refine ⟨?_, ?_, _, ?_, rfl⟩
  · exact congrArg (fun x : Core => x.p.state) (Tab.get_set_same {} s.cores c _)
  · exact congrArg Troupe.suspects (Tab.get_set_same {} s.troupes (troupeOfCore c) _)
  · simp only [dedup, ne_eq, List.map_cons, reduceCtorEq, not_false_eq_true]

theorem State.setCore_troupe (s : State) (c k : Nat) (x : Core) : (s.setCore c x).troupe k = s.troupe k := rfl

section Verdict
variable {s : State} {c : CoreNo} {a : ArrayId} {w : TileJob} {u : Option Upset}
  (hcheck : ((s.core c.val).arr a).toCheck = some w) (hworks : (s.core c.val).works = true)
include hcheck hworks

theorem exec_tileCheckVerdict : exec (.tileCheckVerdict c a u) s = .next (
    if w.passes u then
      ((verdictRows s c a u w).1.modCore c.val (fun x => x.setArr a
        { (x.arr a).modHead (onUnchecked (fun t => { t.afterPass u with drained := (verdictRows s c a u w).2 })) with
          bank := !(x.arr a).bank })).countRetry c.val w
    else if w.retried then (verdictRows s c a u w).1.suspect c.val a ((u.map w.upset).getD w)
    else (verdictRows s c a u w).1.modCore c.val (fun x => x.setArr a
      { (x.arr a).modHead (onUnchecked (fun t => { t with retried := true })) with
        productSteps := (x.arr a).productSteps + BitVec.ofNat 48 w.steps })) := by
  show execTileCheckVerdict c a u s = _
  simp only [execTileCheckVerdict, hcheck, hworks, Bool.not_true, Bool.false_eq_true, if_false]
  split
  · rfl
  · split <;> rfl

/-- A tile that passes: the bank changes, the tile has its verdict, a recomputation that it took is counted (R75, R78). -/
theorem tileCheckVerdict_passes (hpass : w.passes u = true) : completes (.tileCheckVerdict c a u) s fun t =>
    ((t.core c.val).arr a).bank = !((s.core c.val).arr a).bank ∧ (t.core c.val).p = (s.core c.val).p ∧
      (t.troupe (troupeOfCore c.val)).checkRetries = (if w.retried then satInc (s.troupe (troupeOfCore c.val)).checkRetries
        else (s.troupe (troupeOfCore c.val)).checkRetries) ∧
      ∃ j r j' r', ((s.core c.val).arr a).jobs = j :: r ∧ ((t.core c.val).arr a).jobs = j' :: r' ∧
        r' = r ∧ (j'.tiles.filter (fun x => x.verdict == some true)).length = (j.tiles.filter (fun x => x.verdict == some true)).length + 1 := by
  have hrows : OnlyRounded s (verdictRows s c a u w).1 c.val := State.attemptRows_onlyRounded ..
  obtain ⟨j, r, hjobs, -, hfind⟩ := Arr.toCheck_eq_some.mp hcheck
  refine ⟨_, exec_tileCheckVerdict hcheck hworks, ?_⟩
  rw [if_pos hpass]
  obtain ⟨hcore, hretries⟩ := State.countRetry_spec ((verdictRows s c a u w).1.modCore c.val (fun x => x.setArr a
    { (x.arr a).modHead (onUnchecked (fun t => { t.afterPass u with drained := (verdictRows s c a u w).2 })) with
      bank := !(x.arr a).bank })) c.val w
  rw [hcore, hretries]
  simp only [State.modCore_set, State.setCore_core, if_true, State.setCore_troupe, Core.setArr_arr, Core.setArr_p, hrows.p, hrows.arr,
    hrows.troupe, Arr.modHead_of_jobs hjobs, true_and]
  exact ⟨j, r, _, r, hjobs, rfl, rfl, count_onUnchecked hfind rfl⟩

/-- A tile that fails the first time is before the check unit again, its steps counted again (R75). -/
theorem tileCheckVerdict_again (hpass : w.passes u = false) (hretried : w.retried = false) : completes (.tileCheckVerdict c a u) s fun t =>
    (t.core c.val).p = (s.core c.val).p ∧ ((t.core c.val).arr a).toCheck = some { w with retried := true } ∧
      ((t.core c.val).arr a).productSteps = ((s.core c.val).arr a).productSteps + BitVec.ofNat 48 w.steps ∧
      (t.troupe (troupeOfCore c.val)).checkRetries = (s.troupe (troupeOfCore c.val)).checkRetries := by
  have hrows : OnlyRounded s (verdictRows s c a u w).1 c.val := State.attemptRows_onlyRounded ..
  obtain ⟨j, r, hjobs, hkeep, hfind⟩ := Arr.toCheck_eq_some.mp hcheck
  have hnone : w.verdict = none := unchecked_iff.mp (List.find?_some hfind)
  refine ⟨_, exec_tileCheckVerdict hcheck hworks, ?_⟩
  rw [if_neg (Bool.eq_false_iff.mp hpass), if_neg (Bool.eq_false_iff.mp hretried)]
  simp only [State.modCore_set, State.setCore_core, if_true, State.setCore_troupe, Core.setArr_arr, Core.setArr_p, hrows.p, hrows.arr,
    hrows.troupe, Arr.modHead_of_jobs hjobs, true_and, and_true]
  exact Arr.toCheck_eq_some.mpr ⟨_, r, rfl, hkeep, find_onUnchecked hfind hnone⟩

/-- A tile that fails a second time makes the Core SUSPECT (R76, R78). -/
theorem tileCheckVerdict_suspect (hpass : w.passes u = false) (hretried : w.retried = true) : completes (.tileCheckVerdict c a u) s fun t =>
    (t.core c.val).p.state = .suspect ∧
      (t.troupe (troupeOfCore c.val)).suspects = satInc (s.troupe (troupeOfCore c.val)).suspects ∧ ∃ l, l ≠ [] ∧ t.raised = s.raised ++ l := by
  have hrows : OnlyRounded s (verdictRows s c a u w).1 c.val := State.attemptRows_onlyRounded ..
  obtain ⟨hstate, hsuspects, l, hl, hraised⟩ := (verdictRows s c a u w).1.suspect_spec c.val a ((u.map w.upset).getD w)
  rw [hrows.troupe] at hsuspects
  rw [hrows.raised] at hraised
  refine ⟨_, exec_tileCheckVerdict hcheck hworks, ?_⟩
  rw [if_neg (Bool.eq_false_iff.mp hpass), if_pos hretried]
  exact ⟨hstate, hsuspects, l, hl, hraised⟩

end Verdict

/-! ## The end of a cue at an array (R90, R120) -/

/-- Beside its hold fill, an array stands where its work ends (R100). -/
theorem Core.workEnds_eq (x : Core) (a : ArrayId) : ∃ h, x.workEnds a = x.setArr a { x.arr a with holdLeft := h } := by
  unfold Core.workEnds
  extract_lets y
  split
  · exact ⟨y.holdLeft, by cases a <;> rfl⟩
  · exact ⟨_, rfl⟩

/-- A stop changes the Prompter of its Core at most. -/
theorem State.stopCore_core (s : State) (c : Nat) (cause : StopCause) : ∃ f, (s.stopCore c cause).core c = (s.core c).modP f := by
  unfold State.stopCore
  split
  · exact ⟨id, rfl⟩
  · exact ⟨_, Tab.get_set_same _ _ _ _⟩

theorem State.tokenRise_core (s : State) (c k n : Nat) : ∃ f, (s.tokenRise c k n).core c = (s.core c).modP f := by
  unfold State.tokenRise
  split
  · exact ⟨_, Tab.get_set_same _ _ _ _⟩
  · obtain ⟨f, hf⟩ := (s.modCore c (fun x => x.setToken k 15)).stopCore_core c .tokenOvf
    rw [State.modCore_set, State.setCore_core, if_pos rfl] at hf
    exact ⟨_, hf.trans (Core.modP_modP ..)⟩

/-- The signal of a cue changes the Prompter of its Core at most (R92). -/
theorem State.signal_core (s : State) (c : Nat) (k : Option Nat) : ∃ f, (s.signal c k).core c = (s.core c).modP f := by
  cases k with
  | none => exact ⟨id, rfl⟩
  | some k => exact s.tokenRise_core c k 1

/-- The cue in progress has ended at the array: its next comes up, the kept tile stands, and so do the other array and the tiles. -/
theorem State.endArrJob_spec {s : State} {c : Nat} {a : ArrayId} {j : ArrJob} {r : List ArrJob} (h : ((s.core c).arr a).jobs = j :: r) :
    (((s.endArrJob c a).core c).arr a).jobs = r ∧ (((s.endArrJob c a).core c).arr a).kept = ((s.core c).arr a).kept ∧
      ((s.endArrJob c a).core c).arr (other a) = (s.core c).arr (other a) ∧
      ∀ i, ((s.endArrJob c a).core c).tile i = (s.core c).tile i := by
  have hend : ∃ f, (s.endArrJob c a).core c = (((s.core c).setArr a ((s.core c).arr a).popJob).workEnds a).modP f := by
    simp only [State.endArrJob, h]
    split
    · obtain ⟨f, hf⟩ := (s.setCore c (((s.core c).setArr a ((s.core c).arr a).popJob).workEnds a)).signal_core c j.cue.signal
      exact ⟨f, by rw [hf, State.setCore_core, if_pos rfl]⟩
    · exact ⟨id, by rw [State.setCore_core, if_pos rfl]; rfl⟩
  obtain ⟨f, hf⟩ := hend
  obtain ⟨v, w, hpop⟩ := ((s.core c).arr a).popJob_eq
  obtain ⟨y, hwork⟩ := ((s.core c).setArr a ((s.core c).arr a).popJob).workEnds_eq a
  rw [hf, hwork, Core.setArr_arr, Core.setArr_setArr, hpop, h]
  simp only [Core.modP_arr, Core.modP_tile, Core.setArr_arr, Core.setArr_arr_other, Core.setArr_tile, List.tail_cons, and_self, implies_true]

/-! ## A drained tile (R61, R120) -/

/-- The tile's descriptor says RESIDENT under the cue's version, and the arrays work as they did. -/
theorem State.settleTile_core (s : State) (c : Nat) (t : TileJob) (tag : BitVec 32) (a : ArrayId) :
    (((s.settleTile c t tag).core c).tile t.dest).state = .resident ∧ (((s.settleTile c t tag).core c).tile t.dest).version = t.version ∧
      ((s.settleTile c t tag).core c).arr a = (s.core c).arr a := by
  rw [State.settleTile, State.modCore_set, State.setCore_core, if_pos rfl, Core.modP_tile, Core.modTile_tile, Core.modP_arr, Core.modTile_arr]
  exact ⟨rfl, rfl, rfl⟩

theorem State.drain_core (s : State) (c : Nat) (a : ArrayId) (t : TileJob) :
    (((s.drain c a t).core c).tile t.dest).state = .resident ∧ (((s.drain c a t).core c).tile t.dest).version = t.version ∧
      ((s.drain c a t).core c).arr a = (s.core c).arr a := by
  unfold State.drain
  split
  · exact s.settleTile_core c t _ a
  · rw [← (s.drainRows_onlyRounded c a t).arr a]
    exact State.settleTile_core ..

/-- A tile drained and taken off the cue in progress, its accumulators the array's last image (R62, R120). -/
def State.tileDrained (s : State) (c : Nat) (a : ArrayId) (w : TileJob) : State :=
  (s.drain c a w).modCore c (fun x => x.setArr a { (x.arr a).modHead List.tail with image := w.cells })

theorem exec_arrDestinationResident {s : State} {c : CoreNo} {a : ArrayId} {j : ArrJob} {r : List ArrJob} {w : TileJob} {ws : List TileJob}
    (hworks : (s.core c.val).works = true) (hjobs : ((s.core c.val).arr a).jobs = j :: r) (hkeep : j.keep = false) (htiles : j.tiles = w :: ws)
    (hpassed : w.verdict = some true) : exec (.arrDestinationResident c a) s =
      .next (if ws.isEmpty then (s.tileDrained c.val a w).endArrJob c.val a else s.tileDrained c.val a w) := by
  show execArrDestinationResident c a s = _
  simp [execArrDestinationResident, State.tileDrained, hworks, hjobs, hkeep, htiles, hpassed]

theorem State.tileDrained_spec (s : State) (c : Nat) (a : ArrayId) (w : TileJob) {j : ArrJob} {r : List ArrJob}
    (hjobs : ((s.core c).arr a).jobs = j :: r) :
    (((s.tileDrained c a w).core c).tile w.dest).state = .resident ∧ (((s.tileDrained c a w).core c).tile w.dest).version = w.version ∧
      (((s.tileDrained c a w).core c).arr a).jobs = { j with tiles := j.tiles.tail } :: r := by
  obtain ⟨hstate, hversion, harr⟩ := s.drain_core c a w
  have hcore : (s.tileDrained c a w).core c = ((s.drain c a w).core c).setArr a
      { (((s.drain c a w).core c).arr a).modHead List.tail with image := w.cells } := Tab.get_set_same _ _ _ _
  rw [hcore, Core.setArr_tile, Core.setArr_arr, harr, Arr.modHead_of_jobs hjobs]
  exact ⟨hstate, hversion, rfl⟩

theorem arrDestinationResident_completes {s : State} {c : CoreNo} {a : ArrayId} {j : ArrJob} {r : List ArrJob} {w : TileJob} {ws : List TileJob}
    (hworks : (s.core c.val).works = true) (hjobs : ((s.core c.val).arr a).jobs = j :: r) (hkeep : j.keep = false) (htiles : j.tiles = w :: ws)
    (hpassed : w.verdict = some true) : completes (.arrDestinationResident c a) s fun t =>
      ((t.core c.val).tile w.dest).state = .resident ∧ ((t.core c.val).tile w.dest).version = w.version ∧
        ((t.core c.val).arr a).jobs.length = (if ws.isEmpty then r.length else r.length + 1) := by
  obtain ⟨hstate, hversion, hjobs'⟩ := s.tileDrained_spec c.val a w hjobs
  obtain ⟨hnext, -, -, htile⟩ := State.endArrJob_spec hjobs'
  refine ⟨_, exec_arrDestinationResident hworks hjobs hkeep htiles hpassed, ?_⟩
  split
  · exact ⟨by rw [htile, hstate], by rw [htile, hversion], by rw [hnext]⟩
  · exact ⟨hstate, hversion, by rw [hjobs', List.length_cons]⟩

/-! ## Accumulators that are kept (R90) -/

/-- The part of one array in ACCUMULATORS_KEPT. -/
def State.keepAccumulators (s : State) (c : Nat) (a : ArrayId) : State :=
  match ((s.core c).arr a).jobs with
  | [] => s
  | j :: r =>
    if !(s.core c).works || !j.keep then s
    else (s.modCore c (fun x => x.setArr a { x.arr a with
      kept := if (r.head?.map (·.cont)).getD false then none else j.tiles.head?
      image := (j.tiles.head?.map (·.cells)).getD (x.arr a).image })).endArrJob c a

theorem exec_accumulatorsKept (c : CoreNo) (s : State) :
    exec (.accumulatorsKept c) s = .next ((s.keepAccumulators c.val .arrA).keepAccumulators c.val .arrB) := rfl

/-- An idle array stands. Else the cue in progress ends, its first tile kept unless the next cue takes it; the other array stands. -/
theorem State.keepAccumulators_spec (s : State) (c : Nat) (a : ArrayId) :
    (((s.core c).arr a).jobs = [] → s.keepAccumulators c a = s) ∧
    ∀ j r, (s.core c).works = true → ((s.core c).arr a).jobs = j :: r → j.keep = true →
      (((s.keepAccumulators c a).core c).arr a).jobs = r ∧
        (((s.keepAccumulators c a).core c).arr a).kept = (if (r.head?.map (·.cont)).getD false then none else j.tiles.head?) ∧
        ((s.keepAccumulators c a).core c).arr (other a) = (s.core c).arr (other a) := by
  unfold State.keepAccumulators
  refine ⟨fun hidle => by rw [hidle], fun j r hworks hjobs hkeep => ?_⟩
  simp only [hjobs, hworks, hkeep, Bool.not_true, Bool.or_false, Bool.false_eq_true, if_false]
  generalize hs : s.modCore c _ = t
  have hcore : ((t.core c).arr a).jobs = j :: r ∧ ((t.core c).arr a).kept = (if (r.head?.map (·.cont)).getD false then none else j.tiles.head?) ∧
      (t.core c).arr (other a) = (s.core c).arr (other a) := by
    rw [← hs, State.modCore_set, State.setCore_core, if_pos rfl, Core.setArr_arr, Core.setArr_arr_other]
    exact ⟨hjobs, rfl, rfl⟩
  obtain ⟨htjobs, htkept, htother⟩ := hcore
  obtain ⟨hnext, hkept, hother, -⟩ := State.endArrJob_spec htjobs
  exact ⟨hnext, hkept.trans htkept, hother.trans htother⟩

theorem accumulatorsKept_completes {s : State} {c : CoreNo} {j : ArrJob} {r : List ArrJob} (hworks : (s.core c.val).works = true)
    (hjobs : ((s.core c.val).arr .arrA).jobs = j :: r) (hkeep : j.keep = true) (hidle : ((s.core c.val).arr .arrB).jobs = []) :
    completes (.accumulatorsKept c) s fun t => ((t.core c.val).arr .arrA).jobs.length = r.length ∧
      ((r.head?.map (·.cont)).getD false = false → ((t.core c.val).arr .arrA).kept = j.tiles.head?) := by
  obtain ⟨hjobs', hkept, hother⟩ := (s.keepAccumulators_spec c.val .arrA).2 j r hworks hjobs hkeep
  have hidle' : (((s.keepAccumulators c.val .arrA).core c.val).arr .arrB).jobs = [] := (congrArg Arr.jobs hother).trans hidle
  refine ⟨_, exec_accumulatorsKept c s, ?_⟩
  rw [(State.keepAccumulators_spec _ c.val .arrB).1 hidle']
  exact ⟨congrArg List.length hjobs', fun hcont => hkept.trans (by rw [hcont]; rfl)⟩

/-! ## A preloaded stationary tile (R112, R120) -/

theorem stationaryPreloadDone_completes {s : State} {c : CoreNo} {a : ArrayId} {j k : ArrJob} {r : List ArrJob}
    (hworks : (s.core c.val).works = true) (hjobs : ((s.core c.val).arr a).jobs = j :: k :: r) (hmode : 3 ≤ j.mode.toNat)
    (hneeds : k.needsStationary = true) (hnot : k.preloaded = false) : completes (.stationaryPreloadDone c a) s fun t =>
      ((t.core c.val).arr a).shadowValid = true ∧ ((t.core c.val).arr a).jobs = j :: { k with preloaded := true } :: r := by
  refine ⟨s.setCore c.val ((s.core c.val).setArr a
    { (s.core c.val).arr a with jobs := j :: { k with preloaded := true } :: r, shadowValid := true }), ?_, ?_⟩
  · show execStationaryPreloadDone c a s = _
    simp [execStationaryPreloadDone, hjobs, hworks, hmode, hneeds, hnot]
  · simp only [State.setCore_core, if_true, Core.setArr_arr, and_self]

/-- Settles O7: each clause is the lemma about its event, in the case it speaks of. -/
theorem tileChecksAndCompletions : Obligations.TileChecksAndCompletions := by
  refine ⟨fun s c a u w hcheck hworks => ⟨?_, ?_, ?_⟩, fun s c a hworks => ⟨?_, ?_, ?_⟩⟩
  · rintro rfl
    exact tileCheckVerdict_passes hcheck hworks rfl
  · exact tileCheckVerdict_again hcheck hworks
  · exact tileCheckVerdict_suspect hcheck hworks
  · intro j r w ws hjobs hkeep htiles hpassed
    exact arrDestinationResident_completes hworks hjobs hkeep htiles hpassed
  · intro j r hjobs hkeep hidle
    exact accumulatorsKept_completes hworks hjobs hkeep hidle
  · intro j k r hjobs hmode hneeds hnot
    exact stationaryPreloadDone_completes hworks hjobs hmode hneeds hnot

end Sys2Proof.Machine
end

section
/-! SUPPORT. Conversion of finite codes (O9): a code's value names its exponent and significand, and rounding them back gives the code. -/

namespace Sys2Proof.Machine

/-! ## A finite code converts back to itself (R44, R51, R56) -/

/-- A significand that needs no rounding is kept: its code is its exponent's place and itself. -/
theorem roundCode_exact (f : FLayout) (m : Nat) (e : Int) (hm : m ≠ 0) (hmax : max ((Nat.log2 m : Int) + e - f.mbits) f.qmin = e) :
    roundCode f none m e = (e - f.qmin).toNat * 2 ^ f.mbits + m := by
  simp [roundCode, roundNE, hm, hmax]

/-- The code of a subnormal value, whose significand fits below the hidden bit. -/
theorem roundCode_subnormal (f : FLayout) (m : Nat) (hm : m < 2 ^ f.mbits) : roundCode f none m f.qmin = m := by
  by_cases h0 : m = 0
  · rw [h0]
    rfl
  · have hlog : Nat.log2 m < f.mbits := (Nat.log2_lt h0).2 hm
    rw [roundCode_exact f m f.qmin h0 (by omega), Int.sub_self, Int.toNat_zero, Nat.zero_mul, Nat.zero_add]

/-- The code of a normal value: `x` places above the smallest exponent, fraction `r`. -/
theorem roundCode_normal (f : FLayout) (x r : Nat) (hr : r < 2 ^ f.mbits) :
    roundCode f none (2 ^ f.mbits + r) (f.qmin + x) = (x + 1) * 2 ^ f.mbits + r := by
  have hlog : Nat.log2 (2 ^ f.mbits + r) = f.mbits := by
    rw [Nat.log2_eq_iff (by omega), Nat.pow_succ]
    omega
  rw [roundCode_exact f _ _ (by omega) (by omega), Int.add_comm, Int.add_sub_cancel, Int.toNat_natCast, Nat.add_one_mul, Nat.add_assoc]

/-- A finite code gives its value the sign of its sign bit, and a significand and exponent that round to its magnitude again. -/
theorem ofLayout_fin {f : FLayout} {code : Nat} {s : Bool} {m : Nat} {e : Int} (h : ofLayout f code = .fin s m e) :
    s = bitOf code (f.width - 1) ∧ code % 2 ^ (f.width - 1) ≤ f.maxCode ∧ roundCode f none m e = code % 2 ^ (f.width - 1) := by
  have hc := Nat.div_add_mod' (code % 2 ^ (f.width - 1)) (2 ^ f.mbits)
  simp only [ofLayout] at h
  generalize code % 2 ^ (f.width - 1) = c at h hc ⊢
  have hr : c % 2 ^ f.mbits < 2 ^ f.mbits := Nat.mod_lt _ (Nat.two_pow_pos _)
  split at h
  case isTrue hle =>
    split at h
    case isTrue h0 =>
      obtain ⟨rfl, rfl, rfl⟩ := h
      refine ⟨rfl, hle, roundCode_subnormal f _ ?_⟩
      rw [h0, Nat.zero_mul, Nat.zero_add] at hc
      exact hc ▸ hr
    case isFalse h0 =>
      obtain ⟨rfl, rfl, rfl⟩ := h
      obtain ⟨x, hx⟩ := Nat.exists_eq_succ_of_ne_zero h0
      refine ⟨rfl, hle, ?_⟩
      rw [show f.qmin + ((c / 2 ^ f.mbits : Nat) : Int) - 1 = f.qmin + x by omega, roundCode_normal f x _ hr, ← Nat.succ_eq_add_one, ← hx, hc]
  case isFalse => split at h <;> cases h

/-- A code is its sign bit and its magnitude. -/
theorem signBit_add_magnitude (f : FLayout) (code : Nat) (hw : 0 < f.width) (hcode : code < 2 ^ f.width) :
    f.signBit (bitOf code (f.width - 1)) + code % 2 ^ (f.width - 1) = code := by
  have hdiv : code / 2 ^ (f.width - 1) < 2 :=
    Nat.div_lt_of_lt_mul (by rwa [← Nat.pow_succ, Nat.succ_eq_add_one, Nat.sub_add_cancel hw])
  have hcut := Nat.div_add_mod' code (2 ^ (f.width - 1))
  rcases Nat.lt_succ_iff_lt_or_eq.mp hdiv with h | h
  · rw [Nat.lt_one_iff.mp h, Nat.zero_mul] at hcut
    simpa [FLayout.signBit, bitOf, Nat.lt_one_iff.mp h] using hcut
  · rw [h, Nat.one_mul] at hcut
    simpa [FLayout.signBit, bitOf, h] using hcut

/-- A finite code of any layout converts back to itself, whatever becomes of values past the largest. -/
theorem toLayout_ofLayout (f : FLayout) (o : Over) (code : Nat) (hw : 0 < f.width) (hcode : code < 2 ^ f.width)
    (hfin : (ofLayout f code).isFin = true) : (ofLayout f code).toLayout f o none = { code := code } := by
  cases h : ofLayout f code with
  | nan => rw [h] at hfin; cases hfin
  | inf s => rw [h] at hfin; cases hfin
  | fin s m e =>
    obtain ⟨rfl, hle, hround⟩ := ofLayout_fin h
    simp only [FVal.toLayout, hround, hle, if_true, signBit_add_magnitude f code hw hcode]

/-- Settles O9: both formats are layouts of 8 bits, and a finite code of a layout converts back to itself. -/
theorem formatsConvertExactly : Obligations.FormatsConvertExactly := by
  intro f hf code hcode hfin
  simp only [List.mem_cons, List.not_mem_nil, or_false] at hf
  obtain rfl | rfl := hf
  · have h := toLayout_ofLayout e4m3 .toMax code (Nat.succ_pos 7) hcode hfin
    exact ⟨congrArg Conv.code h, congrArg Conv.sat h⟩
  · have h := toLayout_ofLayout e5m2 .toMax code (Nat.succ_pos 7) hcode hfin
    exact ⟨congrArg Conv.code h, congrArg Conv.sat h⟩

end Sys2Proof.Machine
end
